-- ==== Sys2Proof/Word.lean ====
section
/-! DEFINITION. The words the manual calls bits: a byte, a register word, the floating-point patterns of R11, and the
sparse table in which the machine keeps what it numbers (queues, counters, ports, granules). -/
namespace Sys2Proof

/-- One byte of memory, of a descriptor or of a packet (R7). -/
abbrev Byte := BitVec 8
/-- A 64-bit register of a BAR page (R27, R211, R251). -/
abbrev W64 := BitVec 64
/-- A 32-bit pattern: FP32 (R11) or a 32-bit field. -/
abbrev W32 := BitVec 32
/-- A 16-bit pattern: BF16 or FP16 (R11). -/
abbrev W16 := BitVec 16

/-- A sparse table keyed by a number. A key that is not listed holds its reset value, which each reader names. -/
abbrev Tbl (α : Type) := List (Nat × α)

namespace Tbl
variable {α : Type}

/-- The value at a key, or the reset value `d` where nothing is listed. -/
def get (d : α) : Tbl α → Nat → α
  | [], _ => d
  | (k, v) :: t, n => if k = n then v else get d t n

/-- Put a value at a key; the keys keep their rising order. -/
def set : Tbl α → Nat → α → Tbl α
  | [], n, x => [(n, x)]
  | (k, v) :: t, n, x =>
    if n < k then (n, x) :: (k, v) :: t
    else if n = k then (n, x) :: t
    else (k, v) :: set t n x

/-- Take a key out, so that it holds its reset value again. -/
def del (t : Tbl α) (n : Nat) : Tbl α := t.filter (fun e => e.1 ≠ n)

end Tbl
end Sys2Proof
end

