-- ==== Sys2Proof/Config.lean ====
section
/-! DEFINITION. What a build fixes (R399), what the straps and the IDENT port fix (R371, R404), and the free values: what
the manual leaves open has no body here, so that no proof can see it. -/
namespace Sys2Proof

/-- The build parameters of R399. -/
structure Build where
  /-- PITCHES: 16, 24 or 32. -/
  pitches : Nat
  /-- STACKS: 1 to 16. -/
  nStacks : Nat
  /-- MEM_GIB_PER_STACK: 1 to 72. -/
  memGib : Nat
  /-- D2D_MODULE_MAP_DEFAULT: 12 bits for the link to each of the dies 0 to 3. -/
  moduleMap : List Nat
  /-- HINT_PRESENT. -/
  hintPresent : Bool
deriving DecidableEq, Repr, Inhabited

/-- The straps of R371. -/
structure Straps where
  /-- BOOT_MODE: true is HELD. -/
  held : Bool
  /-- I3C_ADDR, 7 bits. -/
  i3cAddr : Nat
  /-- PITCH_LIMIT, 2 bits. -/
  pitchLimit : Nat
  /-- HOST_MODE: true is CXL over UCIe. -/
  hostUcie : Bool
  /-- LEAD. -/
  lead : Bool
deriving DecidableEq, Repr, Inhabited

/-- The IDENT inputs of R397 and R404. -/
structure Ident where
  chip : Nat
  die : Nat
  serial : Nat
  licensee : Nat
deriving DecidableEq, Repr, Inhabited

namespace Config

/-- Sign and payload of a NaN that FP32 arithmetic makes from these operands. R12 and R100 leave both open; only
that the result is a quiet NaN is used (DESIGN CHOICE, log 4). -/
opaque nanBits32 : List W32 → W32
/-- The same for FP64 (R52). -/
opaque nanBits64 : List W64 → W64
/-- The same for a NaN rounded to a 16-bit format. -/
opaque nanBits16 : W32 → W16
/-- R114's clamp of a NaN, which a finite or infinite coordinate reaches through infinite bounds: the manual states no
result (DESIGN CHOICE, log 14). -/
opaque clampNan : List W32 → W32
/-- A byte that the manual calls undefined: the first argument numbers the occasion, the second is the address
(R106, R180, R337; DESIGN CHOICE, log 5). -/
opaque undefByte : Nat → Nat → Byte
/-- Whether a CK_AON edge falls in the n-th cycle of CK_ROOT: the two are unrelated (R331; DESIGN CHOICE, log 6). -/
opaque aonEdge : Nat → Bool
/-- The same for CK_MEM, the clock of the groundsheet slices. -/
opaque gsEdge : Nat → Bool
/-- The same for CK_D2D. -/
opaque d2dEdge : Nat → Bool
/-- Holtivo's IANA Private Enterprise Number, which R358 and R374 name and no chapter gives (DESIGN CHOICE, log 7). -/
opaque vendorIana : W32
/-- Whether a granule that another die of the chip flips changed its bias: the occasion and the fabric physical address
(R248: the other die's bias bits are outside this block, DESIGN CHOICE, log 34). -/
opaque peerBiasChanged : Nat → Nat → Bool
/-- The snoop-filter entry that a full filter evicts, by occasion: R245 names no order (DESIGN CHOICE, log 44). -/
opaque filterVictim : Nat → Nat
/-- The command-set word of the Get Vendor Defined Message Support response (R355): no chapter gives it (DESIGN CHOICE, log 7). -/
opaque vendorCommandSet : W16
/-- LINK_WIDTH of the trained host link, by training count (R263: the link itself is outside, DESIGN CHOICE, log 8). -/
opaque hostLinkWidth : Nat → Byte
/-- LINK_RATE of the trained host link (R263). -/
opaque hostLinkRate : Nat → Byte

end Config
end Sys2Proof
end

