-- ==== Sys2Proof/Syntax.lean ====
section
/-! DEFINITION. The commands of the block: one constructor per row of spec/opcode_table.json. The table gives no operands,
so each constructor carries what the row's rule names: the register value written, the queue, pitch, slice or link
concerned, or the bits that arrive. -/
namespace Sys2Proof

/-- The two bindings of R355. -/
inductive Binding where
  | i3c
  | inBand
deriving DecidableEq, Repr, Inhabited

/-- A write that has no row of its own (R362): to an offset of a function's BAR0, `bytes` wide, or the WRITE that stands
at the head of the Relrok request sack. -/
inductive RegWrite where
  | bar (fn offset bytes : Nat) (v : W64)
  | dict
deriving DecidableEq, Repr, Inhabited

/-- A stuff sack whose pointer copies can disagree, named by its class (R387). -/
inductive SackId where
  /-- READ: the input sack of a unit of work (a bag, group, array unit, SCATTER unit or copy). -/
  | read (uid : Nat)
  /-- READ: a queue's descriptor fetch. -/
  | fetch (q : Nat)
  /-- PORT: packets that have arrived and are not yet released. -/
  | port
  /-- INTERNAL: the paths between the units of a pitch. -/
  | internal (pitch : Nat)
  /-- RECORD: the error staging sack. -/
  | error
  /-- RECORD: the fault staging sack. -/
  | fault
  /-- RECORD: the trace sack. -/
  | trace
deriving DecidableEq, Repr, Inhabited

/-- The reader that a stride detector watches (R236): a unit's input stream, or a queue's descriptor fetch. -/
inductive Reader where
  | unit (uid : Nat)
  | fetch (q : Nat)
deriving DecidableEq, Repr, Inhabited

inductive Instr where
  /-- R30: function `fn` writes `v` to queue `q`'s DOORBELL. -/
  | doorbell (fn q : Nat) (v : W64)
  /-- R29. -/
  | qcfgWrite (fn q : Nat) (v : W64)
  /-- R42. -/
  | cqHeadWrite (fn q : Nat) (v : W64)
  /-- R27, R407. -/
  | start (fn q : Nat)
  /-- R407. -/
  | stop (fn q : Nat)
  /-- R27. -/
  | qreset (fn q : Nat)
  /-- R29. -/
  | unbind (fn q : Nat)
  /-- R362. -/
  | registerWrite (t : RegWrite)
  /-- R35. -/
  | fetchBurst (q : Nat)
  /-- R33, R34. -/
  | slotCheck (q : Nat)
  /-- R43. -/
  | repoll (q : Nat)
  /-- R43. -/
  | stalledEarly (q : Nat)
  /-- R36, R59. -/
  | dispatch (q : Nat)
  /-- R41. -/
  | completionWrite (q : Nat)
  /-- R41. -/
  | tailWordTimer (q : Nat)
  /-- R406. -/
  | nop (q : Nat)
  /-- R50. -/
  | pegLocalWaitGe (q : Nat)
  /-- R50. -/
  | pegLocalSet (q : Nat)
  /-- R50. -/
  | pegWaitPass (q : Nat)
  /-- R51. -/
  | pegGlobal (q : Nat)
  /-- R54. -/
  | periodManual (q : Nat)
  /-- R54. -/
  | periodAuto (q : Nat)
  /-- R54. -/
  | periodStop (q : Nat)
  /-- R54: an automatic opening of stream `st`. -/
  | periodAutoOpen (st : Nat)
  /-- R56: the deadline of stream `st`'s period. -/
  | deadline (st : Nat)
  /-- R61. -/
  | kindle (q : Nat)
  /-- R61. -/
  | kindleLeadEnd (q : Nat)
  /-- R348. -/
  | heavyRequestEnd
  /-- R59. -/
  | rearm (q : Nat)
  /-- R45. -/
  | cancel (q : Nat)
  /-- R47. -/
  | cancelMarker (q : Nat)
  /-- R62. -/
  | maintClean (q : Nat)
  /-- R62. -/
  | maintInvalidate (q : Nat)
  /-- R62. -/
  | maintCleanInvalidate (q : Nat)
  /-- R87. -/
  | lookup (q : Nat)
  /-- R92: pitch `p` takes its next index. -/
  | indexParse (p : Nat)
  /-- R96: the oldest bag-fragment request in the port sack. -/
  | fragReq
  /-- R98: the next row of pitch `p`. -/
  | sectorReturn (p : Nat)
  /-- R102: the oldest partial in the port sack. -/
  | partialIn
  /-- R106: bag `uid`. -/
  | bagCommit (uid : Nat)
  /-- R111. -/
  | lattice (q : Nat)
  /-- R121. -/
  | gridBufferLoad (p : Nat)
  /-- R114. -/
  | latticePoint (p : Nat)
  /-- R127. -/
  | arrayRun (q : Nat)
  /-- R131. -/
  | interact (q : Nat)
  /-- R139. -/
  | arrayPass (p : Nat)
  /-- R124. -/
  | shadowFill (p : Nat)
  /-- R130: array or lattice unit `uid`. -/
  | unitCommit (uid : Nat)
  /-- R145. -/
  | scatter (q : Nat)
  /-- R152. -/
  | scatterOccurrence (p : Nat)
  /-- R156: the oldest contribution in the port sack. -/
  | contrib
  /-- R157: the oldest message at slice `n`. -/
  | contribPlace (n : Nat)
  /-- R162: the oldest record waiting at slice 0. -/
  | overflowAppend
  /-- R164: slice `n`. -/
  | runBufferTimer (n : Nat)
  /-- R166: slice `n`. -/
  | ackTimer (n : Nat)
  /-- R168. -/
  | gradAck
  /-- R171. -/
  | step (q : Nat)
  /-- R177: descriptor `id`. -/
  | phaseOne (id : Nat)
  /-- R182: descriptor `id`. -/
  | phaseOneEnd (id : Nat)
  /-- R186: descriptor `id`. -/
  | phaseTwo (id : Nat)
  /-- R194. -/
  | precond (q : Nat)
  /-- R199. -/
  | refreshMarked (q : Nat)
  /-- R199. -/
  | refreshList (q : Nat)
  /-- R197: the oldest refresh message in the port sack. -/
  | refresh
  /-- R319: the oldest refresh acknowledgement in the port sack. -/
  | refreshAck
  /-- R319. -/
  | refreshAckTimer
  /-- R200. -/
  | tableSwap (q : Nat)
  /-- R84: descriptor `id`, a TABLE_SWAP. -/
  | slotRetired (id : Nat)
  /-- R254. -/
  | copy (q : Nat)
  /-- R256: descriptor `id`, a COPY. -/
  | copyTile (id : Nat)
  /-- R247. -/
  | biasFlip (q : Nat)
  /-- R248: descriptor `id`, a BIAS_FLIP. -/
  | biasFlipGranule (id : Nat)
  /-- R221: the next input tile of unit `uid`. -/
  | tileCommit (uid : Nat)
  /-- R215. -/
  | faultBatchTimer
  /-- R215: FAULT_HEAD of die `die` and context `ctx`, written through function `fn`'s page. -/
  | faultHeadWrite (fn die ctx : Nat) (v : W64)
  /-- R218: a write of `v`, ABORT clear, to RESUME. -/
  | resume (fn : Nat) (v : W64)
  /-- R219: a write of `v`, ABORT set, to RESUME. -/
  | resumeAbort (fn : Nat) (v : W64)
  /-- R226: a write of `v` to INVALIDATE whose OP is GRANULE. -/
  | invalidateGranule (fn : Nat) (v : W64)
  /-- R226, SEGMENT. -/
  | invalidateSegment (fn : Nat) (v : W64)
  /-- R226, CONTEXT. -/
  | invalidateContext (fn : Nat) (v : W64)
  /-- R226, ALL. -/
  | invalidateAll (fn : Nat) (v : W64)
  /-- R227. -/
  | invalidationDone
  /-- R229: the oldest outstanding miss of pitch `p`. -/
  | mdcFill (p : Nat)
  /-- R403. -/
  | hintTake
  /-- R403. -/
  | hintDecline
  /-- R236. -/
  | prefetch (r : Reader)
  /-- R401: the completion of the write with tag `tag`. -/
  | gsWdone (tag : Nat)
  /-- R243: an access at HDM offset `off`, of `len` bytes for a read or of `data` for a write; `peer` for a peer's
  CXL.io request, `caching` for a host read that caches the line. -/
  | hostMemAccess (peer write caching : Bool) (off len : Nat) (data : List Byte)
  /-- R238. -/
  | hostSnoop (addr : Nat)
  /-- R244: the response to the BISnpInv for line `line`, with dirty data when `data` is not empty. -/
  | bisnpResponse (line : Nat) (data : List Byte)
  /-- R251. -/
  | bivouacBaseWrite (v : W64)
  /-- R252. -/
  | bivouacWindowAccess (write : Bool) (off len : Nat) (data : List Byte)
  /-- R259. -/
  | hostLinkDown
  /-- R260. -/
  | linkRetrained
  /-- R261: by the timer, or by the HOST_STATE write at the head of the request sack; `inReplay` is the number of writes in
  the CXL link layer's replay buffer, which the link layer reports. -/
  | hostLost (byFirmware : Bool) (inReplay : Nat)
  /-- R263. -/
  | hostReattached
  /-- R264. -/
  | flr (fn : Nat)
  /-- R264: VF Enable becomes `on`. -/
  | vfEnable (on : Bool)
  /-- R264: function `fn`'s Bus Master Enable becomes `on`. -/
  | busMaster (fn : Nat) (on : Bool)
  /-- R264: the FN_DISABLE write at the head of the request sack. -/
  | fnDisable
  /-- R266. -/
  | graceExpiry (fn : Nat)
  /-- R267. -/
  | functionDrained (fn : Nat)
  /-- R281: a flit of 256 bytes arrives from die `p`. -/
  | d2dFlit (p : Nat) (bytes : List Byte)
  /-- R284: module port `port`'s low (false) or high (true) half fails. -/
  | d2dHalfFail (port : Nat) (high : Bool)
  /-- R285: the sideband message from die `p`. -/
  | retrain (p : Nat)
  /-- R285. -/
  | linkReset (p : Nat)
  /-- R285. -/
  | proposal (p attempt halves : Nat)
  /-- R285. -/
  | result (p attempt halves : Nat)
  /-- R287. -/
  | holdDown (p cause : Nat)
  /-- R285: the UCIe adapter reports the halves that trained. -/
  | trainingAttemptEnd (p halves : Nat)
  /-- R285. -/
  | trainingTimeout (p : Nat)
  /-- R287: a CAP flit of 256 bytes arrives from die `p`. -/
  | cap (p : Nat) (bytes : List Byte)
  /-- R283: the D2D_RETRAIN write at the head of the request sack. -/
  | d2dRetrain
  /-- R283: the D2D_LINK_RESET write at the head of the request sack. -/
  | d2dLinkReset
  /-- R277: the oldest forwarded write in the port sack. -/
  | fwdWrite
  /-- R277. -/
  | fwdRead
  /-- R277. -/
  | fwdData
  /-- R227. -/
  | fwdReport
  /-- R278: the oldest DICT segment in the port sack. -/
  | dict
  /-- R365. -/
  | dictForwardTimeout
  /-- R276. -/
  | memRead
  /-- R276. -/
  | memWrite
  /-- R276. -/
  | memData
  /-- R276. -/
  | memDone
  /-- R300: a flit of 256 bytes arrives on sub-port `sp`; `marked` when an uncorrectable codeword holds a bit of it. -/
  | ridgeFlit (sp : Nat) (bytes : List Byte) (marked : Bool)
  /-- R308: the oldest packet that waits for routing. -/
  | packetRoute
  /-- R314. -/
  | unreach
  /-- R315. -/
  | echo
  /-- R315. -/
  | echoReply
  /-- R315. -/
  | reachIdleExpiry (chip : Nat)
  /-- R316. -/
  | reachWaitExpiry (chip : Nat)
  /-- R316. -/
  | declaredEcho (chip : Nat)
  /-- R297: the SerDes reports lock on every lane of sub-port `sp`. -/
  | laneLock (sp : Nat)
  /-- R297: a NEG flit of 256 bytes arrives on sub-port `sp`. -/
  | neg (sp : Nat) (bytes : List Byte)
  /-- R297: the training attempt of sub-port `sp` ends. -/
  | portTrainingEnd (sp : Nat) (ok : Bool)
  /-- R298: lane `lane`, 0 to 255, fails. -/
  | laneFail (lane : Nat)
  /-- R298: the PORT_RETRAIN write at the head of the request sack. -/
  | portRetrain
  /-- R334: the RESET_PORT write at the head of the request sack. -/
  | resetPort
  /-- R307: the ROUTE_LOAD write at the head of the request sack. -/
  | routeLoad
  /-- R316. -/
  | routeLoadDone
  /-- R317: the MCAST_LOAD write at the head of the request sack. -/
  | mcastLoad
  /-- R311: the PART_LOAD write at the head of the request sack. -/
  | partLoad
  /-- R311: slot `n`. -/
  | partitionCommit (n : Nat)
  /-- R322. -/
  | pegArrive
  /-- R323. -/
  | pegResult
  /-- R335: COLD_RST_N rises with these pins. -/
  | coldReset (straps : Straps) (ident : Ident)
  /-- R335. -/
  | rootLocked
  /-- R335. -/
  | resetEnd
  /-- R335. -/
  | ready
  /-- R337: WARM_RST_N takes this level. -/
  | warmRstN (level : Bool)
  /-- R337: the RESET_WARM write at the head of the request sack. -/
  | resetWarm
  /-- R337: the RESET_WARM delay expires, or with `lockLost` ROOT_LOCKED falls. -/
  | warmResetTrigger (lockLost : Bool)
  /-- R337. -/
  | warmResetRestart
  /-- R343. -/
  | droopWarnRise
  /-- R343. -/
  | droopWarnFall
  /-- R343. -/
  | stretchRelease
  /-- R345. -/
  | freqReqRise
  /-- R346. -/
  | freqHoldEnd
  /-- R345. -/
  | freqReqFall
  /-- R347. -/
  | throttleReqRise
  /-- R347. -/
  | throttleReqFall
  /-- R341: pitch `p`. -/
  | rampStart (p : Nat)
  /-- R341: pitch `p`. -/
  | rampStep (p : Nat)
  /-- R350. -/
  | energyPass
  /-- R333. -/
  | coreKhzWindow
  /-- R356: the static address and the dynamic address that the controller gives it. -/
  | setdasa (static dyn : Nat)
  /-- R356. -/
  | entdaa (dyn : Nat)
  /-- R356: a private read to `addr`. -/
  | i3cPrivateRead (addr : Nat)
  /-- R355: Set Endpoint ID. -/
  | setEndpointId (bi : Binding) (eid : Nat)
  /-- R355. -/
  | getEndpointId (bi : Binding)
  /-- R355. -/
  | getMctpVersionSupport (bi : Binding)
  /-- R355. -/
  | getMessageTypeSupport (bi : Binding)
  /-- R355. -/
  | getVendorDefinedMessageSupport (bi : Binding)
  /-- R366: a message from endpoint `eid`, addressed to function `fn`, whose packets assembled (`ok`), with the bytes after
  its MCTP message-type byte: the enterprise number, then the body. -/
  | relrokMessage (bi : Binding) (eid fn : Nat) (ok : Bool) (bytes : List Byte)
  /-- R363: the READ at the head of the request sack. -/
  | read
  /-- R364: the DISCOVER at the head of the request sack. -/
  | discover
  /-- R370: object `index`, subindex `sub`. -/
  | rwcCommit (index sub : Nat)
  /-- R372: the BOOT_RELEASE write at the head of the request sack. -/
  | bootRelease
  /-- R375. -/
  | alertStatusWrite
  /-- R379. -/
  | counterClear
  /-- R379. -/
  | sketchClear
  /-- R380. -/
  | errLogClear
  /-- R380. -/
  | errRingRestart
  /-- R235. -/
  | cacheInvalidate
  /-- R381. -/
  | peekDataRead
  /-- R381. -/
  | peekDataWrite
  /-- R381. -/
  | eccInject
  /-- R387. -/
  | sackMismatch (sack : SackId)
  /-- R391. -/
  | errorRecordCopy
  /-- R334. -/
  | coldResetAssert
  /-- R263. -/
  | hostLinkActive
deriving DecidableEq, Repr

end Sys2Proof
end

