-- ==== Sys2Proof/Machine/State.lean ====
section
/-! DEFINITION. Everything the manual gives one block (one die), as plain data. Each field's default value is its reset
value; INVENTORY.md lists where the manual gives it and which the model names. -/
namespace Sys2Proof.Machine

/-- A byte as the groundsheet port returns it: its value, and whether its sector is poisoned (R388). -/
abbrev PByte := Byte × Bool

/-! ### Memory -/

/-- A run of bytes that the manual calls undefined, until they are written (R106, R180, R337). -/
structure Undef where
  lo : Nat
  len : Nat
  stamp : Nat
deriving DecidableEq, Repr, Inhabited

/-- A memory: the bytes listed, in rising address order and none of them 0, which an unlisted address reads as (DESIGN CHOICE, log 1);
its poisoned 64-byte sectors (R388); its undefined bytes. -/
structure Mem where
  cells : List Host.Cell := []
  poisoned : List Nat := []
  undef : List Undef := []
deriving DecidableEq, Repr, Inhabited

/-! ### Messages and packets -/

/-- The bag-fragment request of R93. -/
structure FragReqB where
  ctx : Nat
  weighted : Bool
  bf16 : Bool
  slot : Nat
  stream : Nat
  table : Nat
  frag : Nat
  tag : Nat
  srcChip : Nat
  srcDie : Nat
  srcPitch : Nat
  rows : List Nat
  weights : List W32
deriving DecidableEq, Repr, Inhabited

/-- The partial of R94; `vals` are FP32 patterns, exact images of BF16 ones when `bf16`. -/
structure PartialB where
  status : Nat
  bf16 : Bool
  tag : Nat
  frag : Nat
  chip : Nat
  die : Nat
  vals : List W32
deriving DecidableEq, Repr, Inhabited

/-- The contribution message of R154; `elems` are exact values, 96-bit two's complement. -/
structure ContribB where
  ctx : Nat
  width : Nat
  sat : Bool
  slot : Nat
  table : Nat
  chunk : Nat
  row : Nat
  tag : Nat
  occ : Nat
  srcChip : Nat
  srcDie : Nat
  srcPitch : Nat
  elems : List Int
deriving DecidableEq, Repr, Inhabited

/-- The acknowledgement of R166. -/
structure GradAckB where
  status : Nat
  overrange : Bool
  msgs : Nat
  tag : Nat
  occFrozen : Nat
  chip : Nat
  die : Nat
deriving DecidableEq, Repr, Inhabited

/-- The refresh message of R197. -/
structure RefreshB where
  ctx : Nat
  slot : Nat
  table : Nat
  tag : Nat
  row : Nat
  srcChip : Nat
  srcDie : Nat
  data : List Byte
deriving DecidableEq, Repr, Inhabited

/-- PEG_ARRIVE of R321. `ctx` is the context on the chip, which the die-to-die packet needs and the body's fields do not
name (DESIGN CHOICE, log 20). -/
structure PegArriveB where
  part : Nat
  barrier : Nat
  reduce : Nat
  count : Nat
  mismatch : Bool
  abort : Bool
  subtree : Nat
  gen : Nat
  vals : List W64
  ctx : Nat
deriving DecidableEq, Repr, Inhabited

/-- PEG_RESULT of R321. -/
structure PegResultB where
  part : Nat
  barrier : Nat
  status : Nat
  count : Nat
  rank : Nat
  gen : Nat
  vals : List W64
  ctx : Nat
deriving DecidableEq, Repr, Inhabited

/-- The memory packet of R276. -/
structure MemB where
  addr : Nat
  bytes : Nat
  tag : Nat
  host : Bool
  poison : Bool
  data : List Byte
deriving DecidableEq, Repr, Inhabited

/-- The forwarded register access of R277. -/
structure FwdB where
  kind : Nat
  fn : Nat
  queue : Nat
  off : Nat
  value : W64
deriving DecidableEq, Repr, Inhabited

/-- One segment of a forwarded Relrok message (R278). -/
structure DictSegB where
  msgId : Nat
  seg : Nat
  last : Bool
  data : List Byte
deriving DecidableEq, Repr, Inhabited

/-- The Ridge packet header of R301. `len` counts body slots. -/
structure PktHdr where
  ptype : Nat
  vc : Nat
  sub : Nat := 0
  mcast : Bool := false
  len : Nat
  dst : Nat
  src : Nat
  part : Nat := 0
  hops : Nat := 0
  dim : Nat := 0
  rt : Bool := false
  stream : Nat := 0
deriving DecidableEq, Repr, Inhabited

/-- A message body, by packet type (R275, R302). -/
inductive Msg where
  | fragReq (b : FragReqB)
  | partialV (b : PartialB)
  | contrib (b : ContribB)
  | gradAck (b : GradAckB)
  | refresh (b : RefreshB)
  | refreshAck (tag rows : Nat) (failed : Bool)
  | pegArrive (b : PegArriveB)
  | pegResult (b : PegResultB)
  | memRead (b : MemB)
  | memWrite (b : MemB)
  | memData (b : MemB)
  | memDone (b : MemB)
  | fwdWrite (b : FwdB)
  | fwdRead (b : FwdB)
  | fwdData (b : FwdB)
  | fwdReport (token : Nat)
  | dict (b : DictSegB)
  | echo (n : Nat)
  | echoReply (n : Nat)
  | unreach (h : PktHdr) (cause : Nat) (body : List Byte)
deriving DecidableEq, Repr, Inhabited

/-- How a packet came to this die. -/
inductive Via where
  | local
  | d2d (p : Nat)
  | ridge (sp : Nat)
deriving DecidableEq, Repr, Inhabited

/-- A packet in the port sack (R387): its message, where it came from, and its class (R301). -/
structure Rx where
  msg : Msg
  chip : Nat
  die : Nat
  via : Via
  rt : Bool
  stream : Nat
  part : Nat
  group : Nat := 0
  units : Nat := 0
  vc : Nat := 0
  sub : Nat := 0
  /-- Its Ridge header, when it came by the Ridge. -/
  hdr : Option PktHdr := none
deriving DecidableEq, Repr, Inhabited

/-- A Ridge packet: header and body bytes (R301). `port` names the sub-port of a multicast copy (R318). -/
structure RPkt where
  h : PktHdr
  body : List Byte
  via : Via := .local
  port : Option Nat := none
deriving DecidableEq, Repr, Inhabited

/-- A die-to-die packet (R274), and the Ridge packet it carries when it came from the Ridge (R302). -/
structure DPkt where
  ptype : Nat
  vc : Nat
  body : List Byte
  /-- Its class at the arbiters: a stream, or 8 for batch (R38). -/
  prio : Nat := 8
  orig : Option RPkt := none
deriving DecidableEq, Repr, Inhabited

/-- A flit in a replay buffer: its sequence number, FIRST_SLOT and 240 bytes of slots. -/
structure FlitR where
  seq : Nat
  first : Nat
  slots : List Byte
  ecc : Nat := 0
deriving DecidableEq, Repr, Inhabited

/-- The request by which the block reads or writes host memory: CXL.io with No Snoop for a DEVICE_OWNED granule, CXL.cache for a
SHARED one (R246), unordered I/O to a peer's memory (R250). -/
inductive HostReq where
  | ioRead | ioWrite | rdCurr | itoMWr | wrCur
  | uioRead (noSnoop : Bool)
  | uioWrite (noSnoop : Bool)
deriving DecidableEq, Repr, Inhabited

/-- What the block has put on its ports, other than levels on pins. -/
inductive Out where
  | d2dFlit (p : Nat) (bytes : List Byte)
  | sideband (p : Nat) (word : W64)
  | ridgeFlit (sp : Nat) (bytes : List Byte)
  | hostCpl (data : List PByte)
  | snoopRspIHitI (addr : Nat)
  | biSnpInv (line : Nat)
  | regData (v : W64)
  | mctpControl (bi : Binding) (bytes : List Byte)
  | mctpMessage (bi : Binding) (eid : Nat) (bytes : List Byte)
  | i3cData (bytes : List Byte)
  | i3cNack
  /-- A request of `n` bytes at the host port (R246, R250). -/
  | hostReq (k : HostReq) (addr n : Nat)
deriving DecidableEq, Repr, Inhabited

/-! ### The front end -/

/-- The queue states of R27. -/
inductive QState where
  | unbound | stopped | running | stalledEarly | detached | draining | bindErr
deriving DecidableEq, Repr, Inhabited

/-- The status codes of R40. -/
inductive Status where
  | ok | okDrops | late | cancelled | hostLost | disabled | singular | overrange | unsupported | malformed
  | d2dDown | unreachable | tableBusy | stalledEarly
deriving DecidableEq, Repr, Inhabited

/-- A fetch in flight (R35, R43): its first slot as a free-running count, its length, and whether it is a re-poll. -/
structure Burst where
  first : Nat
  n : Nat
  repoll : Bool
deriving DecidableEq, Repr, Inhabited

/-- The early-doorbell count of R43: t0, and the re-polls issued. -/
structure Poll where
  t0 : Nat
  k : Nat
deriving DecidableEq, Repr, Inhabited

/-- A cancelled range whose marker is not yet written (R44 to R48). Slots are free-running counts. -/
structure CancelRange where
  skipFrom : Nat
  skipTo : Nat
  skipped : Nat
  reached : Bool
  members : List Nat
  epoch : Nat
  fixedAt : Nat
  dropped : Nat
  /-- The CANCEL descriptor that made it, which completes after the marker (R47). -/
  byDesc : Option Nat
deriving DecidableEq, Repr, Inhabited

/-- A record that waits for room in the completion ring (R42): a completed descriptor, or a queue event. -/
inductive RecItem where
  | desc (id : Nat)
  /-- `by_`: the CANCEL that completes once this marker is written (R47). -/
  | event (status : Status) (dropped aux since : Nat) (by_ : Option Nat)
deriving DecidableEq, Repr, Inhabited

/-- A rearm entry that waits for its descriptor (R59). -/
structure Patch where
  replay : Nat
  slot : Nat
  word : Nat
  value : W64
deriving DecidableEq, Repr, Inhabited

/-- QCFG at reset (R27): RING_LOG2 6, CQ_LOG2 6, STREAM 0xFF, WEIGHT 1. -/
def qcfgReset : W64 := 0x01000000ff000606#64

/-- A stride detector (R236): the line read last, the stride, and how many reads in a row it has held. -/
structure Detector where
  last : Nat := 0
  stride : Int := 0
  seen : Nat := 0
deriving DecidableEq, Repr, Inhabited

/-- One queue and its doorbell page (R26, R27). The counts are kept unwrapped; the registers show them modulo 2^32. In a
persistent queue `fetch` counts list slots over all replays, and `tail` replays requested (R58). -/
structure Queue where
  st : QState := .unbound
  cfg : W64 := qcfgReset
  ringBase : W64 := 0
  cqBase : W64 := 0
  cqTailAddr : W64 := 0
  cqHead : W64 := 0
  tail : Nat := 0
  fetch : Nat := 0
  epoch : Nat := 0
  /-- A STOP that has acted (R407). -/
  stopping : Bool := false
  burst : Option Burst := none
  /-- A descriptor reaches TAIL: fetch waits for a doorbell (R33). -/
  short : Bool := false
  poll : Option Poll := none
  /-- Records written, and the count last put in the tail word (R41). -/
  written : Nat := 0
  reported : Nat := 0
  tailSince : Nat := 0
  recq : List RecItem := []
  cancels : List CancelRange := []
  patches : List Patch := []
  /-- The replay whose REARM failed (R60), and the slot after which its descriptors are MALFORMED. -/
  rearmFail : Option (Nat × Nat) := none
  /-- The queue re-attaches to STOPPED once its work completes (R263). -/
  reattach : Bool := false
  discarded : Nat := 0
  /-- The stride detector of its descriptor fetch (R236). -/
  det : Detector := {}
deriving DecidableEq, Repr, Inhabited

/-- A captured table (R17): its ID, the 256 bytes of its descriptor, and the captured slot. -/
structure Captured where
  table : Nat
  bytes : List Byte
  slot : Nat
  chipset0 : Nat := 0
  /-- The descriptor, or the chip-set entry, came poisoned: each unit that needs the table fails (R389, R395). -/
  bad : Bool := false
deriving DecidableEq, Repr, Inhabited

/-- A participant's wait for a barrier (R51, R173). -/
structure BarWait where
  barrier : Nat
  gen : Nat
  reduce : Nat
  count : Nat
  /-- The arrival has been sent, at this CK_CORE count (R351). -/
  sentAt : Option Nat
  /-- The status of a participant whose own arrival carried ABORT (R53). -/
  own : Option Status
  /-- The instance has completed here, and DST is still to be written: status, rank, values. -/
  result : Option (Nat × Nat × List W64) := none
deriving DecidableEq, Repr, Inhabited

/-- The running state of a LOOKUP, LATTICE, ARRAY_RUN or INTERACT (R87, R111, R127, R131): captured tables; for LOOKUP the
segments (captured table, first bag, bags) and bag lengths; for LATTICE the level entries; the decoder record. -/
structure UnitsRun where
  tabs : List Captured := []
  segs : List (Nat × Nat × Nat) := []
  lens : List Nat := []
  levels : List (List Byte) := []
  decoder : List Byte := []
  total : Nat := 0
  finished : Nat := 0
  /-- No further unit may commit (R46, R56). -/
  stopped : Bool := false
  /-- Units whose valid bits have been set (R106). -/
  valid : List Nat := []
deriving DecidableEq, Repr, Inhabited

/-- The running state of a SCATTER (R145 to R169). -/
structure ScatterRun where
  run : UnitsRun := {}
  forward : List Byte := []
  /-- Pitches that have not yet flushed this SCATTER. -/
  open_ : List Nat := []
  /-- Messages sent, and acknowledged or lost. -/
  msgs : Nat := 0
  acked : Nat := 0
  /-- Messages sent to each home and not yet acknowledged: pitch, chip, die, count. -/
  out : List (Nat × Nat × Nat × Nat) := []
  occ : Nat := 0
  dropIndex : Nat := 0
  dropNan : Nat := 0
  dropFrozen : Nat := 0
  saturated : Nat := 0
deriving DecidableEq, Repr, Inhabited

/-- A touched row in STEP (R177): die-local row, exact sums, occurrences, the address of its bucket, whether its freeze check
skipped it (R178) and whether its sums are poisoned (R389). -/
structure StepRow where
  lrow : Nat
  x : List Int
  sat : Bool
  occ : Nat
  bucket : Option Nat
  frozen : Bool
  poisoned : Bool
deriving DecidableEq, Repr, Inhabited

/-- What the arena and the log of a table give a STEP: rows' parts, poisoned bucket headers, the log's blocks, and the counts of
R180. -/
structure Gather where
  parts : List StepRow := []
  bad : List Nat := []
  chain : List Nat := []
  used : Nat := 0
  recs : Nat := 0
  logBytes : Nat := 0
deriving DecidableEq, Repr, Inhabited

/-- Where a STEP stands: waiting (R174), closing accumulation (R176), in phase one, at its barrier, in phase two, or waiting
for the acknowledgements of its refreshes (R198). -/
inductive StepPhase where
  | wait | ready1 | one | barrier | two | refresh
deriving DecidableEq, Repr, Inhabited

/-- The running state of a STEP (R171 to R201). -/
structure StepRun where
  cap : Captured
  phase : StepPhase := .wait
  coef : List Byte := []
  /-- This chip's place in the chip set (R189). -/
  pos : Nat := 0
  /-- How much of what phase one reads once has been read: the descriptor's late fields, the coefficient table, the chip set (R67,
  R183); the next bucket, the log's block that is next and whether it is still in use, and what they have given so far (R220). -/
  got : Nat := 0
  scan : Nat := 0
  logAt : Option (Nat × Bool) := none
  gather : Gather := {}
  /-- Rows that the phase at hand has not reached, and rows that phase one has. -/
  todo : List StepRow := []
  rows : List StepRow := []
  /-- Buckets whose header is poisoned, and the headers of the log's blocks. -/
  bad : List Nat := []
  chain : List Nat := []
  touched : Nat := 0
  /-- Phase one is complete, with an abort vote or without. -/
  begun : Bool := false
  abort : Bool := false
  /-- What phase one found (R179, R181). -/
  cm : List W32 := []
  gm : List W32 := []
  s0 : W64 := 0
  n : Nat := 0
  occ : Nat := 0
  overIn : Bool := false
  frozen : Nat := 0
  occFrozen : Nat := 0
  /-- What the barrier gave (R182), where it completed. -/
  global : Option (W64 × W64) := none
  /-- Phase two has begun; how far its once-per-STEP part is (R185). -/
  ran : Bool := false
  prog : Nat := 0
  sigma : W32 := 0
  scale : W32 := 0
  col : List W32 := []
  /-- The factor in use; `pcBad` says that the preconditioner's header could not be read. -/
  lmat : Option (List W32) := none
  pcBad : Bool := false
  updated : Nat := 0
  occUpdated : Nat := 0
  reqSat : Bool := false
  nonfin : Bool := false
  noFactor : Bool := false
  refreshed : Nat := 0
deriving DecidableEq, Repr, Inhabited

/-- The running state of a REFRESH (R199). -/
structure RefreshRun where
  cap : Captured
  pos : Nat := 0
  /-- Rows not yet looked at: places of the list, or buckets of the directory. -/
  next : Nat := 0
  sent : Nat := 0
  skipped : Nat := 0
  done : Bool := false
deriving DecidableEq, Repr, Inhabited

/-- The running state of a COPY (R253 to R258). -/
structure CopyRun where
  inbound : Bool
  engine : Nat
  tiles : Nat
  next : Nat := 0
  /-- Tiles committed: a failed tile is skipped (R395). -/
  committed : Nat := 0
  /-- Bytes of a tile that has been written and is not yet visible (R41, R223). -/
  writing : Option Nat := none
  stopped : Bool := false
deriving DecidableEq, Repr, Inhabited

/-- The running state of a BIAS_FLIP (R248). -/
structure BiasRun where
  next : Nat := 0
  changed : Nat := 0
  skipped : Nat := 0
  stopped : Bool := false
  waiting : Bool := false
deriving DecidableEq, Repr, Inhabited

/-- What a descriptor's operator is doing. -/
inductive Work where
  | none
  /-- PEG_LOCAL WAIT_GE (R50). -/
  | pegWait
  | peg (w : BarWait)
  /-- KINDLE: the CK_CORE count at which its lead ends (R61). -/
  | kindle (leadEnd : Nat)
  | units (r : UnitsRun)
  | scatter (r : ScatterRun)
  | step (r : StepRun) (w : Option BarWait)
  | refresh (r : RefreshRun)
  | swap (cap : Captured) (old : Nat)
  | copy (r : CopyRun)
  | bias (r : BiasRun)
  /-- CANCEL, which completes after its marker (R47). -/
  | cancel
deriving DecidableEq, Repr, Inhabited

/-- The states a descriptor passes through (Fetch, run-ahead and dispatch; R36, R46). `handed`: in its unit's stuff sack;
`running`: its unit has taken it; `complete`: its record waits. -/
inductive Stage where
  | fetched | held | handed | running | complete
deriving DecidableEq, Repr, Inhabited

/-- A descriptor in flight: the front end's copy of it (R30) and what has become of it. -/
structure Desc where
  id : Nat
  q : Nat
  /-- Slot of the ring or list at which it begins, and the free-running count of that slot. -/
  slot : Nat
  pos : Nat
  /-- Slots it consumes. -/
  slots : Nat
  replay : Nat
  bytes : List Byte
  stage : Stage := .fetched
  /-- It has made its first write (R46). -/
  started : Bool := false
  /-- The rules of R34 that need no memory have failed. -/
  bad : Bool := false
  patched : Bool := false
  /-- It was dispatched while a STEP on its table was in progress on the block (R174). -/
  stepBusy : Bool := false
  checkedAt : Nat := 0
  /-- The period it is tagged with (R55), or the undispatched PERIOD whose period it will take. -/
  period : Option Nat := none
  behind : Option Nat := none
  /-- Every status that applies (R40). -/
  statuses : List Status := []
  dropped : Nat := 0
  aux : Nat := 0
  /-- Its peg increments have been made (R41). -/
  pegged : Bool := false
  /-- What was read before dispatch (R89, R146). -/
  pre : UnitsRun := {}
  forward : List Byte := []
  work : Work := .none
  /-- Statistics record to write before the completion record (R168, R201): address and bytes. -/
  stats : Option (Nat × List Byte) := none
deriving DecidableEq, Repr, Inhabited

/-- A real-time stream (R54 to R57). Counts are CK_CORE. -/
structure Stream where
  open_ : Bool := false
  num : Nat := 0
  openedAt : Nat := 0
  deadlineAt : Option Nat := none
  passed : Bool := false
  auto : Option (Nat × Nat) := none
  readyAt : Nat := 0
deriving DecidableEq, Repr, Inhabited

/-- A KINDLE's share of the heavy-phase request (R61, R348): its class bits and its end. -/
structure Heavy where
  cls : Nat
  fin : Nat
deriving DecidableEq, Repr, Inhabited

structure Front where
  queues : Tbl Queue := []
  /-- On the lead die: the die that serves each queue, when it is another. -/
  queueDie : Tbl Nat := []
  descs : List Desc := []
  nextId : Nat := 1
  /-- Peg counter n of context c is at 64 c + n (R49). -/
  pegs : Tbl W64 := []
  streams : Tbl Stream := []
  heavy : List Heavy := []
  /-- Batch arbitration: dispatches each queue has had in the current round (R38). -/
  credit : Tbl Nat := []
  /-- The generation of each barrier that completed last at this block, at 16 × context + barrier (R51). -/
  barDone : Tbl Nat := []
deriving DecidableEq, Repr, Inhabited

/-! ### Translation -/

/-- A unit of work that can park (R220). -/
inductive UnitRef where
  | fetch (q : Nat)
  | compl (q : Nat)
  | desc (id : Nat)
  | unit (uid : Nat)
  | frag (fid : Nat)
  | msg (mid : Nat)
  | log (ctx table : Nat)
  | refresh (tag : Nat)
  /-- The fill of a metadata-cache line of a pitch (R229). -/
  | mdc (p : Nat)
  /-- An HDM access of the host that another die of the chip serves. -/
  | hostAcc (n : Nat)
  /-- A record that the block writes of its own: a fault or detach record, a tail, an acknowledgement. -/
  | block
deriving DecidableEq, Repr, Inhabited

/-- Who makes an access (R213's engines, and the host). -/
inductive Rq where
  | front
  | pitch (p : Nat)
  | copyIn (e : Nat)
  | copyOut (e : Nat)
  | slice (n : Nat)
deriving DecidableEq, Repr, Inhabited

/-- A fault record in the staging sack (R213 to R215). -/
structure FaultRec where
  ctx : Nat
  cause : Nat
  access : Nat
  seg : Nat
  gran : Nat
  mask : Nat
  count : Nat
  first : Nat
  entered : Nat
  held : Bool := false
deriving DecidableEq, Repr, Inhabited

/-- A key of the outstanding-fault table (R214). -/
structure FaultKey where
  ctx : Nat
  cause : Nat
  seg : Nat
  gran : Nat
  mask : Nat
deriving DecidableEq, Repr, Inhabited

/-- A parked unit and one access that parked it; a unit has one entry for each (R218, R220). -/
structure Parked where
  unit : UnitRef
  ctx : Nat
  rq : Rq
  va : Nat
  len : Nat
  write : Bool
  cause : Nat
  /-- CK_HALF count at which it parked. -/
  since : Nat := 0
  /-- A RESUME whose recheck of this access waits for memory, and its ABORT bit (R218). -/
  again : Option Bool := none
deriving DecidableEq, Repr, Inhabited

/-- A remote or back-invalidating read that a unit waits for, and its answer. -/
structure RRead where
  unit : UnitRef
  tag : Nat
  addr : Nat
  host : Bool
  n : Nat
  chip : Nat
  die : Nat
  got : List PByte := []
  fail : Option Status := none
deriving DecidableEq, Repr, Inhabited

/-- A remote write whose completion has not returned. -/
structure RWrite where
  unit : UnitRef
  tag : Nat
  chip : Nat
  die : Nat
  addr : Nat := 0
deriving DecidableEq, Repr, Inhabited

/-- An access that has translated and has not finished (R227): a write at the port, a read or a write on its way to another die or
chip, the fill of a line of a pitch's cache, a store that lies dirty there, a host write that is held. -/
inductive Acc where
  | port (tag : Nat)
  | far (tag : Nat)
  | fill (pitch key : Nat)
  | line (pitch key : Nat)
  | host (no : Nat)
deriving DecidableEq, Repr, Inhabited

/-- An invalidation accepted and not yet complete (R226, R227). -/
structure Inval where
  fn : Nat
  word : W64
  /-- Accesses of this die that were under way when it was accepted. -/
  mine : List Acc
  /-- Dies that have not reported. -/
  waiting : List Nat
deriving DecidableEq, Repr, Inhabited

/-- A line of one of the caches of R228 and R234. -/
structure Line where
  addr : Nat
  data : List PByte
  dirty : Bool
  ctx : Nat
  /-- An injected error that waits to be found: 1 single-bit, 2 double-bit (R381). -/
  ecc : Nat := 0
  /-- The bytes that a dirty line holds of stores, as a bit each: only they are written back (R106, R231). -/
  mask : Nat := 2 ^ 128 - 1
deriving DecidableEq, Repr, Inhabited

/-- A cache: its entries, the round-robin pointer of R234, the replacement LFSR of R230, its outstanding misses, and
whether an invalidation has completed since it was last disabled (R235). -/
structure Cache where
  lines : Tbl Line := []
  rr : Nat := 0
  lfsr : Nat := 0xACE1
  /-- Line, context, and whether its host granule is SHARED. -/
  misses : List (Nat × Nat × Bool) := []
  fresh : Bool := false
deriving DecidableEq, Repr, Inhabited

/-- A line offered on the hint port (R233, R403). -/
structure Hint where
  addr : Nat
  dirty : Bool
  data : List PByte
  mask : Nat := 2 ^ 128 - 1
deriving DecidableEq, Repr, Inhabited

structure Xlat where
  staging : List FaultRec := []
  outstanding : List FaultKey := []
  /-- Records written to the ring of each context, and lost (R216). -/
  written : Tbl Nat := []
  lost : Tbl Nat := []
  /-- FAULT_HEAD of this die, by context. -/
  head : Tbl Nat := []
  /-- INV_ACK_ADDR, last TOKEN and completions of each function's page (R211, R242). -/
  ackAddr : Tbl W64 := []
  token : Tbl Nat := []
  done : Tbl Nat := []
  invals : List Inval := []
  parked : List Parked := []
  /-- The parts of a parked tile that translated, already read (R221): unit, address, bytes. -/
  held : List (UnitRef × Nat × List PByte) := []
  rreads : List RRead := []
  rwrites : List RWrite := []
  nextTag : Nat := 0
  /-- Caches of the front end and of the fault unit (R234). -/
  desc : Cache := {}
  fault : Cache := {}
  hints : List Hint := []
  /-- CK_CORE count at which XLAT_CYCLES was zero. -/
  base : Nat := 0
  /-- Invalidations on this die that still have to be reported to the lead die: its die, token, and the accesses that were
  under way. -/
  reports : List (Nat × Nat × List Acc) := []
deriving DecidableEq, Repr, Inhabited

/-! ### The pitches -/

/-- A unit of work of an operator: a bag, a group of points, an array block, a sample, or a SCATTER unit. -/
inductive UKind where
  | bag | group | block | sample | scatter
deriving DecidableEq, Repr, Inhabited

inductive UStage where
  | input | work | combine | pass | write | done
deriving DecidableEq, Repr, Inhabited

structure Unit where
  uid : Nat
  op : Nat
  kind : UKind
  no : Nat
  pitch : Nat
  stage : UStage := .input
  /-- Input still to be fetched (address, bytes), in stream order, and input committed (R221). -/
  need : List (Nat × Nat) := []
  have_ : List (Nat × List PByte) := []
  /-- Progress: next index of a bag, next (point, level) of a group, next pass of a block, sample or decoder. -/
  next : Nat := 0
  /-- Valid indices of a bag. -/
  nValid : Nat := 0
  /-- Points dropped of a group; outputs saturated of a block. -/
  drops : List Nat := []
  /-- Features blended so far by (point, level), then a decoder's activations by point. -/
  cells : List (Nat × List W32) := []
  /-- A block's or sample's accumulators. -/
  acc : List W32 := []
  sat : Bool := false
  opened : Bool := false
  out : List (Nat × List Byte) := []
  /-- Lines of its output that lie dirty in its pitch's metadata cache (R231), pieces of its output stored so far, and its
  streaming detector: the last whole line stored, and the run of them. -/
  dirty : List Nat := []
  stored : Nat := 0
  runLine : Nat := 0
  run : Nat := 0
deriving DecidableEq, Repr, Inhabited

/-- A fragment of a bag that has been sent or is being served, until it is answered (R92, R102). -/
structure FragOut where
  chip : Nat
  die : Nat
  frag : Nat
  vals : Option (List W32) := none
deriving DecidableEq, Repr, Inhabited

/-- Where a row in service is read: the table's shard, a replica, a COPY region or a grid buffer level (R79, R117). -/
inductive RowSrc where
  | shard
  | replica
  | copy
  | grid
deriving DecidableEq, Repr, Inhabited

/-- One row of a fragment: for a row that another block serves, only the row and its weight matter. -/
structure FragRow where
  row : Nat
  va : Nat
  src : RowSrc
  w : W32
deriving DecidableEq, Repr, Inhabited

/-- The rows of a bag bound for one home and not yet sent (R92). -/
structure Part where
  chip : Nat
  die : Nat
  nextFrag : Nat
  rows : List FragRow
deriving DecidableEq, Repr, Inhabited

/-- One bag being gathered: a LOOKUP bag, or the corners of one (point, level) of a LATTICE (R117). -/
structure Bag where
  tag : Nat
  op : Nat
  unit : Nat
  cell : Nat
  pitch : Nat
  q : Nat
  tab : Nat
  parts : List Part := []
  frags : List FragOut := []
  parsed : Bool := false
  /-- Fragments that wait for the limits of R95: home chip and die, number, rows. -/
  unsent : List (Nat × Nat × Nat × List FragRow) := []
deriving DecidableEq, Repr, Inhabited

/-- A fragment whose bag is gone: its partial is discarded and counted when it comes (R110). -/
structure Orphan where
  tag : Nat
  chip : Nat
  die : Nat
  frag : Nat
  q : Nat
deriving DecidableEq, Repr, Inhabited

/-- A fragment that a pitch serves: for its own bag, or for a requester (R96). -/
structure Frag where
  fid : Nat
  pitch : Nat
  ctx : Nat
  table : Nat
  slot : Nat
  fmt : Nat
  dim : Nat
  bf16 : Bool
  rows : List FragRow
  /-- Rows pooled so far, the accumulators and the offset sum of R100. -/
  next : Nat := 0
  acc : List W32
  off : W32 := 0
  /-- The request it answers and its partition, or none for the bag of `tag`. -/
  req : Option (FragReqB × Nat) := none
  /-- The home has read its descriptor and resolved the rows (R96). -/
  resolved : Bool := true
  tag : Nat
  frag : Nat
  q : Nat := 0
  rt : Bool := false
  stream : Nat := 0
  /-- It serves a LATTICE of this die (R110, R141). -/
  corner : Bool := false
deriving DecidableEq, Repr, Inhabited

/-- An entry of the dedup window and its rows in the reuse buffer (R98). -/
structure WinEnt where
  ctx : Nat
  table : Nat
  slot : Nat
  row : Nat
  /-- The address of a row of a COPY region, whose key is kept apart from the table's own (R117). -/
  copy : Option Nat := none
  data : List PByte
  ents : Nat
deriving DecidableEq, Repr, Inhabited

/-- A level held in a grid buffer (R121). -/
structure GridLevel where
  ctx : Nat
  table : Nat
  slot : Nat
  va : Nat
  data : List PByte
  ecc : Nat := 0
deriving DecidableEq, Repr, Inhabited

/-- A combiner entry (R151). -/
structure CombEnt where
  set : Nat
  way : Nat
  op : Nat
  table : Nat
  row : Nat
  chunk : Nat
  elems : List Int
  occ : Nat
  sat : Bool
  used : Nat
  /-- The row's home, resolved when the entry was made. -/
  chip : Nat
  die : Nat
  ecc : Nat := 0
deriving DecidableEq, Repr, Inhabited

/-- A stationary panel: operator, unit and pass, or a decoder (R124, R134). -/
structure PanelKey where
  op : Nat
  unit : Nat
  pass : Nat
deriving DecidableEq, Repr, Inhabited

/-- The ramp of R341. -/
inductive Ramp where
  | quarter | half | full
deriving DecidableEq, Repr, Inhabited

/-- A pitch's array (R123, R124, R341). -/
structure ArraySt where
  active : Option (PanelKey × List W32) := none
  shadow : Option (PanelKey × List W32) := none
  filling : Option PanelKey := none
  fillAsked : Nat := 0
  decoder : Option Nat := none
  ramp : Ramp := .full
  rampAt : Nat := 0
  startAt : Option Nat := none
  lastPass : Nat := 0
deriving DecidableEq, Repr, Inhabited

structure Pitch where
  units : List Nat := []
  /-- The stride detectors of its index, weight and coordinate readers, by 0, 1 and 2, and the lines that they have brought in:
  operator, address, bytes (R236). -/
  det : Tbl Detector := []
  ahead : List (Nat × Nat × List PByte) := []
  window : List WinEnt := []
  grid : List GridLevel := []
  comb : List CombEnt := []
  combUse : Nat := 0
  sketch : Tbl Nat := []
  mdc : Cache := {}
  arr : ArraySt := {}
  unacked : Nat := 0
  /-- Batch arbitration (R38): what each queue has had in the current round of an arbiter, at 256 × arbiter + queue; 0 index parser,
  1 lattice unit, 2 array, 3 combiner. -/
  share : Tbl Nat := []
deriving DecidableEq, Repr, Inhabited

/-! ### The groundsheet slices -/

/-- A contribution at its owner slice, with its die-local row (R156). -/
structure SMsg where
  mid : Nat
  b : ContribB
  lrow : Nat
  usable : Bool := true
  /-- It came after the table's STEP began, and waits for its end (R176). -/
  late : Bool := false
  rt : Bool := false
  stream : Nat := 0
deriving DecidableEq, Repr, Inhabited

/-- An entry of a VISIT run buffer (R164). -/
structure RunEnt where
  ctx : Nat
  table : Nat
  lrow : Nat
  chunk : Nat
  elems : List Int
  occ : Nat
  sat : Bool
  since : Nat
  /-- The table's first log block, and its size. -/
  base : Nat
  bytes : Nat
deriving DecidableEq, Repr, Inhabited

/-- Messages not yet acknowledged to one requester (R166). -/
structure AckAcc where
  chip : Nat
  die : Nat
  pitch : Nat
  tag : Nat
  status : Nat
  ctx : Nat
  /-- The tables that the messages named, with their version slots. -/
  tables : List (Nat × Nat)
  msgs : Nat
  occFrozen : Nat
  since : Nat
  rt : Bool := false
  stream : Nat := 0
deriving DecidableEq, Repr, Inhabited

/-- A slice: messages on arrival, among them those that its park buffer holds (R163, R220); its run buffer; its
acknowledgements to come. -/
structure Slice where
  inbox : List SMsg := []
  run : List RunEnt := []
  acks : List AckAcc := []
deriving DecidableEq, Repr, Inhabited

/-- A record for an overflow log, waiting at slice 0 (R162); `msg` is the message that it acknowledges. -/
structure LogRec where
  ctx : Nat
  table : Nat
  lrow : Nat
  chunk : Nat
  occ : Nat
  sat : Bool
  elems : List Int
  msg : Option SMsg
  mode : Nat
  slice : Nat
  /-- The table's first log block, and its size. -/
  base : Nat
  bytes : Nat
deriving DecidableEq, Repr, Inhabited

/-- A table's overflow log on the die: its current block and whether it is full (R163). -/
structure LogSt where
  block : Nat := 0
  size : Nat := 0
  full : Bool := false
deriving DecidableEq, Repr, Inhabited

structure Ground where
  slices : Tbl Slice := []
  logq : List LogRec := []
  /-- By 4096 × context + table. -/
  logs : Tbl LogSt := []
  /-- Sticky OVERRANGE bits (R167), by 4096 × context + table. -/
  sticky : Tbl Bool := []
  nextMid : Nat := 1
  /-- Writes handed to the groundsheet ports whose GS_WDONE has not returned (R401): tag, offset, bytes, unit. -/
  writes : List (Nat × Nat × List PByte × UnitRef) := []
  /-- The descriptor buffers of the slices, and of the dispatcher as number 64 (R156, R157): buffer, context, table, descriptor. -/
  dbuf : List (Nat × Nat × Nat × List PByte) := []
deriving DecidableEq, Repr, Inhabited

/-! ### Barriers -/

/-- One arrival held at a node (R322): who sent it and what it carried. -/
structure Arrival where
  /-- A die of this chip, or a child chip. -/
  child : Bool
  who : Nat
  subtree : Nat
  reduce : Nat
  count : Nat
  mismatch : Bool
  abort : Bool
  vals : List W64
deriving DecidableEq, Repr, Inhabited

/-- An active barrier instance at the chip's combining die (R271, R322, R325). -/
structure Node where
  ctx : Nat
  slot : Option Nat
  part : Nat
  barrier : Nat
  gen : Nat
  /-- In order of arrival. -/
  arrivals : List Arrival := []
deriving DecidableEq, Repr, Inhabited

/-- The last generation a node abandoned (R324): slot, barrier, generation, status. -/
structure Abandoned where
  ctx : Nat
  barrier : Nat
  gen : Nat
  status : Nat
deriving DecidableEq, Repr, Inhabited

/-! ### Die-to-die links -/

inductive LinkState where
  | absent | training | up | down
deriving DecidableEq, Repr, Inhabited

/-- What the peer's CAP flit said (R286). -/
structure CapB where
  major : Nat
  minor : Nat
  die : Nat
  lead : Bool
  chip : Nat
  features : Nat
  chipFeatures : Nat
  credits : List Nat
  rxNext : Nat
  rxValid : Bool
  revision : Nat
deriving DecidableEq, Repr, Inhabited

structure Link where
  state : LinkState := .absent
  halves : Nat := 0
  cause : Nat := 0
  proto : Nat := 0
  peerRev : Nat := 0
  attempts : Nat := 0
  peerLead : Bool := false
  /-- Training (R285). -/
  keep : Bool := true
  vector : Nat := 0
  mine : Option Nat := none
  theirs : Option Nat := none
  began : Nat := 0
  proposed : Bool := false
  capSent : Bool := false
  capGot : Option CapB := none
  /-- Link layer (R280, R281). -/
  txSeq : Nat := 0
  replay : List FlitR := []
  rxNext : Nat := 0
  rxBuf : List Byte := []
  rxStart : Nat := 0
  rxValid : Bool := false
  credits : List Nat := []
  wait : List DPkt := []
  /-- Packets with a flit in the replay buffer, with the number of their last flit. -/
  inFlight : List (Nat × DPkt) := []
  nakSeq : Nat := 4096
  nakCount : Nat := 0
  nakRetrained : Bool := false
  /-- A NAK has gone out for the flit that is expected; the slot at which the packet under assembly begins; slots of the next
  flit whose packets were delivered before a replay. -/
  nakOut : Bool := false
  rxSlot : Nat := 0
  rxSkip : Nat := 0
  /-- The contexts that have a D2D_HELD_DOWN record of their own since the link has been held DOWN (R394). -/
  told : List Nat := []
  /-- Credits of buffers freed while the link was not UP, which go back once it is (R280): channel and units. -/
  owed : List (Nat × Nat) := []
deriving DecidableEq, Repr, Inhabited

/-- A memory request from another chip that this die passed to another die of its own: the tag it gave it, the packet as it
came, and bytes still to be answered (R302). -/
structure Proxy where
  tag : Nat
  die : Nat
  orig : RPkt
  left : Nat
deriving DecidableEq, Repr, Inhabited

structure D2d where
  links : Tbl Link := []
  /-- Halves found failed, at 2 × module port + half (R284). -/
  bad : Tbl Bool := []
  features : Nat := 0x3F
  /-- Reassembly of forwarded Relrok messages, by sending die: MSG_ID, next SEG, bytes. -/
  asm : Tbl (Nat × Nat × List Byte) := []
  nextMsg : Nat := 0
  /-- Forwarded register reads that wait for an answer: die. -/
  reads : List Nat := []
  /-- QCFG writes that wait until the die that serves the queue says that it is idle (R27): die, function, queue, value. -/
  moves : List (Nat × Nat × Nat × W64) := []
  proxies : List Proxy := []
deriving DecidableEq, Repr, Inhabited

/-! ### The Ridge -/

inductive PortState where
  | disabled | training | up | down
deriving DecidableEq, Repr, Inhabited

/-- Steps of R297. -/
inductive NegStep where
  | lock | ability | train | last
deriving DecidableEq, Repr, Inhabited

/-- The ability message of R297. -/
structure NegB where
  revision : Nat
  maxRate : Nat
  fec : Nat
  split : Bool
  halves : Nat
  subport : Nat
  chip : Nat
  die : Nat
  credits : List Nat
  rxNext : Nat
  rxValid : Bool
deriving DecidableEq, Repr, Inhabited

structure SubPort where
  state : PortState := .disabled
  step : NegStep := .lock
  rate : Nat := 0
  width8 : Bool := false
  fec272 : Bool := false
  halves : Nat := 0
  revision : Nat := 0
  cause : Nat := 0
  chip : Nat := 0
  die : Nat := 0
  badLo : Bool := false
  badHi : Bool := false
  /-- The partner's ability message of this negotiation. -/
  peer : Option NegB := none
  /-- A NEG flit that came before the step that uses it (R297; DEDUCED, log 51). -/
  early : Option NegB := none
  retraining : Bool := false
  txSeq : Nat := 0
  replay : List FlitR := []
  rxNext : Nat := 0
  rxBuf : List Byte := []
  rxStart : Nat := 0
  rxValid : Bool := false
  credits : List Nat := []
  inFlight : List (Nat × RPkt) := []
  nakSeq : Nat := 4096
  nakCount : Nat := 0
  nakOut : Bool := false
  /-- The channel of REQ, RESP, GRAD and REFRESH that the output arbiter served last (R305). -/
  turn : Nat := 3
  /-- Credits of buffers freed during a retrain, which go back after it (R280, R303): channel, sub-channel and units. -/
  owed : List (Nat × Nat × Nat) := []
deriving DecidableEq, Repr, Inhabited

/-- A partition slot (R311). -/
structure PartSlot where
  record : List Byte := []
  /-- The record that a PART_LOAD has read, until the slot's quiescent point. -/
  loaded : Option (List Byte) := none
  /-- The record was lost: its slot refuses every packet (R382). -/
  bad : Bool := false
deriving DecidableEq, Repr, Inhabited

/-- Reachability of a watched chip (R315). -/
structure Reach where
  last : Nat
  echoAt : Option Nat := none
deriving DecidableEq, Repr, Inhabited

/-- A branch of a refresh tree at this die (R319). -/
structure Branch where
  /-- 0: own refresh; 1: a hand-over to a die; 2: a downstream sub-port. -/
  kind : Nat
  no : Nat
  count : Nat
  failed : Bool
deriving DecidableEq, Repr, Inhabited

/-- A die's count of one tree's refreshes (R319). For the home's own STEP or REFRESH, `op` is its descriptor. -/
structure RefreshAgg where
  chip : Nat
  die : Nat
  tag : Nat
  via : Via
  rows : Nat
  acked : Nat
  since : Nat
  branches : List Branch
  failed : Bool
  op : Option Nat
  closed : Bool := false
  rt : Bool := false
  stream : Nat := 0
  part : Nat := 0
deriving DecidableEq, Repr, Inhabited

structure Ridge where
  ports : Tbl SubPort := []
  txq : List RPkt := []
  /-- Routing entries (R307). -/
  route : Tbl Nat := []
  loading : Option Nat := none
  mcast : Tbl Nat := []
  slots : Tbl PartSlot := []
  reach : Tbl Reach := []
  /-- Chips declared unreachable (R316), with the CK_AON count of the last ECHO. -/
  declared : Tbl Nat := []
  agg : List RefreshAgg := []
  nodes : List Node := []
  abandoned : List Abandoned := []
  nextEcho : Nat := 0
deriving DecidableEq, Repr, Inhabited

/-- A routing entry at reset (R307): every port field 0x7F. -/
def routeReset : Nat := 0x0FFFFFFF

/-! ### Host coupling -/

/-- An HDM access that waits for a bias flip, a back-invalidation or another die (R243 to R248). -/
structure HdmAcc where
  id : Nat := 0
  peer : Bool
  write : Bool
  caching : Bool
  off : Nat
  len : Nat
  data : List Byte
deriving DecidableEq, Repr, Inhabited

/-- A host-memory write held while the link is down (R259): context, address, bytes, and the unit of work that made it. -/
structure HeldWrite where
  no : Nat
  ctx : Option Nat
  addr : Nat
  data : List PByte
  unit : Option UnitRef := none
  /-- Its granule's bias was SHARED (R246). -/
  shared : Bool := false
  /-- The other die's MEM_WRITE that it was, which is answered when it is over (R276). -/
  ask : Option Rx := none
deriving DecidableEq, Repr, Inhabited

/-- A function (R240, R264). -/
structure Fn where
  /-- The trigger that disabled it, and when (CK_HALF). -/
  trigger : Option (Nat × Nat) := none
  drained : Bool := false
  graceOver : Bool := false
  busMasterOff : Bool := false
  /-- Dies of the chip that the lead die has told to disable the function's queues (R265). -/
  told : List Nat := []
deriving DecidableEq, Repr, Inhabited

structure HostSide where
  /-- HOST_STATE: 0 ATTACHED, 1 LINK_DOWN, 2 LOST. -/
  state : Nat := 0
  active : Bool := true
  downAt : Nat := 0
  /-- Host-memory writes held while the link is down (R259), and the number of the next. -/
  heldWrites : List HeldWrite := []
  nextHeld : Nat := 0
  /-- Runs of host physical addresses that the host or a switch refuses, and that are a peer's (R250): first address and
  length. They belong to the system around the block (DESIGN CHOICE, log 63). -/
  refused : List (Nat × Nat) := []
  peers : List (Nat × Nat) := []
  base : W64 := 0
  en : Bool := false
  /-- Bias of each device granule: true is DEVICE_OWNED, the reset value SHARED (R244). -/
  owned : Tbl Bool := []
  /-- The host-bias override table (R246): context, segment, granule, SHARED. -/
  override : List (Nat × Nat × Nat × Bool) := []
  /-- Lines in the snoop filter, oldest first (R245), and lines whose BISnpInv is unanswered. -/
  filter : List Nat := []
  snooping : List Nat := []
  held : List HdmAcc := []
  nextAcc : Nat := 1
  /-- The granule a BIAS_FLIP holds (R248). -/
  flipping : Option Nat := none
  logWritten : Nat := 0
  logLost : Nat := 0
  fns : Tbl Fn := []
  vfEnable : Bool := true
  trainings : Nat := 0
deriving DecidableEq, Repr, Inhabited

/-! ### Management -/

/-- A request in the sack (R366): how it came, and its body. -/
structure Req where
  bi : Binding
  eid : Nat
  /-- The die that forwarded it, on a die other than the lead. -/
  fwd : Option (Nat × Nat)
  body : List Byte
  /-- The CK_MGMT cycle in which it arrived: requests of one cycle are ordered I3C first (R366). -/
  arrived : Nat := 0
deriving DecidableEq, Repr, Inhabited

structure Mgmt where
  eidI3c : Nat := 0
  eidInBand : Nat := 0
  dynAddr : Option Nat := none
  sack : List Req := []
  /-- The head request has been forwarded: the CK_MGMT count at which it times out, its MSG_ID, and the die (R365). -/
  fwd : Option (Nat × Nat × Nat) := none
  responses : List (List Byte) := []
  /-- Values of the objects that software or the block writes, at 256 × index + subindex; an absent key holds the
  default (R368). -/
  val : Tbl Nat := []
  /-- Accepted RWC values not yet committed (R362). -/
  rwc : Tbl Nat := []
  released : Bool := true
deriving DecidableEq, Repr, Inhabited

/-! ### Errors -/

/-- The error record of R391. -/
structure ErrRec where
  cause : Nat
  ctx : Option Nat := none
  queue : Option Nat := none
  shared : Bool := false
  recovered : Bool := false
  seq : Nat := 0xFFFF
  unit : Nat
  inst : Nat := 0
  detail : Nat := 0
  aon : Nat := 0
  detail2 : Nat := 0
  die : Nat := 0
deriving DecidableEq, Repr, Inhabited

structure Errs where
  /-- The error staging sack, each record with the CK_HALF count at which it entered (R391). -/
  staging : List (ErrRec × Nat) := []
  lastCopy : Option Nat := none
  log : List ErrRec := []
  /-- Ring position and the two header counts (R392). -/
  ringWritten : Nat := 0
  ringLost : Nat := 0
  /-- The trace sack (R385): 32-byte entries. -/
  trace : List (List Byte) := []
  /-- The structures that ECC_INJECT has armed (R381): structure, error kind. -/
  inject : List (Nat × Nat) := []
  errLost : Nat := 0
  faultLost : Nat := 0
  traceLost : Nat := 0
deriving DecidableEq, Repr, Inhabited

/-! ### Lantern -/

/-- A slack record (R351). -/
structure Slack where
  gen : Nat
  barrier : Nat
  status : Nat
  rank : Nat
  participants : Nat
  wait : Nat
  aon : Nat
deriving DecidableEq, Repr, Inhabited

structure Lantern where
  /-- Counters of R378, at 256 × index + subindex. -/
  cnt : Tbl Nat := []
  /-- Increases of each energy event since the last pass (R350), at 65536 × event + context, or + queue, and by event. -/
  evCtx : Tbl Nat := []
  evQ : Tbl Nat := []
  evBlk : Tbl Nat := []
  /-- Remainders below 1 µJ, in femtojoules, and the counters. -/
  remCtx : Tbl Nat := []
  remQ : Tbl Nat := []
  remBlk : Nat := 0
  ujCtx : Tbl Nat := []
  ujQ : Tbl Nat := []
  ujBlk : Nat := 0
  lastPass : Nat := 0
  lastAon : Nat := 0
  slack : Tbl (List Slack) := []
  ewma : Tbl Nat := []
  last : Tbl Nat := []
  count : Tbl Nat := []
deriving DecidableEq, Repr, Inhabited

/-! ### Clocks, resets, power and pins -/

/-- Cycle counts since the dividers started (CK_AON: since COLD_RST_N rose). `pitch` counts the edges delivered to PITCH
and ARRAY (R10, R330). -/
structure Clocks where
  root : Nat := 0
  core : Nat := 0
  half : Nat := 0
  qtr : Nat := 0
  mgmt : Nat := 0
  aon : Nat := 0
  pitch : Nat := 0
  gs : Nat := 0
  d2d : Nat := 0
deriving DecidableEq, Repr, Inhabited

/-- Where the block stands in the sequences of R335 and R337. -/
inductive Phase where
  /-- COLD_RST_N is low. -/
  | cold
  /-- Waiting for t1. -/
  | lock
  /-- The dividers run; reset has not ended. -/
  | dividers
  /-- Reset has ended; the SRAMs are being initialised. -/
  | initialise
  | ready
  /-- A warm reset is in progress. -/
  | warm
deriving DecidableEq, Repr, Inhabited

structure Power where
  phase : Phase := .cold
  /-- CK_AON or CK_CORE count at which the current phase began. -/
  since : Nat := 0
  cause : Nat := 0
  /-- RESET_WARM: the CK_MGMT count at which its response was sent. -/
  warmAt : Option Nat := none
  /-- The trigger was WARM_RST_N, so its rise restarts the sequence. -/
  warmByPin : Bool := false
  rootLocked : Bool := false
  warmRstN : Bool := true
  droop : Bool := false
  stretching : Bool := false
  droopFell : Option Nat := none
  released : Option Nat := none
  freqReq : Bool := false
  freqAck : Bool := true
  freqHeld : Bool := false
  throttleReq : Bool := false
  throttleAck : Bool := false
  khzCore : Nat := 0
  khzAon : Nat := 0
  /-- Output enables of ALERT_N, READY, HEAVY_AHEAD, THROTTLE_ACK and SDA: asserted together (R339). -/
  oe : Bool := false
  readyPin : Bool := false
  /-- The levels that settle drives (R348, R376). -/
  alertN : Bool := true
  heavyAhead : Bool := false
deriving DecidableEq, Repr, Inhabited

/-- The block: everything but the queue of commands. -/
structure Blk where
  build : Build
  straps : Straps
  ident : Ident
  clk : Clocks := {}
  pw : Power := {}
  mem : Mem := {}
  hostMem : Mem := {}
  front : Front := {}
  xlat : Xlat := {}
  pitches : Tbl Pitch := []
  units : List Unit := []
  bags : List Bag := []
  frags : List Frag := []
  orphans : List Orphan := []
  nextUid : Nat := 1
  gs : Ground := {}
  port : List Rx := []
  d2d : D2d := {}
  ridge : Ridge := {}
  host : HostSide := {}
  mg : Mgmt := {}
  err : Errs := {}
  lan : Lantern := {}
  /-- Slots being retired by a TABLE_SWAP (R83): context, table, slot. -/
  retiring : List (Nat × Nat × Nat) := []
  /-- What the block has put on its ports, oldest first. -/
  out : List Out := []
  /-- The model's own counter of undefined occasions (Config.undefByte). -/
  stamp : Nat := 0
deriving DecidableEq, Repr, Inhabited

/-- The block and the commands that wait, first in, first out. -/
structure State where
  pending : List Instr := []
  b : Blk
deriving DecidableEq, Repr

/-- How a step can fail. -/
inductive Fault where
  /-- A command names something that no build has, such as queue 256 or a flit of 255 bytes: raised by `fire`, for every
  command. Safe: no such event exists on the hardware. -/
  | operand
deriving DecidableEq, Repr

/-- How a step can be refused. -/
inductive Refusal where
  /-- exec has no meaning for the command: raised by no arm of this model. -/
  | notModelled (mnemonic : String)
deriving DecidableEq, Repr

/-- The reference die of R20 on a chip of one die, with every strap at 0 but LEAD (DESIGN CHOICE, log 2). -/
def Build.reference : Build := { pitches := 32, nStacks := 6, memGib := 72, moduleMap := [0, 0, 0, 0], hintPresent := false }
def Straps.reference : Straps := { held := false, i3cAddr := 0, pitchLimit := 0, hostUcie := false, lead := true }
def Ident.reference : Ident := { chip := 0, die := 0, serial := 0, licensee := 0 }

/-- COLD_RST_N is low: every register at its reset value (R334). -/
def State.coldReset : State :=
  { b := { build := Build.reference, straps := Straps.reference, ident := Ident.reference } }

/-- Right after a cold reset of the reference die, as READY rises: 20,160 CK_CORE cycles after the first edge (R335), with CK_AON at its nominal
1,120. The root is locked, the soft-start trigger of the end of reset has been counted (PW_SOFT_STARTS, 0x9904) and every ramp has run, the block is RELEASED, and each port's first
sub-port has begun to negotiate (DESIGN CHOICE, log 3). -/
def State.reset : State :=
  { b := { build := Build.reference, straps := Straps.reference, ident := Ident.reference,
           clk := { root := 80640, core := 20160, half := 10080, qtr := 5040, mgmt := 1120, aon := 1120, pitch := 20160 }
           pw := { phase := .ready, rootLocked := true, freqAck := false, oe := true, readyPin := true }
           ridge := { ports := (List.range 32).map (fun p => (2 * p, { state := .training })) }
           lan := { cnt := [(256 * 0x9904, 1)], lastPass := 5024, lastAon := 1116 }
           host := { trainings := 1 }, stamp := 1 } }

end Sys2Proof.Machine
end

