-- ==== Sys2Proof/Machine/Bits.lean ====
section
/-! DEFINITION. Bytes and bit fields (R7, R8), and the three check codes of R32, R275 and R300. -/
namespace Sys2Proof.Machine

/-- The value of little-endian bytes (R7). -/
def le : List Byte → Nat
  | [] => 0
  | b :: t => b.toNat + 256 * le t

/-- The low `n` bytes of a value, little-endian. -/
def toLe : Nat → Nat → List Byte
  | 0, _ => []
  | n + 1, v => BitVec.ofNat 8 v :: toLe n (v / 256)

/-- Bits [hi:lo] of a value. -/
def bitsOf (v hi lo : Nat) : Nat := v / 2 ^ lo % 2 ^ (hi + 1 - lo)

/-- The little-endian field of `n` bytes at byte `off`. -/
def field (l : List Byte) (off n : Nat) : Nat := le ((l.drop off).take n)

/-- The byte at `off`, 0 beyond the end. -/
def byteAt (l : List Byte) (off : Nat) : Nat := (l.getD off 0).toNat

/-- Bytes `off` to `off + n - 1` are all zero (a reserved field, R8). -/
def zeroAt (l : List Byte) (off n : Nat) : Bool := ((l.drop off).take n).all (· == 0)

/-- Two's complement of width `w`, read as an integer. -/
def signedOf (w v : Nat) : Int :=
  let u := v % 2 ^ w
  if u < 2 ^ (w - 1) then u else (u : Int) - 2 ^ w

/-- An integer as a two's-complement pattern of width `w`. -/
def ofSigned (w : Nat) (x : Int) : Nat := (x % (2 ^ w : Int)).toNat

/-- An integer held to the range of two's complement of width `w`. -/
def clampTo (w : Nat) (x : Int) : Int :=
  max (-(2 ^ (w - 1) : Int)) (min x (2 ^ (w - 1) - 1))

/-- Whether an integer fits two's complement of width `w`. -/
def fitsIn (w : Nat) (x : Int) : Bool := clampTo w x == x

/-- Fill or cut a list to `n` bytes. -/
def padTo (n : Nat) (l : List Byte) : List Byte := (l ++ List.replicate n 0).take n

/-- Replace the bytes at `off`, within the list. -/
def splice (l : List Byte) (off : Nat) (new : List Byte) : List Byte :=
  l.take off ++ new ++ l.drop (off + new.length)

/-- Cut a list into pieces of `n`; `fuel` bounds their number. -/
def chunks {α : Type} (n : Nat) : Nat → List α → List (List α)
  | 0, _ => []
  | f + 1, l => if l.isEmpty then [] else l.take n :: chunks n f (l.drop n)

/-- Pieces of `n` bytes of a whole list. -/
def pieces {α : Type} (n : Nat) (l : List α) : List (List α) := chunks n (l.length + 1) l

/-- Divide, rounding up. -/
def ceilDiv (a b : Nat) : Nat := (a + b - 1) / b

/-- ⌈log2 n⌉. -/
def ceilLog2 (n : Nat) : Nat := if n ≤ 1 then 0 else Nat.log2 (n - 1) + 1

/-- One bit step of a check code of width `w` taken most significant bit first. -/
def crcBit (w poly crc : Nat) : Nat :=
  if crc / 2 ^ (w - 1) % 2 = 1 then (crc * 2 ^^^ poly) % 2 ^ w else crc * 2 % 2 ^ w

/-- `n` bit steps. -/
def crcBits (w poly : Nat) : Nat → Nat → Nat
  | 0, c => c
  | n + 1, c => crcBits w poly n (crcBit w poly c)

/-- A check code over bytes, most significant bit first, without reflection or inversion. -/
def crcMsb (w poly : Nat) (init : Nat) (l : List Byte) : Nat :=
  l.foldl (fun c b => crcBits w poly 8 (c ^^^ b.toNat * 2 ^ (w - 8))) init

/-- CHECK (R32). -/
def crc8 (l : List Byte) : Nat := crcMsb 8 0x2F 0xFF l

/-- HCRC and PCRC (R275). -/
def crc16 (l : List Byte) : Nat := crcMsb 16 0x1021 0xFFFF l

/-- `n` bit steps of the reflected CRC-32. -/
def crc32Bits : Nat → Nat → Nat
  | 0, c => c
  | n + 1, c => crc32Bits n (if c % 2 = 1 then c / 2 ^^^ 0xEDB88320 else c / 2)

/-- FCRC: the CRC-32 of IEEE 802.3 (R300). -/
def crc32 (l : List Byte) : Nat :=
  l.foldl (fun c b => crc32Bits 8 (c ^^^ b.toNat)) 0xFFFFFFFF ^^^ 0xFFFFFFFF

end Sys2Proof.Machine
end

