-- ==== Sys2Proof/Machine/Float.lean ====
section
/-! DEFINITION. The number formats of R11: IEEE 754-2019 values as exact dyadic numbers, and the one rounding that the
manual names at each point (R12). -/
namespace Sys2Proof.Machine

/-- A value of a floating-point format: NaN, an infinity, or (-1)^neg × m × 2^e exactly. -/
inductive Fp where
  | nan
  | inf (neg : Bool)
  | fin (neg : Bool) (m : Nat) (e : Int)
deriving DecidableEq, Repr, Inhabited

/-- A binary interchange format: exponent bits and fraction bits. -/
structure Fmt where
  eb : Nat
  mb : Nat
deriving DecidableEq, Repr

def fmt32 : Fmt := ⟨8, 23⟩
def fmt64 : Fmt := ⟨11, 52⟩
def fmt16 : Fmt := ⟨5, 10⟩
/-- BF16: bits [31:16] of a binary32 value (R11). -/
def fmtB16 : Fmt := ⟨8, 7⟩

/-- The rounding directions the chapters name. -/
inductive Rm where
  | nearestEven | towardZero | up | down
deriving DecidableEq, Repr

/-- The exponent bias. -/
def Fmt.bias (f : Fmt) : Int := 2 ^ (f.eb - 1) - 1
/-- The pattern of +infinity. -/
def Fmt.infPat (f : Fmt) : Nat := (2 ^ f.eb - 1) * 2 ^ f.mb
/-- The sign bit. -/
def Fmt.signPat (f : Fmt) : Nat := 2 ^ (f.eb + f.mb)
/-- The pattern of the largest finite value. -/
def Fmt.maxPat (f : Fmt) : Nat := f.infPat - 1

/-- Read a pattern. -/
def Fmt.read (f : Fmt) (v : Nat) : Fp :=
  let neg := v / f.signPat % 2 == 1
  let ex := v / 2 ^ f.mb % 2 ^ f.eb
  let fr := v % 2 ^ f.mb
  if ex = 2 ^ f.eb - 1 then (if fr = 0 then .inf neg else .nan)
  else if ex = 0 then .fin neg fr (1 - f.bias - f.mb)
  else .fin neg (fr + 2 ^ f.mb) (ex - f.bias - f.mb)

/-- Round the exact value (-1)^neg × m × 2^e, m not 0, to `mb` fraction bits with least exponent `emin`: the magnitude's
pattern, without a bound on the exponent. -/
def roundRaw (emin : Int) (mb : Nat) (rm : Rm) (neg : Bool) (m : Nat) (e : Int) : Nat :=
  let top := e + (Nat.log2 m : Int)
  let q := max top emin - mb
  let up (odd : Bool) (cmp : Ordering) (exact : Bool) : Bool :=
    match rm with
    | .nearestEven => cmp == .gt || (cmp == .eq && odd)
    | .towardZero => false
    | .up => !neg && !exact
    | .down => neg && !exact
  let h :=
    if q ≤ e then m * 2 ^ (e - q).toNat
    else
      let s := (q - e).toNat
      let hi := m / 2 ^ s
      let r := m % 2 ^ s
      hi + (if up (hi % 2 == 1) (compare (2 * r) (2 ^ s)) (r == 0) then 1 else 0)
  h + ((q - (emin - mb)).toNat) * 2 ^ mb

/-- The same in a format: beyond its largest value the direction decides. -/
def Fmt.roundPos (f : Fmt) (rm : Rm) (neg : Bool) (m : Nat) (e : Int) : Nat :=
  let pat := roundRaw (1 - f.bias) f.mb rm neg m e
  if pat < f.infPat then pat
  else match rm with
    | .nearestEven => f.infPat
    | .towardZero => f.maxPat
    | .up => if neg then f.maxPat else f.infPat
    | .down => if neg then f.infPat else f.maxPat

/-- Round a value to a pattern; `nanPat` stands for a NaN. -/
def Fmt.write (f : Fmt) (rm : Rm) (nanPat : Nat) : Fp → Nat
  | .nan => nanPat
  | .inf neg => f.infPat + (if neg then f.signPat else 0)
  | .fin neg m e =>
    (if m = 0 then 0 else f.roundPos rm neg m e) + (if neg then f.signPat else 0)

/-! ### Exact operations -/

/-- The signed integer of a finite value at scale 2^e. -/
def scaled (neg : Bool) (m : Nat) (d : Nat) : Int :=
  let x : Int := (m * 2 ^ d : Nat)
  if neg then -x else x

/-- Sum; an exact zero is +0 unless both addends are -0 (R12). -/
def Fp.add : Fp → Fp → Fp
  | .nan, _ => .nan
  | _, .nan => .nan
  | .inf a, .inf b => if a = b then .inf a else .nan
  | .inf a, .fin .. => .inf a
  | .fin .., .inf b => .inf b
  | .fin na ma ea, .fin nb mb eb =>
    let e := min ea eb
    let x := scaled na ma (ea - e).toNat + scaled nb mb (eb - e).toNat
    if x = 0 then .fin (na && nb) 0 e else .fin (x < 0) x.natAbs e

/-- Negation. -/
def Fp.neg : Fp → Fp
  | .nan => .nan
  | .inf a => .inf (!a)
  | .fin n m e => .fin (!n) m e

/-- Magnitude. -/
def Fp.abs : Fp → Fp
  | .nan => .nan
  | .inf _ => .inf false
  | .fin _ m e => .fin false m e

/-- Product. -/
def Fp.mul : Fp → Fp → Fp
  | .nan, _ => .nan
  | _, .nan => .nan
  | .inf a, .inf b => .inf (a != b)
  | .inf a, .fin nb mb _ => if mb = 0 then .nan else .inf (a != nb)
  | .fin na ma _, .inf b => if ma = 0 then .nan else .inf (na != b)
  | .fin na ma ea, .fin nb mb eb => .fin (na != nb) (ma * mb) (ea + eb)

/-- Quotient with `p` significant bits and a sticky bit below them. -/
def Fp.div (p : Nat) : Fp → Fp → Fp
  | .nan, _ => .nan
  | _, .nan => .nan
  | .inf _, .inf _ => .nan
  | .inf a, .fin nb _ _ => .inf (a != nb)
  | .fin na _ _, .inf b => .fin (na != b) 0 0
  | .fin na ma ea, .fin nb mb eb =>
    if mb = 0 then (if ma = 0 then .nan else .inf (na != nb))
    else if ma = 0 then .fin (na != nb) 0 0
    else
      let k := p + Nat.log2 mb + 2
      let n := ma * 2 ^ k
      let qv := n / mb
      .fin (na != nb) (2 * qv + (if n % mb = 0 then 0 else 1)) (ea - eb - k - 1)

/-- Square root with `p` significant bits and a sticky bit below them. -/
def Fp.sqrt (p : Nat) : Fp → Fp
  | .nan => .nan
  | .inf neg => if neg then .nan else .inf false
  | .fin neg m e =>
    if m = 0 then .fin neg 0 0
    else if neg then .nan
    else
      let k := 2 * p + 4 + (if (e % 2 = 0) then 0 else 1)
      let n := m * 2 ^ k
      let r := Nat.sqrt n
      .fin false (2 * r + (if r * r = n then 0 else 1)) ((e - k) / 2 - 1)

/-- Less than, as IEEE 754-2019 orders finite values and infinities; false with a NaN. -/
def Fp.lt : Fp → Fp → Bool
  | .nan, _ => false
  | _, .nan => false
  | .inf a, .inf b => a && !b
  | .inf a, .fin .. => a
  | .fin .., .inf b => !b
  | .fin na ma ea, .fin nb mb eb =>
    let e := min ea eb
    decide (scaled na ma (ea - e).toNat < scaled nb mb (eb - e).toNat)

/-- Neither NaN nor infinite. -/
def Fp.finite : Fp → Bool
  | .fin .. => true
  | _ => false

def Fp.isNan : Fp → Bool
  | .nan => true
  | _ => false

def Fp.isZero : Fp → Bool
  | .fin _ m _ => m == 0
  | _ => false

def Fp.isNeg : Fp → Bool
  | .nan => false
  | .inf n => n
  | .fin n _ _ => n

/-- An integer as a value. -/
def Fp.ofInt (x : Int) (e : Int := 0) : Fp := .fin (x < 0) x.natAbs e

/-- ⌊x⌋ of a finite value. -/
def Fp.floorInt : Fp → Int
  | .fin neg m e =>
    if 0 ≤ e then scaled neg m e.toNat
    else scaled neg m 0 / (2 ^ (-e).toNat : Int)
  | _ => 0

/-- The nearest integer, ties to even (R12). -/
def roundInt (neg : Bool) (m : Nat) (e : Int) : Int :=
  if 0 ≤ e then scaled neg m e.toNat
  else
    let s := (-e).toNat
    let h := m / 2 ^ s
    let r := m % 2 ^ s
    let h' := if 2 * r > 2 ^ s ∨ (2 * r = 2 ^ s ∧ h % 2 = 1) then h + 1 else h
    if neg then -(h' : Int) else h'

/-! ### FP32, FP64 and the narrow formats -/

/-- The quiet NaN that FP32 arithmetic makes: its sign and payload are free (DESIGN CHOICE, log 4). -/
def nan32 (ops : List W32) : Nat := 0x7FC00000 ||| ((Config.nanBits32 ops).toNat &&& 0x803FFFFF)
def nan64 (ops : List W64) : Nat :=
  0x7FF8000000000000 ||| ((Config.nanBits64 ops).toNat &&& 0x8007FFFFFFFFFFFF)
def nanB16 (op : W32) : Nat := 0x7FC0 ||| ((Config.nanBits16 op).toNat &&& 0x803F)
def nanF16 (op : W32) : Nat := 0x7E00 ||| ((Config.nanBits16 op).toNat &&& 0x81FF)

def rd32 (x : W32) : Fp := fmt32.read x.toNat
def rd64 (x : W64) : Fp := fmt64.read x.toNat

/-- Round to FP32; `ops` are the operands, which a NaN result may carry. -/
def to32 (ops : List W32) (x : Fp) : W32 := BitVec.ofNat 32 (fmt32.write .nearestEven (nan32 ops) x)
def to64 (ops : List W64) (x : Fp) : W64 := BitVec.ofNat 64 (fmt64.write .nearestEven (nan64 ops) x)

def f32add (a b : W32) : W32 := to32 [a, b] ((rd32 a).add (rd32 b))
def f32sub (a b : W32) : W32 := to32 [a, b] ((rd32 a).add (rd32 b).neg)
def f32mul (a b : W32) : W32 := to32 [a, b] ((rd32 a).mul (rd32 b))
def f32div (a b : W32) : W32 := to32 [a, b] ((rd32 a).div 26 (rd32 b))
def f32sqrt (a : W32) : W32 := to32 [a] ((rd32 a).sqrt 26)
/-- a × b + c with one rounding. -/
def f32fma (a b c : W32) : W32 := to32 [a, b, c] (((rd32 a).mul (rd32 b)).add (rd32 c))
def f64add (a b : W64) : W64 := to64 [a, b] ((rd64 a).add (rd64 b))
def f64mul (a b : W64) : W64 := to64 [a, b] ((rd64 a).mul (rd64 b))

/-- IEEE 754-2019 maximum: NaN propagates, and -0 is less than +0 (R52). -/
def f64max (a b : W64) : W64 :=
  match rd64 a, rd64 b with
  | .nan, _ => to64 [a, b] .nan
  | _, .nan => to64 [a, b] .nan
  | x, y => if x.isZero && y.isZero then (if x.isNeg then b else a) else if x.lt y then b else a

/-- IEEE 754-2019 minimum (R52). -/
def f64min (a b : W64) : W64 :=
  match rd64 a, rd64 b with
  | .nan, _ => to64 [a, b] .nan
  | _, .nan => to64 [a, b] .nan
  | x, y => if x.isZero && y.isZero then (if x.isNeg then a else b) else if x.lt y then a else b

/-- A BF16 pattern as FP32: exact. -/
def b16to32 (v : Nat) : W32 := BitVec.ofNat 32 (v % 65536 * 65536)
/-- An FP16 pattern as FP32: exact for numbers; a NaN becomes a quiet NaN with a free payload. -/
def f16to32 (v : Nat) : W32 := BitVec.ofNat 32 (fmt32.write .nearestEven (nan32 [BitVec.ofNat 32 v]) (fmt16.read v))
/-- FP32 rounded to BF16 (R12). -/
def f32toB16 (x : W32) : Nat := fmtB16.write .nearestEven (nanB16 x) (rd32 x)
/-- FP32 rounded to FP16 (R12). -/
def f32toF16 (x : W32) : Nat := fmt16.write .nearestEven (nanF16 x) (rd32 x)
/-- FP32 as FP64: exact. -/
def f32to64 (x : W32) : W64 := BitVec.ofNat 64 (fmt64.write .nearestEven (nan64 [x.zeroExtend 64]) (rd32 x))
/-- FP64 rounded to FP32. -/
def f64to32 (x : W64) : W32 := BitVec.ofNat 32 (fmt32.write .nearestEven (nan32 [x.truncate 32]) (rd64 x))

/-- FP8 E4M3 (R11): bias 7, no infinities, S.1111.111 is NaN. -/
def readE4m3 (v : Nat) : Fp :=
  let neg := v / 128 % 2 == 1
  let ex := v / 8 % 16
  let fr := v % 8
  if ex = 15 ∧ fr = 7 then .nan
  else if ex = 0 then .fin neg fr (-9)
  else .fin neg (fr + 8) ((ex : Int) - 10)

/-- An E4M3 pattern as FP32: exact for numbers. -/
def e4m3to32 (v : Nat) : W32 :=
  BitVec.ofNat 32 (fmt32.write .nearestEven (nan32 [BitVec.ofNat 32 v]) (readE4m3 v))

/-- FP32 2^e, for e from -126 to 127. -/
def pow2 (e : Int) : W32 := BitVec.ofNat 32 ((e + 127).toNat * 2 ^ 23)

/-- The exponent of a vector's E4M3 scale (R105): the smallest e with m / 2^e ≤ 448, from -126 to 127, where m is the
largest finite magnitude; 0 when m is 0 or no element is finite. -/
def e4m3Exp (v : List W32) : Int :=
  let m := (v.filter (fun x => (rd32 x).finite)).foldl (fun a x => max a (x.toNat % 2 ^ 31)) 0
  match fmt32.read m with
  | .fin _ k e =>
    if k = 0 then 0
    else
      let lo := e + (Nat.log2 k : Int) - 8
      -- k × 2^e ≤ 7 × 2^6 × 2^lo, at the scale of the smaller exponent
      let q := min e (lo + 6)
      let fits := decide (k * 2 ^ (e - q).toNat ≤ 7 * 2 ^ (lo + 6 - q).toNat)
      max (-126) (min 127 (if fits then lo else lo + 1))
  | _ => 0

/-- One element in E4M3 under the scale 2^s: the exact quotient, rounded once; NaN for an infinity or a NaN, of its sign
(R105). -/
def e4m3Byte (x : W32) (s : Int) : Byte :=
  let sign := if x.msb then 128 else 0
  match rd32 x with
  | .fin neg m e => BitVec.ofNat 8 (sign + (if m = 0 then 0 else roundRaw (-6) 3 .nearestEven neg m (e - s)))
  | _ => BitVec.ofNat 8 (sign + 0x7F)

/-- The quiet NaN that stands for poisoned data (R389). -/
def poisonNan : W32 := 0x7FC00000#32

end Sys2Proof.Machine
end

