-- ==== Sys2Proof/Machine/Codec.lean ====
section
/-! DEFINITION. The bodies of the packets of R275 and R302, as bytes and as messages, and the two packet headers. -/
namespace Sys2Proof.Machine

/-- Pad with zero bytes to a multiple of 16 (R274, R301). -/
def pad16 (l : List Byte) : List Byte := l ++ List.replicate ((16 - l.length % 16) % 16) 0

/-- A chip and a die in one 16-bit field: bits [13:0] chip, bits [15:14] die. -/
def chipDie (chip die : Nat) : Nat := chip % 16384 + die % 4 * 16384

/-- Values of a fixed width, in order. -/
def valuesAt (l : List Byte) (off w n : Nat) : List Nat := (List.range n).map (fun i => field l (off + w * i) w)

def boolNat (b : Bool) : Nat := if b then 1 else 0

/-- Element bits of a contribution's WIDTH (R154). -/
def contribBits (w : Nat) : Nat := if w = 0 then 32 else if w = 1 then 64 else 96

def encFragReq (b : FragReqB) : List Byte :=
  toLe 1 b.ctx ++ toLe 1 (boolNat b.weighted + 2 * boolNat b.bf16 + 4 * b.slot) ++ toLe 1 b.stream
    ++ toLe 1 b.rows.length ++ toLe 2 b.table ++ toLe 2 b.frag ++ toLe 4 b.tag ++ toLe 2 b.srcChip
    ++ toLe 1 b.srcDie ++ toLe 1 b.srcPitch ++ b.rows.flatMap (toLe 6)
    ++ (if b.weighted then b.weights.flatMap (fun w => toLe 4 w.toNat) else [])

def decFragReq (l : List Byte) : FragReqB :=
  let fl := byteAt l 1
  let n := byteAt l 3
  { ctx := byteAt l 0 % 64, weighted := fl.testBit 0, bf16 := fl.testBit 1, slot := bitsOf fl 3 2,
    stream := byteAt l 2, table := field l 4 2 % 4096, frag := field l 6 2, tag := field l 8 4,
    srcChip := field l 12 2 % 16384, srcDie := byteAt l 14 % 4, srcPitch := byteAt l 15 % 32,
    rows := valuesAt l 16 6 n,
    weights := if fl.testBit 0 then (valuesAt l (16 + 6 * n) 4 n).map (BitVec.ofNat 32) else [] }

def encPartial (b : PartialB) : List Byte :=
  toLe 1 b.status ++ toLe 1 (boolNat b.bf16) ++ toLe 2 b.vals.length ++ toLe 4 b.tag ++ toLe 2 b.frag
    ++ toLe 2 b.chip ++ toLe 1 b.die ++ toLe 3 0
    ++ b.vals.flatMap (fun v => if b.bf16 then toLe 2 (v.toNat / 65536) else toLe 4 v.toNat)

def decPartial (l : List Byte) : PartialB :=
  let bf := (byteAt l 1).testBit 0
  let n := field l 2 2
  { status := byteAt l 0, bf16 := bf, tag := field l 4 4, frag := field l 8 2, chip := field l 10 2 % 16384,
    die := byteAt l 12 % 4,
    vals := if bf then (valuesAt l 16 2 n).map (fun v => BitVec.ofNat 32 (v * 65536))
            else (valuesAt l 16 4 n).map (BitVec.ofNat 32) }

def encContrib (b : ContribB) : List Byte :=
  let w := contribBits b.width
  toLe 1 b.ctx ++ toLe 1 (b.width + 4 * boolNat b.sat + 8 * b.slot) ++ toLe 2 b.table ++ toLe 1 b.chunk
    ++ toLe 1 b.elems.length ++ toLe 2 0 ++ toLe 6 b.row ++ toLe 2 0 ++ toLe 4 b.tag ++ toLe 4 b.occ
    ++ toLe 2 b.srcChip ++ toLe 1 b.srcDie ++ toLe 1 b.srcPitch ++ toLe 4 0
    ++ b.elems.flatMap (fun x => toLe (w / 8) (ofSigned w x))

def decContrib (l : List Byte) : ContribB :=
  let fl := byteAt l 1
  let w := contribBits (fl % 4)
  { ctx := byteAt l 0 % 64, width := fl % 4, sat := fl.testBit 2, slot := bitsOf fl 4 3,
    table := field l 2 2 % 4096, chunk := byteAt l 4 % 16, row := field l 8 6, tag := field l 16 4,
    occ := field l 20 4, srcChip := field l 24 2 % 16384, srcDie := byteAt l 26 % 4, srcPitch := byteAt l 27 % 32,
    elems := (valuesAt l 32 (w / 8) (byteAt l 5)).map (signedOf w) }

def encGradAck (b : GradAckB) : List Byte :=
  toLe 1 b.status ++ toLe 1 (boolNat b.overrange) ++ toLe 2 b.msgs ++ toLe 4 b.tag ++ toLe 4 b.occFrozen
    ++ toLe 2 b.chip ++ toLe 1 b.die ++ toLe 1 0

def decGradAck (l : List Byte) : GradAckB :=
  { status := byteAt l 0, overrange := (byteAt l 1).testBit 0, msgs := field l 2 2, tag := field l 4 4,
    occFrozen := field l 8 4, chip := field l 12 2 % 16384, die := byteAt l 14 % 4 }

def encRefresh (b : RefreshB) : List Byte :=
  toLe 1 b.ctx ++ toLe 1 b.slot ++ toLe 2 b.table ++ toLe 4 b.tag ++ toLe 6 b.row ++ toLe 2 b.data.length
    ++ toLe 2 b.srcChip ++ toLe 1 b.srcDie ++ toLe 13 0 ++ b.data

def decRefresh (l : List Byte) : RefreshB :=
  { ctx := byteAt l 0 % 64, slot := byteAt l 1 % 4, table := field l 2 2 % 4096, tag := field l 4 4,
    row := field l 8 6, srcChip := field l 16 2 % 16384, srcDie := byteAt l 18 % 4,
    data := (l.drop 32).take (field l 14 2) }

def encRefreshAck (tag rows : Nat) (failed : Bool) : List Byte :=
  toLe 4 tag ++ toLe 4 rows ++ toLe 8 (boolNat failed)

/-- Byte 12 carries the context of a barrier that belongs to no partition, plus 1, between the dies of a chip (DESIGN CHOICE, log 20). -/
def encPegArrive (b : PegArriveB) : List Byte :=
  toLe 2 b.part ++ toLe 1 b.barrier ++ toLe 1 b.reduce ++ toLe 1 b.count
    ++ toLe 1 (boolNat b.mismatch + 2 * boolNat b.abort) ++ toLe 2 b.subtree ++ toLe 4 b.gen ++ toLe 4 b.ctx
    ++ b.vals.flatMap (fun v => toLe 8 v.toNat)

def decPegArrive (l : List Byte) : PegArriveB :=
  { part := field l 0 2 % 4096, barrier := byteAt l 2 % 16, reduce := byteAt l 3, count := byteAt l 4,
    mismatch := (byteAt l 5).testBit 0, abort := (byteAt l 5).testBit 1, subtree := field l 6 2, gen := field l 8 4,
    vals := (valuesAt l 16 8 (byteAt l 4)).map (BitVec.ofNat 64), ctx := field l 12 4 }

def encPegResult (b : PegResultB) : List Byte :=
  toLe 2 b.part ++ toLe 1 b.barrier ++ toLe 1 b.status ++ toLe 1 b.count ++ toLe 1 0 ++ toLe 2 b.rank ++ toLe 4 b.gen
    ++ toLe 4 b.ctx ++ b.vals.flatMap (fun v => toLe 8 v.toNat)

def decPegResult (l : List Byte) : PegResultB :=
  { part := field l 0 2 % 4096, barrier := byteAt l 2 % 16, status := byteAt l 3, count := byteAt l 4,
    rank := field l 6 2, gen := field l 8 4, ctx := field l 12 4,
    vals := if byteAt l 3 = 0 then (valuesAt l 16 8 (byteAt l 4)).map (BitVec.ofNat 64) else [] }

def encMem (b : MemB) : List Byte :=
  toLe 8 b.addr ++ toLe 2 b.bytes ++ toLe 2 b.tag ++ toLe 4 (boolNat b.host + 2 * boolNat b.poison) ++ b.data

def decMem (withData : Bool) (l : List Byte) : MemB :=
  { addr := field l 0 8, bytes := field l 8 2, tag := field l 10 2, host := (byteAt l 12).testBit 0,
    poison := (byteAt l 12).testBit 1, data := if withData then (l.drop 16).take (field l 8 2) else [] }

def encFwd (b : FwdB) : List Byte :=
  toLe 1 b.kind ++ toLe 1 b.fn ++ toLe 2 b.queue ++ toLe 4 b.off ++ toLe 8 b.value.toNat

def decFwd (l : List Byte) : FwdB :=
  { kind := byteAt l 0, fn := byteAt l 1 % 64, queue := field l 2 2, off := field l 4 4,
    value := BitVec.ofNat 64 (field l 8 8) }

def encDict (b : DictSegB) : List Byte :=
  toLe 2 b.msgId ++ toLe 1 b.seg ++ toLe 1 (boolNat b.last) ++ toLe 2 b.data.length ++ toLe 10 0 ++ b.data

def decDict (l : List Byte) : DictSegB :=
  { msgId := field l 0 2, seg := byteAt l 2, last := (byteAt l 3).testBit 0, data := (l.drop 16).take (field l 4 2) }

/-- The Ridge packet header of R301. -/
def encHdr (h : PktHdr) : List Byte :=
  toLe 1 h.ptype ++ toLe 1 (h.vc + 8 * h.sub + 16 * boolNat h.mcast) ++ toLe 2 h.len ++ toLe 2 h.dst ++ toLe 2 h.src
    ++ toLe 2 h.part ++ toLe 1 h.hops ++ toLe 1 (h.dim + 8 * boolNat h.rt + 16 * h.stream) ++ toLe 4 0

def decHdr (l : List Byte) : PktHdr :=
  let c := byteAt l 1
  let k := byteAt l 11
  { ptype := byteAt l 0, vc := c % 8, sub := bitsOf c 3 3, mcast := c.testBit 4, len := field l 2 2 % 1024,
    dst := field l 4 2, src := field l 6 2, part := field l 8 2 % 4096, hops := byteAt l 10, dim := k % 8,
    rt := k.testBit 3, stream := bitsOf k 6 4 }

/-- Packet type and body of a message (R275, R302). -/
def encMsg : Msg → Nat × List Byte
  | .fragReq b => (0x10, encFragReq b)
  | .partialV b => (0x11, encPartial b)
  | .contrib b => (0x12, encContrib b)
  | .gradAck b => (0x13, encGradAck b)
  | .refresh b => (0x14, encRefresh b)
  | .refreshAck t r f => (0x15, encRefreshAck t r f)
  | .pegArrive b => (0x16, encPegArrive b)
  | .pegResult b => (0x17, encPegResult b)
  | .memRead b => (0x20, encMem b)
  | .memWrite b => (0x21, encMem b)
  | .memData b => (0x22, encMem b)
  | .memDone b => (0x23, encMem b)
  | .fwdWrite b => (0x30, encFwd b)
  | .fwdRead b => (0x31, encFwd b)
  | .fwdData b => (0x32, encFwd b)
  | .fwdReport t => (0x33, toLe 16 (t % 65536))
  | .dict b => (0x34, encDict b)
  | .echo n => (0x38, toLe 16 (n % 4294967296))
  | .echoReply n => (0x39, toLe 16 (n % 4294967296))
  | .unreach h c body => (0x3A, encHdr h ++ toLe 16 c ++ padTo 32 body)

/-- The message that a packet carries; none for a type that neither table names. -/
def decMsg (ptype : Nat) (l : List Byte) : Option Msg :=
  match ptype with
  | 0x10 => some (.fragReq (decFragReq l))
  | 0x11 => some (.partialV (decPartial l))
  | 0x12 => some (.contrib (decContrib l))
  | 0x13 => some (.gradAck (decGradAck l))
  | 0x14 => some (.refresh (decRefresh l))
  | 0x15 => some (.refreshAck (field l 0 4) (field l 4 4) ((byteAt l 8).testBit 0))
  | 0x16 => some (.pegArrive (decPegArrive l))
  | 0x17 => some (.pegResult (decPegResult l))
  | 0x20 => some (.memRead (decMem false l))
  | 0x21 => some (.memWrite (decMem true l))
  | 0x22 => some (.memData (decMem true l))
  | 0x23 => some (.memDone (decMem false l))
  | 0x30 => some (.fwdWrite (decFwd l))
  | 0x31 => some (.fwdRead (decFwd l))
  | 0x32 => some (.fwdData (decFwd l))
  | 0x33 => some (.fwdReport (field l 0 2))
  | 0x34 => some (.dict (decDict l))
  | 0x38 => some (.echo (field l 0 4))
  | 0x39 => some (.echoReply (field l 0 4))
  | 0x3A => some (.unreach (decHdr (l.take 16)) (byteAt l 16) ((l.drop 32).take 32))
  | _ => none

/-- The die-to-die virtual channel of a packet type (R275, R279). -/
def d2dVc (ptype : Nat) : Nat :=
  match ptype with
  | 0x10 => 0
  | 0x11 | 0x13 | 0x15 => 1
  | 0x12 => 2
  | 0x14 => 3
  | 0x16 | 0x17 => 4
  | 0x20 | 0x21 => 6
  | 0x22 | 0x23 => 7
  | _ => 5

/-- The Ridge virtual channel of a packet type (R302). -/
def ridgeVc (ptype : Nat) : Nat :=
  match ptype with
  | 0x10 | 0x20 | 0x21 => 0
  | 0x11 | 0x13 | 0x15 | 0x22 | 0x23 => 1
  | 0x12 => 2
  | 0x14 => 3
  | 0x16 | 0x17 => 4
  | _ => 5

/-- The types that the Ridge carries (R302). -/
def ridgeType (t : Nat) : Bool :=
  [0x10, 0x11, 0x12, 0x13, 0x14, 0x15, 0x16, 0x17, 0x20, 0x21, 0x22, 0x23, 0x38, 0x39, 0x3A].contains t

/-- The die-to-die types (R275). -/
def d2dType (t : Nat) : Bool :=
  [0x10, 0x11, 0x12, 0x13, 0x14, 0x15, 0x16, 0x17, 0x20, 0x21, 0x22, 0x23, 0x30, 0x31, 0x32, 0x33, 0x34].contains t

/-- The context that a body names, where it names one (R313). -/
def msgCtx : Msg → Option Nat
  | .fragReq b => some b.ctx
  | .contrib b => some b.ctx
  | .refresh b => some b.ctx
  | _ => none

end Sys2Proof.Machine
end

