-- ==== Sys2Proof/Machine/Mem.lean ====
section
/-! DEFINITION. A memory in its canonical form: the groundsheet port's memory of R401, and host memory. -/
namespace Sys2Proof.Machine

/-- What an unlisted byte reads as (DESIGN CHOICE, log 1). -/
def Mem.unlisted : Byte := 0

/-- Addresses rise strictly from `lo`, and no byte is the unlisted one. -/
def Mem.cellsOk : Nat → List Host.Cell → Bool
  | _, [] => true
  | lo, (a, v) :: t => decide (lo ≤ a) && v != Mem.unlisted && Mem.cellsOk (a + 1) t

/-- The canonical form: equal memories are equal lists. -/
def Mem.wf (m : Mem) : Bool := Mem.cellsOk 0 m.cells

/-- The byte listed at an address. -/
def Mem.look : List Host.Cell → Nat → Byte
  | [], _ => Mem.unlisted
  | (k, v) :: t, a => if k = a then v else Mem.look t a

/-- Put one byte, keeping the canonical form. -/
def Mem.put1 : List Host.Cell → Nat → Byte → List Host.Cell
  | [], a, x => if x = Mem.unlisted then [] else [(a, x)]
  | (k, v) :: t, a, x =>
    if a < k then (if x = Mem.unlisted then (k, v) :: t else (a, x) :: (k, v) :: t)
    else if a = k then (if x = Mem.unlisted then t else (a, x) :: t)
    else (k, v) :: Mem.put1 t a x

/-- Put bytes at rising addresses. -/
def Mem.putAll : List Host.Cell → Nat → List Byte → List Host.Cell
  | c, _, [] => c
  | c, a, x :: t => Mem.putAll (Mem.put1 c a x) (a + 1) t

/-- The sector of an address (R388). -/
def sectorOf (a : Nat) : Nat := a / 64

/-- Take bytes `lo` to `lo + n - 1` out of the undefined ranges. -/
def carve (lo n : Nat) : List Undef → List Undef
  | [] => []
  | u :: t =>
    let rest := carve lo n t
    if u.lo + u.len ≤ lo ∨ lo + n ≤ u.lo then u :: rest
    else
      let left : List Undef := if u.lo < lo then [{ u with len := lo - u.lo }] else []
      let right : List Undef :=
        if lo + n < u.lo + u.len then [{ u with lo := lo + n, len := u.lo + u.len - (lo + n) }] else []
      left ++ right ++ rest

/-- The undefined range that holds an address. -/
def Mem.undefAt (m : Mem) (a : Nat) : Option Undef := m.undef.find? (fun u => u.lo ≤ a ∧ a < u.lo + u.len)

/-- One byte: its value where it is defined, a free value where the manual calls it undefined. -/
def Mem.byte (m : Mem) (a : Nat) : Byte :=
  match m.undefAt a with
  | some u => Config.undefByte u.stamp a
  | none => Mem.look m.cells a

/-- One byte as the port returns it. -/
def Mem.pbyte (m : Mem) (a : Nat) : PByte := (m.byte a, m.poisoned.contains (sectorOf a))

/-- `n` bytes from an address. -/
def Mem.read (m : Mem) (a n : Nat) : List PByte := (List.range n).map (fun i => m.pbyte (a + i))

/-- The bytes alone. -/
def Mem.bytes (m : Mem) (a n : Nat) : List Byte := (List.range n).map (fun i => m.byte (a + i))

/-- Write bytes. A sector takes poison from a poisoned byte, and loses it when it is written whole and clean (R390; DEDUCED, log 9). -/
def Mem.write (m : Mem) (a : Nat) (d : List PByte) : Mem :=
  let n := d.length
  let bad := ((List.range n).filter (fun i => (d.getD i (0, false)).2)).map (fun i => sectorOf (a + i))
  let whole (s : Nat) : Bool := a ≤ 64 * s ∧ 64 * s + 64 ≤ a + n
  let kept := m.poisoned.filter (fun s => !(whole s) || bad.contains s)
  { cells := Mem.putAll m.cells a (d.map (·.1)),
    poisoned := (kept ++ (bad.eraseDups.filter (fun s => !kept.contains s))),
    undef := carve a n m.undef }

/-- Write clean bytes. -/
def Mem.writeB (m : Mem) (a : Nat) (d : List Byte) : Mem := m.write a (d.map (·, false))

/-- Make a run of bytes undefined (R106, R180, R337). -/
def Mem.forget (m : Mem) (a n stamp : Nat) : Mem :=
  if n = 0 then m else { m with undef := ⟨a, n, stamp⟩ :: carve a n m.undef }

/-- Insert a listed byte in order, keeping the first byte seen for an address. -/
def Mem.normCells : List Host.Cell → List Host.Cell
  | [] => []
  | (a, v) :: t => Mem.put1 (Mem.normCells t) a v

/-- The canonical form of any memory. -/
def Mem.norm (m : Mem) : Mem := if m.wf then m else { m with cells := Mem.normCells m.cells }

end Sys2Proof.Machine
end

