-- ==== Sys2Proof/Machine/ObjTable.lean ====
section
/-! DEFINITION. The directory of the Relrok dictionary (R373) and the counters of Lantern (R378): index, subindices, type,
access and default of every object, as the chapters' tables give them. -/
namespace Sys2Proof.Machine

/-- The access classes of R362. -/
inductive Access where
  | ro | rw | wo | rws | rwc
deriving DecidableEq, Repr, Inhabited

/-- What a Lantern counter is kept per (R378). -/
inductive Per where
  | queue | ctx | block | subPort | link
deriving DecidableEq, Repr, Inhabited

/-- A row of an object table: indices `i0` to `i1`, subindices `s0` to `s1`, type code of R360, access, default. A default
that a strap, the build or the IDENT port gives is computed where the object is read. -/
structure ObjRow where
  i0 : Nat
  i1 : Nat
  s0 : Nat
  s1 : Nat
  ty : Nat
  acc : Access
  dflt : Nat
deriving DecidableEq, Repr, Inhabited

/-- Objects 0x1000 to 0x3000. -/
def objRows1 : List ObjRow :=
  [
   ⟨0x1000, 0x1000, 0x00, 0x00, 8, .ro, 0⟩,  -- DEVICE_NAME: "Forral"
   ⟨0x1001, 0x1001, 0x00, 0x00, 1, .ro, 3⟩,  -- VERSION_MAJOR
   ⟨0x1001, 0x1001, 0x01, 0x01, 1, .ro, 2⟩,  -- VERSION_MINOR
   ⟨0x1001, 0x1001, 0x02, 0x02, 1, .ro, 0⟩,  -- VERSION_PATCH
   ⟨0x1001, 0x1001, 0x03, 0x03, 2, .ro, 770⟩,  -- DICT_LAYOUT
   ⟨0x1002, 0x1002, 0x00, 0x00, 1, .ro, 0⟩,  -- PITCHES_BUILT: Build
   ⟨0x1002, 0x1002, 0x01, 0x01, 1, .ro, 0⟩,  -- PITCHES_ENABLED: Strap
   ⟨0x1002, 0x1002, 0x02, 0x02, 1, .ro, 0⟩,  -- SLICES: Build
   ⟨0x1003, 0x1003, 0x00, 0x00, 2, .ro, 0⟩,  -- CHIP_ID: IDENT
   ⟨0x1003, 0x1003, 0x01, 0x01, 1, .ro, 0⟩,  -- DIE_ID: IDENT
   ⟨0x1003, 0x1003, 0x02, 0x02, 4, .ro, 0⟩,  -- PACKAGE_SERIAL: IDENT
   ⟨0x1003, 0x1003, 0x03, 0x03, 3, .ro, 0⟩,  -- LICENSEE_ID: IDENT
   ⟨0x1004, 0x1004, 0x00, 0x04, 1, .ro, 0⟩,  -- STRAPS: Strap
   ⟨0x1005, 0x1005, 0x00, 0x00, 2, .ro, 256⟩,  -- QUEUES
   ⟨0x1005, 0x1005, 0x01, 0x01, 1, .ro, 64⟩,  -- CONTEXTS
   ⟨0x1005, 0x1005, 0x02, 0x02, 1, .ro, 8⟩,  -- STREAMS
   ⟨0x1005, 0x1005, 0x03, 0x03, 1, .ro, 64⟩,  -- FUNCTIONS
   ⟨0x1005, 0x1005, 0x04, 0x04, 2, .ro, 4096⟩,  -- TABLES
   ⟨0x1008, 0x1008, 0x00, 0x00, 3, .ro, 0⟩,  -- VENDOR_IANA: Holtivo's IANA Private Enterprise Number
   ⟨0x2000, 0x2000, 0x00, 0x00, 1, .ro, 0⟩,  -- BLOCK_STATE: Strap
   ⟨0x2000, 0x2000, 0x01, 0x01, 7, .wo, 0⟩,  -- BOOT_RELEASE
   ⟨0x2000, 0x2000, 0x02, 0x02, 2, .ro, 0⟩,  -- RWC_PENDING
   ⟨0x2010, 0x2010, 0x00, 0x00, 3, .rw, 0⟩,  -- ALERT_STATUS
   ⟨0x2010, 0x2010, 0x01, 0x01, 3, .rw, 255⟩,  -- ALERT_MASK
   ⟨0x2020, 0x2020, 0x00, 0x00, 4, .ro, 0⟩,  -- MGMT_REQUESTS
   ⟨0x2020, 0x2020, 0x01, 0x01, 4, .ro, 0⟩,  -- MGMT_BUSY
   ⟨0x2020, 0x2020, 0x02, 0x02, 4, .ro, 0⟩,  -- MGMT_DROPPED
   ⟨0x2020, 0x2020, 0x03, 0x03, 2, .ro, 0⟩,  -- MGMT_LAST_SOURCE
   ⟨0x2100, 0x2100, 0x00, 0x3F, 1, .rwc, 1⟩,  -- CTX_ACCUM_MODE
   ⟨0x3000, 0x3000, 0x00, 0x00, 3, .ro, 0⟩  -- PITCH_MASK: Strap
  ]

/-- Objects 0x3001 to 0x6000. -/
def objRows2 : List ObjRow :=
  [
   ⟨0x3001, 0x3001, 0x00, 0x1F, 1, .ro, 0⟩,  -- PITCH_DUTY
   ⟨0x3002, 0x3002, 0x00, 0x1F, 3, .ro, 0⟩,  -- PITCH_GRID_BYTES
   ⟨0x3003, 0x3003, 0x00, 0x1F, 2, .ro, 0⟩,  -- PITCH_FRAGS_OUT
   ⟨0x3004, 0x3004, 0x00, 0x1F, 2, .ro, 0⟩,  -- PITCH_BAGS_OPEN
   ⟨0x4000, 0x4000, 0x00, 0x00, 4, .rws, 0⟩,  -- CTX_DIR_BASE
   ⟨0x4000, 0x4000, 0x01, 0x01, 4, .ro, 0⟩,  -- XLAT_CYCLES
   ⟨0x4010, 0x4010, 0x01, 0x01, 7, .rwc, 0⟩,  -- MDC_EN
   ⟨0x4010, 0x4010, 0x02, 0x02, 7, .rwc, 0⟩,  -- DESC_EN
   ⟨0x4010, 0x4010, 0x03, 0x03, 7, .rwc, 0⟩,  -- FAULT_EN
   ⟨0x4010, 0x4010, 0x10, 0x10, 1, .wo, 0⟩,  -- CACHE_INVALIDATE
   ⟨0x4020, 0x4020, 0x01, 0x01, 7, .rwc, 1⟩,  -- PREFETCH_EN
   ⟨0x4020, 0x4020, 0x02, 0x02, 1, .rwc, 4⟩,  -- PREFETCH_DEPTH
   ⟨0x4030, 0x4030, 0x01, 0x01, 7, .rws, 0⟩,  -- HINT_EN
   ⟨0x5000, 0x5000, 0x01, 0x01, 1, .rw, 0⟩,  -- HOST_STATE
   ⟨0x5000, 0x5000, 0x02, 0x02, 1, .ro, 0⟩,  -- HOST_MODE: Strap
   ⟨0x5000, 0x5000, 0x03, 0x03, 1, .ro, 0⟩,  -- LINK_WIDTH
   ⟨0x5000, 0x5000, 0x04, 0x04, 1, .ro, 0⟩,  -- LINK_RATE
   ⟨0x5010, 0x5010, 0x00, 0x00, 4, .rws, 0⟩,  -- DETACH_LOG_BASE
   ⟨0x5010, 0x5010, 0x01, 0x01, 1, .rws, 6⟩,  -- DETACH_LOG_LOG2
   ⟨0x5010, 0x5010, 0x02, 0x02, 4, .rw, 0⟩,  -- DL_HEAD
   ⟨0x5010, 0x5010, 0x03, 0x03, 9, .ro, 0⟩,  -- DETACH_LOG: —
   ⟨0x5100, 0x5100, 0x00, 0x3F, 1, .rwc, 0⟩,  -- FN_QUEUE_FIRST
   ⟨0x5101, 0x5101, 0x00, 0x3F, 2, .rwc, 0⟩,  -- FN_QUEUE_COUNT: 256 for f = 0, else 0
   ⟨0x5102, 0x5102, 0x00, 0x3F, 4, .rwc, 0⟩,  -- FN_CTX_MASK: All ones for f = 0, else 0
   ⟨0x5103, 0x5103, 0x00, 0x3F, 7, .rw, 0⟩,  -- FN_DISABLE
   ⟨0x6000, 0x6000, 0x00, 0x00, 1, .ro, 0⟩,  -- D2D_DIE: IDENT
   ⟨0x6000, 0x6000, 0x01, 0x01, 7, .ro, 0⟩,  -- D2D_LEAD: Strap
   ⟨0x6000, 0x6000, 0x02, 0x02, 3, .ro, 63⟩,  -- D2D_FEATURES_OWN
   ⟨0x6000, 0x6000, 0x03, 0x03, 3, .rws, 63⟩,  -- D2D_FEATURE_MASK
   ⟨0x6000, 0x6000, 0x04, 0x04, 3, .ro, 0⟩  -- D2D_CHIP_FEATURES: —
  ]

/-- Objects 0x6010 to 0x8011. -/
def objRows3 : List ObjRow :=
  [
   ⟨0x6010, 0x6010, 0x00, 0x03, 1, .ro, 0⟩,  -- D2D_LINK_STATE
   ⟨0x6011, 0x6011, 0x00, 0x03, 2, .rws, 0⟩,  -- D2D_MODULE_MAP: Tie-off
   ⟨0x6012, 0x6012, 0x00, 0x03, 3, .ro, 0⟩,  -- D2D_HALVES
   ⟨0x6013, 0x6013, 0x00, 0x03, 1, .ro, 0⟩,  -- D2D_DOWN_CAUSE
   ⟨0x6014, 0x6014, 0x00, 0x03, 1, .ro, 0⟩,  -- D2D_PROTO
   ⟨0x6015, 0x6015, 0x00, 0x03, 3, .ro, 0⟩,  -- D2D_PEER_REVISION
   ⟨0x6016, 0x6016, 0x00, 0x03, 1, .ro, 0⟩,  -- D2D_ATTEMPTS
   ⟨0x6017, 0x6017, 0x00, 0x03, 7, .wo, 0⟩,  -- D2D_RETRAIN
   ⟨0x6018, 0x6018, 0x00, 0x03, 7, .wo, 0⟩,  -- D2D_LINK_RESET
   ⟨0x7000, 0x7000, 0x00, 0x00, 1, .ro, 3⟩,  -- RIDGE_REVISION
   ⟨0x7001, 0x7001, 0x00, 0x1F, 1, .rws, 1⟩,  -- PORT_CFG
   ⟨0x7002, 0x7002, 0x00, 0x3F, 1, .rwc, 0⟩,  -- PORT_ATTR
   ⟨0x7003, 0x7003, 0x00, 0x3F, 3, .ro, 0⟩,  -- PORT_STATE
   ⟨0x7004, 0x7004, 0x00, 0x3F, 7, .wo, 0⟩,  -- PORT_RETRAIN
   ⟨0x7010, 0x7010, 0x00, 0x00, 4, .wo, 0⟩,  -- ROUTE_LOAD
   ⟨0x7010, 0x7010, 0x01, 0x01, 1, .rwc, 64⟩,  -- HOP_LIMIT
   ⟨0x7020, 0x7020, 0x00, 0x0F, 2, .rwc, 65535⟩,  -- PART_ID
   ⟨0x7021, 0x7021, 0x00, 0x0F, 4, .wo, 0⟩,  -- PART_LOAD
   ⟨0x7022, 0x7022, 0x00, 0x3F, 1, .rwc, 255⟩,  -- CTX_PART
   ⟨0x7030, 0x7030, 0x00, 0x00, 4, .wo, 0⟩,  -- MCAST_LOAD
   ⟨0x7040, 0x7040, 0x00, 0x00, 3, .rwc, 100000⟩,  -- REACH_IDLE
   ⟨0x7040, 0x7040, 0x01, 0x01, 3, .rwc, 100000⟩,  -- REACH_WAIT
   ⟨0x7040, 0x7040, 0x02, 0x02, 9, .ro, 0⟩,  -- UNREACH_LIST: —
   ⟨0x8000, 0x8000, 0x00, 0x00, 1, .ro, 0⟩,  -- CLK_STATUS
   ⟨0x8000, 0x8000, 0x01, 0x01, 4, .ro, 0⟩,  -- AON_CYCLES
   ⟨0x8000, 0x8000, 0x02, 0x02, 3, .ro, 0⟩,  -- CORE_KHZ
   ⟨0x8000, 0x8000, 0x03, 0x03, 2, .ro, 900⟩,  -- CORE_FLOOR_MHZ
   ⟨0x8010, 0x8010, 0x00, 0x00, 7, .wo, 0⟩,  -- RESET_WARM
   ⟨0x8010, 0x8010, 0x01, 0x01, 1, .ro, 0⟩,  -- RESET_CAUSE
   ⟨0x8011, 0x8011, 0x00, 0x3F, 7, .wo, 0⟩  -- RESET_PORT
  ]

/-- Objects 0x8020 to 0xF003. -/
def objRows4 : List ObjRow :=
  [
   ⟨0x8020, 0x8020, 0x00, 0x00, 1, .rwc, 0⟩,  -- STRETCH_MODE
   ⟨0x8020, 0x8020, 0x01, 0x01, 1, .rwc, 1⟩,  -- THROTTLE_DUTY
   ⟨0x8020, 0x8020, 0x02, 0x02, 1, .rwc, 15⟩,  -- KINDLE_MASK
   ⟨0x9100, 0x9100, 0x00, 0x0D, 3, .rwc, 0⟩,  -- ENERGY_COEF: As the energy-event table
   ⟨0x9101, 0x9101, 0x00, 0x00, 3, .rwc, 0⟩,  -- STATIC_MW
   ⟨0x9200, 0x9200, 0x00, 0x3F, 4, .ro, 0⟩,  -- ENERGY_CTX
   ⟨0x9201, 0x9201, 0x00, 0xFF, 4, .ro, 0⟩,  -- ENERGY_QUEUE
   ⟨0x9202, 0x9202, 0x00, 0x00, 4, .ro, 0⟩,  -- ENERGY_BLOCK
   ⟨0x9300, 0x9300, 0x00, 0x3F, 9, .ro, 0⟩,  -- SLACK_LOG: —
   ⟨0x9301, 0x9301, 0x00, 0x3F, 4, .ro, 0⟩,  -- SLACK_EWMA
   ⟨0x9302, 0x9302, 0x00, 0x3F, 4, .ro, 0⟩,  -- SLACK_LAST
   ⟨0x9303, 0x9303, 0x00, 0x3F, 4, .ro, 0⟩,  -- SLACK_COUNT
   ⟨0x9A00, 0x9A1F, 0x00, 0x03, 9, .ro, 0⟩,  -- SKETCH: —
   ⟨0x9A20, 0x9A20, 0x00, 0x00, 7, .wo, 0⟩,  -- SKETCH_CLEAR
   ⟨0x9A21, 0x9A21, 0x00, 0x00, 1, .wo, 0⟩,  -- COUNTER_CLEAR
   ⟨0xA000, 0xA000, 0x00, 0x00, 9, .ro, 0⟩,  -- ERR_LOG: —
   ⟨0xA000, 0xA000, 0x01, 0x01, 4, .ro, 0⟩,  -- ERR_LOG_WRITTEN
   ⟨0xA000, 0xA000, 0x02, 0x02, 4, .ro, 0⟩,  -- ERR_LOG_LOST
   ⟨0xA000, 0xA000, 0x03, 0x03, 7, .wo, 0⟩,  -- ERR_LOG_CLEAR
   ⟨0xA010, 0xA010, 0x00, 0x00, 4, .rws, 0⟩,  -- ERR_RING_BASE
   ⟨0xA010, 0xA010, 0x01, 0x01, 1, .rws, 6⟩,  -- ERR_RING_LOG2
   ⟨0xA010, 0xA010, 0x02, 0x02, 4, .rw, 0⟩,  -- ERR_RING_HEAD
   ⟨0xA100, 0xA100, 0x00, 0x3F, 9, .ro, 0⟩,  -- OVERRANGE: —
   ⟨0xF000, 0xF000, 0x00, 0x00, 4, .rw, 0⟩,  -- SCRATCH
   ⟨0xF001, 0xF001, 0x00, 0x00, 4, .rw, 0⟩,  -- PEEK_ADDR
   ⟨0xF001, 0xF001, 0x01, 0x01, 4, .rw, 0⟩,  -- PEEK_DATA
   ⟨0xF002, 0xF002, 0x00, 0x00, 7, .rws, 0⟩,  -- DIAG_ENABLE
   ⟨0xF003, 0xF003, 0x00, 0x00, 3, .wo, 0⟩  -- ECC_INJECT
  ]

/-- The LOOKUP counters (R378, group 0): what each is kept per, in table order. -/
def counterPer0 : List Per :=
  [.queue, .queue, .queue, .queue, .queue, .queue, .queue, .queue, .queue, .queue, .ctx, .ctx, .ctx, .ctx]

/-- The lattice and array counters (R378, group 1): what each is kept per, in table order. -/
def counterPer1 : List Per :=
  [.queue, .queue, .queue, .queue, .queue, .ctx, .ctx, .ctx, .ctx, .queue, .queue]

/-- The scatter counters (R378, group 2): what each is kept per, in table order. -/
def counterPer2 : List Per :=
  [.queue, .queue, .queue, .queue, .queue, .queue, .queue, .queue, .queue, .ctx, .ctx, .ctx, .ctx, .ctx, .ctx, .ctx]

/-- The update counters (R378, group 3): what each is kept per, in table order. -/
def counterPer3 : List Per :=
  [.ctx, .ctx, .ctx, .ctx, .ctx, .ctx, .ctx, .ctx, .ctx, .ctx, .ctx, .ctx, .ctx]

/-- The memory and translation counters (R378, group 4): what each is kept per, in table order. -/
def counterPer4 : List Per :=
  [.ctx, .ctx, .ctx, .ctx, .ctx, .ctx, .ctx, .block, .block, .ctx, .ctx, .ctx, .ctx, .block, .block, .ctx, .ctx]

/-- The host and copy counters (R378, group 5): what each is kept per, in table order. -/
def counterPer5 : List Per :=
  [.queue, .queue, .ctx, .ctx, .block, .block, .block, .block, .queue, .ctx, .block, .block]

/-- The die-to-die counters (R378, group 6): what each is kept per, in table order. -/
def counterPer6 : List Per :=
  [.link, .link, .link, .link, .link, .link, .link, .link, .link]

/-- The Ridge counters (R378, group 7): what each is kept per, in table order. -/
def counterPer7 : List Per :=
  [.subPort, .subPort, .subPort, .subPort, .subPort, .subPort, .subPort, .subPort, .block, .block, .block, .block, .ctx, .block, .ctx]

/-- The clock and power counters (R378, group 8): what each is kept per, in table order. -/
def counterPer8 : List Per :=
  [.block, .block, .block, .block, .block, .block, .block, .ctx, .ctx, .ctx, .ctx]

/-- The error counters (R378, group 9): what each is kept per, in table order. -/
def counterPer9 : List Per :=
  [.block, .block, .block, .block, .block, .block, .block, .block, .block, .block, .ctx, .ctx, .ctx, .ctx, .ctx, .queue, .queue, .queue, .queue, .queue, .queue, .queue, .queue, .queue, .queue, .queue, .queue, .queue, .queue, .queue, .ctx, .block]

/-- The groups of R378. -/
def counterPer : List (List Per) :=
  [counterPer0, counterPer1, counterPer2, counterPer3, counterPer4, counterPer5, counterPer6, counterPer7, counterPer8, counterPer9]

/-- Every object table of the chapters. -/
def objRows : List ObjRow := objRows1 ++ objRows2 ++ objRows3 ++ objRows4

namespace Ctr
/-- LK_INDICES. -/
def lkIndices : Nat := 0x9800
/-- LK_DROP_MISSING. -/
def lkDropMissing : Nat := 0x9801
/-- LK_DROP_NEGATIVE. -/
def lkDropNegative : Nat := 0x9802
/-- LK_DROP_RANGE. -/
def lkDropRange : Nat := 0x9803
/-- LK_EMPTY. -/
def lkEmpty : Nat := 0x9804
/-- LK_LOCAL_ROWS. -/
def lkLocalRows : Nat := 0x9805
/-- LK_REPLICA_HITS. -/
def lkReplicaHits : Nat := 0x9806
/-- LK_FRAGS_SENT. -/
def lkFragsSent : Nat := 0x9807
/-- LK_PARTIALS_DISCARDED. -/
def lkPartialsDiscarded : Nat := 0x9808
/-- LK_BAGS_VALID. -/
def lkBagsValid : Nat := 0x9809
/-- LK_SECTORS. -/
def lkSectors : Nat := 0x980A
/-- LK_DEDUP_HITS. -/
def lkDedupHits : Nat := 0x980B
/-- HOME_FRAGS. -/
def homeFrags : Nat := 0x980C
/-- HOME_FRAGS_FAILED. -/
def homeFragsFailed : Nat := 0x980D
/-- LT_POINTS. -/
def ltPoints : Nat := 0x9820
/-- LT_POINTS_DROPPED. -/
def ltPointsDropped : Nat := 0x9821
/-- LT_CORNERS_BUFFER. -/
def ltCornersBuffer : Nat := 0x9822
/-- LT_CORNERS_LOCAL. -/
def ltCornersLocal : Nat := 0x9823
/-- LT_CORNERS_REMOTE. -/
def ltCornersRemote : Nat := 0x9824
/-- LT_BUFFER_LOADS. -/
def ltBufferLoads : Nat := 0x9825
/-- AR_PASSES. -/
def arPasses : Nat := 0x9826
/-- AR_BUBBLES. -/
def arBubbles : Nat := 0x9827
/-- AR_DECODER_LOADS. -/
def arDecoderLoads : Nat := 0x9828
/-- AR_SATURATED. -/
def arSaturated : Nat := 0x9829
/-- IX_SAMPLES. -/
def ixSamples : Nat := 0x982A
/-- SC_OCCURRENCES. -/
def scOccurrences : Nat := 0x9840
/-- SC_DROP_INDEX. -/
def scDropIndex : Nat := 0x9841
/-- SC_DROP_NAN. -/
def scDropNan : Nat := 0x9842
/-- SC_COMBINE_HITS. -/
def scCombineHits : Nat := 0x9843
/-- SC_EVICTIONS. -/
def scEvictions : Nat := 0x9844
/-- SC_MESSAGES. -/
def scMessages : Nat := 0x9845
/-- SC_MSG_96. -/
def scMsg96 : Nat := 0x9846
/-- SC_SATURATED. -/
def scSaturated : Nat := 0x9847
/-- SC_UNDELIVERED. -/
def scUndelivered : Nat := 0x9848
/-- GS_MSGS_PLACED. -/
def gsMsgsPlaced : Nat := 0x9849
/-- GS_PROBES. -/
def gsProbes : Nat := 0x984A
/-- GS_OVERFLOW_RECORDS. -/
def gsOverflowRecords : Nat := 0x984B
/-- GS_RUNS. -/
def gsRuns : Nat := 0x984C
/-- GS_DROP_FROZEN. -/
def gsDropFrozen : Nat := 0x984D
/-- GS_SATURATED. -/
def gsSaturated : Nat := 0x984E
/-- GS_LOG_FULL. -/
def gsLogFull : Nat := 0x984F
/-- UP_STEPS. -/
def upSteps : Nat := 0x9860
/-- UP_ABORTS. -/
def upAborts : Nat := 0x9861
/-- UP_ROWS_UPDATED. -/
def upRowsUpdated : Nat := 0x9862
/-- UP_ROWS_FROZEN. -/
def upRowsFrozen : Nat := 0x9863
/-- UP_OCC_FROZEN. -/
def upOccFrozen : Nat := 0x9864
/-- UP_LATE_HELD. -/
def upLateHeld : Nat := 0x9865
/-- UP_NONFINITE. -/
def upNonfinite : Nat := 0x9866
/-- UP_REQ_SATURATED. -/
def upReqSaturated : Nat := 0x9867
/-- UP_SCRATCH_SHORT. -/
def upScratchShort : Nat := 0x9868
/-- UP_PRECOND_RUNS. -/
def upPrecondRuns : Nat := 0x9869
/-- UP_SINGULAR. -/
def upSingular : Nat := 0x986A
/-- UP_REFRESH_ROWS. -/
def upRefreshRows : Nat := 0x986B
/-- UP_REFRESH_MISSES. -/
def upRefreshMisses : Nat := 0x986C
/-- FT_FAULTS. -/
def ftFaults : Nat := 0x9880
/-- FT_RECORDS. -/
def ftRecords : Nat := 0x9881
/-- FT_MERGED. -/
def ftMerged : Nat := 0x9882
/-- FT_LOST. -/
def ftLost : Nat := 0x9883
/-- FT_RESUMES. -/
def ftResumes : Nat := 0x9884
/-- FT_ABORTED. -/
def ftAborted : Nat := 0x9885
/-- FT_PARK_CYCLES. -/
def ftParkCycles : Nat := 0x9886
/-- FT_INV_DONE. -/
def ftInvDone : Nat := 0x9887
/-- FT_INV_REFUSED. -/
def ftInvRefused : Nat := 0x9888
/-- MD_HITS. -/
def mdHits : Nat := 0x9889
/-- MD_MISSES. -/
def mdMisses : Nat := 0x988A
/-- MD_WRITEBACKS. -/
def mdWritebacks : Nat := 0x988B
/-- MD_STREAM_BYPASS. -/
def mdStreamBypass : Nat := 0x988C
/-- MD_ECC_CORRECTED. -/
def mdEccCorrected : Nat := 0x988D
/-- MD_HINT_DECLINED. -/
def mdHintDeclined : Nat := 0x988E
/-- PF_LINES. -/
def pfLines : Nat := 0x988F
/-- PF_DROPPED. -/
def pfDropped : Nat := 0x9890
/-- CP_TILES. -/
def cpTiles : Nat := 0x98A0
/-- CP_BYTES. -/
def cpBytes : Nat := 0x98A1
/-- HS_HOST_READS. -/
def hsHostReads : Nat := 0x98A2
/-- HS_HOST_WRITES. -/
def hsHostWrites : Nat := 0x98A3
/-- HS_BISNP. -/
def hsBisnp : Nat := 0x98A4
/-- HS_FILTER_EVICTIONS. -/
def hsFilterEvictions : Nat := 0x98A5
/-- HS_FOREIGN_WRITES. -/
def hsForeignWrites : Nat := 0x98A6
/-- HS_WRITES_DISCARDED. -/
def hsWritesDiscarded : Nat := 0x98A7
/-- HS_RECORDS_DISCARDED. -/
def hsRecordsDiscarded : Nat := 0x98A8
/-- BF_GRANULES. -/
def bfGranules : Nat := 0x98A9
/-- BV_ACCESSES. -/
def bvAccesses : Nat := 0x98AA
/-- FN_ABORTED. -/
def fnAborted : Nat := 0x98AB
/-- DD_FLITS_TX. -/
def ddFlitsTx : Nat := 0x98C0
/-- DD_CRC_ERRORS. -/
def ddCrcErrors : Nat := 0x98C1
/-- DD_NAKS. -/
def ddNaks : Nat := 0x98C2
/-- DD_REPLAYS. -/
def ddReplays : Nat := 0x98C3
/-- DD_RETRAINS. -/
def ddRetrains : Nat := 0x98C4
/-- DD_LINK_RESETS. -/
def ddLinkResets : Nat := 0x98C5
/-- DD_PKTS_LOST. -/
def ddPktsLost : Nat := 0x98C6
/-- DD_FWD_DROPPED. -/
def ddFwdDropped : Nat := 0x98C7
/-- DD_CREDIT_STALL. -/
def ddCreditStall : Nat := 0x98C8
/-- RG_FLITS_TX. -/
def rgFlitsTx : Nat := 0x98E0
/-- RG_FEC_CORRECTED. -/
def rgFecCorrected : Nat := 0x98E1
/-- RG_FEC_UNCORRECTABLE. -/
def rgFecUncorrectable : Nat := 0x98E2
/-- RG_CRC_ERRORS. -/
def rgCrcErrors : Nat := 0x98E3
/-- RG_REPLAYS. -/
def rgReplays : Nat := 0x98E4
/-- RG_RETRAINS. -/
def rgRetrains : Nat := 0x98E5
/-- RG_PORT_DOWNS. -/
def rgPortDowns : Nat := 0x98E6
/-- RG_CREDIT_STALL. -/
def rgCreditStall : Nat := 0x98E7
/-- RG_ADAPTIVE. -/
def rgAdaptive : Nat := 0x98E8
/-- RG_UNREACH_SENT. -/
def rgUnreachSent : Nat := 0x98E9
/-- RG_UNREACH_LOST. -/
def rgUnreachLost : Nat := 0x98EA
/-- RG_DECLARED. -/
def rgDeclared : Nat := 0x98EB
/-- RG_PART_REFUSED. -/
def rgPartRefused : Nat := 0x98EC
/-- RG_BAD_TYPE. -/
def rgBadType : Nat := 0x98ED
/-- RG_PEG_ABORTS. -/
def rgPegAborts : Nat := 0x98EE
/-- PW_DROOPS. -/
def pwDroops : Nat := 0x9900
/-- PW_STRETCH_CYCLES. -/
def pwStretchCycles : Nat := 0x9901
/-- PW_FREQ_CHANGES. -/
def pwFreqChanges : Nat := 0x9902
/-- PW_FREQ_HELD_CYCLES. -/
def pwFreqHeldCycles : Nat := 0x9903
/-- PW_SOFT_STARTS. -/
def pwSoftStarts : Nat := 0x9904
/-- PW_THROTTLE_CYCLES. -/
def pwThrottleCycles : Nat := 0x9905
/-- PW_HEAVY_CYCLES. -/
def pwHeavyCycles : Nat := 0x9906
/-- PW_ARRAY_CYCLES. -/
def pwArrayCycles : Nat := 0x9907
/-- PW_PITCH_SECTORS. -/
def pwPitchSectors : Nat := 0x9908
/-- PW_RIDGE_SLOTS_TX. -/
def pwRidgeSlotsTx : Nat := 0x9909
/-- PW_RIDGE_SLOTS_RX. -/
def pwRidgeSlotsRx : Nat := 0x990A
/-- ERR_RECORDS. -/
def errRecords : Nat := 0x9920
/-- ERR_STAGING_LOST. -/
def errStagingLost : Nat := 0x9921
/-- ERR_RING_LOST. -/
def errRingLost : Nat := 0x9922
/-- ECC_CORRECTED. -/
def eccCorrected : Nat := 0x9923
/-- ECC_UNCORRECTED. -/
def eccUncorrected : Nat := 0x9924
/-- PARITY_ERRORS. -/
def parityErrors : Nat := 0x9925
/-- SACK_MISMATCH. -/
def sackMismatch : Nat := 0x9926
/-- SACK_ITEMS_REPLAYED. -/
def sackItemsReplayed : Nat := 0x9927
/-- SACK_ITEMS_LOST. -/
def sackItemsLost : Nat := 0x9928
/-- TRACE_LOST. -/
def traceLost : Nat := 0x9929
/-- POISON_READ. -/
def poisonRead : Nat := 0x992A
/-- POISON_NAN. -/
def poisonNan : Nat := 0x992B
/-- POISON_WRITTEN. -/
def poisonWritten : Nat := 0x992C
/-- UNITS_FAILED. -/
def unitsFailed : Nat := 0x992D
/-- ROWS_POISONED. -/
def rowsPoisoned : Nat := 0x992E
/-- DOORBELL_REJECTED. -/
def doorbellRejected : Nat := 0x992F
/-- SLOT_CHECK_FAILED. -/
def slotCheckFailed : Nat := 0x9930
/-- STALLED_EARLY. -/
def stalledEarly : Nat := 0x9931
/-- ST_OK_DROPS. -/
def stOkDrops : Nat := 0x9932
/-- ST_LATE. -/
def stLate : Nat := 0x9933
/-- ST_CANCELLED. -/
def stCancelled : Nat := 0x9934
/-- ST_HOST_LOST. -/
def stHostLost : Nat := 0x9935
/-- ST_DISABLED. -/
def stDisabled : Nat := 0x9936
/-- ST_SINGULAR. -/
def stSingular : Nat := 0x9937
/-- ST_OVERRANGE. -/
def stOverrange : Nat := 0x9938
/-- ST_UNSUPPORTED. -/
def stUnsupported : Nat := 0x9939
/-- ST_MALFORMED. -/
def stMalformed : Nat := 0x993A
/-- ST_D2D_DOWN. -/
def stD2dDown : Nat := 0x993B
/-- ST_UNREACHABLE. -/
def stUnreachable : Nat := 0x993C
/-- ST_TABLE_BUSY. -/
def stTableBusy : Nat := 0x993D
/-- ERR_CTX_RECORDS. -/
def errCtxRecords : Nat := 0x993E
/-- ERR_SHARED. -/
def errShared : Nat := 0x993F
end Ctr

namespace Obj
/-- DEVICE_NAME. -/
def deviceName : Nat := 0x1000 * 256 + 0x00
/-- VERSION_MAJOR. -/
def versionMajor : Nat := 0x1001 * 256 + 0x00
/-- VERSION_MINOR. -/
def versionMinor : Nat := 0x1001 * 256 + 0x01
/-- VERSION_PATCH. -/
def versionPatch : Nat := 0x1001 * 256 + 0x02
/-- DICT_LAYOUT. -/
def dictLayout : Nat := 0x1001 * 256 + 0x03
/-- PITCHES_BUILT. -/
def pitchesBuilt : Nat := 0x1002 * 256 + 0x00
/-- PITCHES_ENABLED. -/
def pitchesEnabled : Nat := 0x1002 * 256 + 0x01
/-- SLICES. -/
def slices : Nat := 0x1002 * 256 + 0x02
/-- CHIP_ID. -/
def chipId : Nat := 0x1003 * 256 + 0x00
/-- DIE_ID. -/
def dieId : Nat := 0x1003 * 256 + 0x01
/-- PACKAGE_SERIAL. -/
def packageSerial : Nat := 0x1003 * 256 + 0x02
/-- LICENSEE_ID. -/
def licenseeId : Nat := 0x1003 * 256 + 0x03
/-- STRAPS. -/
def straps : Nat := 0x1004 * 256 + 0x00
/-- QUEUES. -/
def queues : Nat := 0x1005 * 256 + 0x00
/-- CONTEXTS. -/
def contexts : Nat := 0x1005 * 256 + 0x01
/-- STREAMS. -/
def streams : Nat := 0x1005 * 256 + 0x02
/-- FUNCTIONS. -/
def functions : Nat := 0x1005 * 256 + 0x03
/-- TABLES. -/
def tables : Nat := 0x1005 * 256 + 0x04
/-- VENDOR_IANA. -/
def vendorIana : Nat := 0x1008 * 256 + 0x00
/-- BLOCK_STATE. -/
def blockState : Nat := 0x2000 * 256 + 0x00
/-- BOOT_RELEASE. -/
def bootRelease : Nat := 0x2000 * 256 + 0x01
/-- RWC_PENDING. -/
def rwcPending : Nat := 0x2000 * 256 + 0x02
/-- ALERT_STATUS. -/
def alertStatus : Nat := 0x2010 * 256 + 0x00
/-- ALERT_MASK. -/
def alertMask : Nat := 0x2010 * 256 + 0x01
/-- MGMT_REQUESTS. -/
def mgmtRequests : Nat := 0x2020 * 256 + 0x00
/-- MGMT_BUSY. -/
def mgmtBusy : Nat := 0x2020 * 256 + 0x01
/-- MGMT_DROPPED. -/
def mgmtDropped : Nat := 0x2020 * 256 + 0x02
/-- MGMT_LAST_SOURCE. -/
def mgmtLastSource : Nat := 0x2020 * 256 + 0x03
/-- CTX_ACCUM_MODE. -/
def ctxAccumMode : Nat := 0x2100 * 256 + 0x00
/-- PITCH_MASK. -/
def pitchMask : Nat := 0x3000 * 256 + 0x00
/-- PITCH_DUTY. -/
def pitchDuty : Nat := 0x3001 * 256 + 0x00
/-- PITCH_GRID_BYTES. -/
def pitchGridBytes : Nat := 0x3002 * 256 + 0x00
/-- PITCH_FRAGS_OUT. -/
def pitchFragsOut : Nat := 0x3003 * 256 + 0x00
/-- PITCH_BAGS_OPEN. -/
def pitchBagsOpen : Nat := 0x3004 * 256 + 0x00
/-- CTX_DIR_BASE. -/
def ctxDirBase : Nat := 0x4000 * 256 + 0x00
/-- XLAT_CYCLES. -/
def xlatCycles : Nat := 0x4000 * 256 + 0x01
/-- MDC_EN. -/
def mdcEn : Nat := 0x4010 * 256 + 0x01
/-- DESC_EN. -/
def descEn : Nat := 0x4010 * 256 + 0x02
/-- FAULT_EN. -/
def faultEn : Nat := 0x4010 * 256 + 0x03
/-- CACHE_INVALIDATE. -/
def cacheInvalidate : Nat := 0x4010 * 256 + 0x10
/-- PREFETCH_EN. -/
def prefetchEn : Nat := 0x4020 * 256 + 0x01
/-- PREFETCH_DEPTH. -/
def prefetchDepth : Nat := 0x4020 * 256 + 0x02
/-- HINT_EN. -/
def hintEn : Nat := 0x4030 * 256 + 0x01
/-- HOST_STATE. -/
def hostState : Nat := 0x5000 * 256 + 0x01
/-- HOST_MODE. -/
def hostMode : Nat := 0x5000 * 256 + 0x02
/-- LINK_WIDTH. -/
def linkWidth : Nat := 0x5000 * 256 + 0x03
/-- LINK_RATE. -/
def linkRate : Nat := 0x5000 * 256 + 0x04
/-- DETACH_LOG_BASE. -/
def detachLogBase : Nat := 0x5010 * 256 + 0x00
/-- DETACH_LOG_LOG2. -/
def detachLogLog2 : Nat := 0x5010 * 256 + 0x01
/-- DL_HEAD. -/
def dlHead : Nat := 0x5010 * 256 + 0x02
/-- DETACH_LOG. -/
def detachLog : Nat := 0x5010 * 256 + 0x03
/-- FN_QUEUE_FIRST. -/
def fnQueueFirst : Nat := 0x5100 * 256 + 0x00
/-- FN_QUEUE_COUNT. -/
def fnQueueCount : Nat := 0x5101 * 256 + 0x00
/-- FN_CTX_MASK. -/
def fnCtxMask : Nat := 0x5102 * 256 + 0x00
/-- FN_DISABLE. -/
def fnDisable : Nat := 0x5103 * 256 + 0x00
/-- D2D_DIE. -/
def d2dDie : Nat := 0x6000 * 256 + 0x00
/-- D2D_LEAD. -/
def d2dLead : Nat := 0x6000 * 256 + 0x01
/-- D2D_FEATURES_OWN. -/
def d2dFeaturesOwn : Nat := 0x6000 * 256 + 0x02
/-- D2D_FEATURE_MASK. -/
def d2dFeatureMask : Nat := 0x6000 * 256 + 0x03
/-- D2D_CHIP_FEATURES. -/
def d2dChipFeatures : Nat := 0x6000 * 256 + 0x04
/-- D2D_LINK_STATE. -/
def d2dLinkState : Nat := 0x6010 * 256 + 0x00
/-- D2D_MODULE_MAP. -/
def d2dModuleMap : Nat := 0x6011 * 256 + 0x00
/-- D2D_HALVES. -/
def d2dHalves : Nat := 0x6012 * 256 + 0x00
/-- D2D_DOWN_CAUSE. -/
def d2dDownCause : Nat := 0x6013 * 256 + 0x00
/-- D2D_PROTO. -/
def d2dProto : Nat := 0x6014 * 256 + 0x00
/-- D2D_PEER_REVISION. -/
def d2dPeerRevision : Nat := 0x6015 * 256 + 0x00
/-- D2D_ATTEMPTS. -/
def d2dAttempts : Nat := 0x6016 * 256 + 0x00
/-- D2D_RETRAIN. -/
def d2dRetrain : Nat := 0x6017 * 256 + 0x00
/-- D2D_LINK_RESET. -/
def d2dLinkReset : Nat := 0x6018 * 256 + 0x00
/-- RIDGE_REVISION. -/
def ridgeRevision : Nat := 0x7000 * 256 + 0x00
/-- PORT_CFG. -/
def portCfg : Nat := 0x7001 * 256 + 0x00
/-- PORT_ATTR. -/
def portAttr : Nat := 0x7002 * 256 + 0x00
/-- PORT_STATE. -/
def portState : Nat := 0x7003 * 256 + 0x00
/-- PORT_RETRAIN. -/
def portRetrain : Nat := 0x7004 * 256 + 0x00
/-- ROUTE_LOAD. -/
def routeLoad : Nat := 0x7010 * 256 + 0x00
/-- HOP_LIMIT. -/
def hopLimit : Nat := 0x7010 * 256 + 0x01
/-- PART_ID. -/
def partId : Nat := 0x7020 * 256 + 0x00
/-- PART_LOAD. -/
def partLoad : Nat := 0x7021 * 256 + 0x00
/-- CTX_PART. -/
def ctxPart : Nat := 0x7022 * 256 + 0x00
/-- MCAST_LOAD. -/
def mcastLoad : Nat := 0x7030 * 256 + 0x00
/-- REACH_IDLE. -/
def reachIdle : Nat := 0x7040 * 256 + 0x00
/-- REACH_WAIT. -/
def reachWait : Nat := 0x7040 * 256 + 0x01
/-- UNREACH_LIST. -/
def unreachList : Nat := 0x7040 * 256 + 0x02
/-- CLK_STATUS. -/
def clkStatus : Nat := 0x8000 * 256 + 0x00
/-- AON_CYCLES. -/
def aonCycles : Nat := 0x8000 * 256 + 0x01
/-- CORE_KHZ. -/
def coreKhz : Nat := 0x8000 * 256 + 0x02
/-- CORE_FLOOR_MHZ. -/
def coreFloorMhz : Nat := 0x8000 * 256 + 0x03
/-- RESET_WARM. -/
def resetWarm : Nat := 0x8010 * 256 + 0x00
/-- RESET_CAUSE. -/
def resetCause : Nat := 0x8010 * 256 + 0x01
/-- RESET_PORT. -/
def resetPort : Nat := 0x8011 * 256 + 0x00
/-- STRETCH_MODE. -/
def stretchMode : Nat := 0x8020 * 256 + 0x00
/-- THROTTLE_DUTY. -/
def throttleDuty : Nat := 0x8020 * 256 + 0x01
/-- KINDLE_MASK. -/
def kindleMask : Nat := 0x8020 * 256 + 0x02
/-- ENERGY_COEF. -/
def energyCoef : Nat := 0x9100 * 256 + 0x00
/-- STATIC_MW. -/
def staticMw : Nat := 0x9101 * 256 + 0x00
/-- ENERGY_CTX. -/
def energyCtx : Nat := 0x9200 * 256 + 0x00
/-- ENERGY_QUEUE. -/
def energyQueue : Nat := 0x9201 * 256 + 0x00
/-- ENERGY_BLOCK. -/
def energyBlock : Nat := 0x9202 * 256 + 0x00
/-- SLACK_LOG. -/
def slackLog : Nat := 0x9300 * 256 + 0x00
/-- SLACK_EWMA. -/
def slackEwma : Nat := 0x9301 * 256 + 0x00
/-- SLACK_LAST. -/
def slackLast : Nat := 0x9302 * 256 + 0x00
/-- SLACK_COUNT. -/
def slackCount : Nat := 0x9303 * 256 + 0x00
/-- SKETCH. -/
def sketch : Nat := 0x9A00 * 256 + 0x00
/-- SKETCH_CLEAR. -/
def sketchClear : Nat := 0x9A20 * 256 + 0x00
/-- COUNTER_CLEAR. -/
def counterClear : Nat := 0x9A21 * 256 + 0x00
/-- ERR_LOG. -/
def errLog : Nat := 0xA000 * 256 + 0x00
/-- ERR_LOG_WRITTEN. -/
def errLogWritten : Nat := 0xA000 * 256 + 0x01
/-- ERR_LOG_LOST. -/
def errLogLost : Nat := 0xA000 * 256 + 0x02
/-- ERR_LOG_CLEAR. -/
def errLogClear : Nat := 0xA000 * 256 + 0x03
/-- ERR_RING_BASE. -/
def errRingBase : Nat := 0xA010 * 256 + 0x00
/-- ERR_RING_LOG2. -/
def errRingLog2 : Nat := 0xA010 * 256 + 0x01
/-- ERR_RING_HEAD. -/
def errRingHead : Nat := 0xA010 * 256 + 0x02
/-- OVERRANGE. -/
def overrange : Nat := 0xA100 * 256 + 0x00
/-- SCRATCH. -/
def scratch : Nat := 0xF000 * 256 + 0x00
/-- PEEK_ADDR. -/
def peekAddr : Nat := 0xF001 * 256 + 0x00
/-- PEEK_DATA. -/
def peekData : Nat := 0xF001 * 256 + 0x01
/-- DIAG_ENABLE. -/
def diagEnable : Nat := 0xF002 * 256 + 0x00
/-- ECC_INJECT. -/
def eccInject : Nat := 0xF003 * 256 + 0x00
end Obj
end Sys2Proof.Machine
end

