-- ==== Sys2Proof/Machine/Ops.lean ====
section
/-! DEFINITION. The shared operations: counters, objects, error records, queues and descriptors, and how a command's effect
becomes an outcome. -/
namespace Sys2Proof.Machine

/-! ### Counters and energy events -/

/-- Add `n` to counter `c` at subindex `k` (R19, R378). -/
def bump (c k n : Nat) (b : Blk) : Blk :=
  { b with lan := { b.lan with cnt := b.lan.cnt.set (256 * c + k) ((b.lan.cnt.get 0 (256 * c + k) + n) % 2 ^ 64) } }

/-- The value of a counter. -/
def counter (b : Blk) (c k : Nat) : Nat := b.lan.cnt.get 0 (256 * c + k)

/-- Add `n` to a sparse table's entry. -/
def addAt (t : Tbl Nat) (k n : Nat) : Tbl Nat := t.set k (t.get 0 k + n)

/-- Note `n` energy events of kind `ev`, charged to a context and a queue where there is one (R349, R350). -/
def charge (ev n : Nat) (ctx q : Option Nat) (b : Blk) : Blk :=
  let l := b.lan
  { b with lan := { l with
      evBlk := addAt l.evBlk ev n,
      evCtx := match ctx with
        | some c => addAt l.evCtx (65536 * ev + c) n
        | none => l.evCtx,
      evQ := match q with
        | some k => addAt l.evQ (65536 * ev + k) n
        | none => l.evQ } }

/-! ### The die and its objects -/

/-- The value of a writable object, or its default. -/
def Blk.obj (b : Blk) (k dflt : Nat) : Nat := b.mg.val.get dflt k

def Blk.setObj (b : Blk) (k v : Nat) : Blk := { b with mg := { b.mg with val := b.mg.val.set k v } }

/-- Installed bytes of the die's memory (R210, R399). -/
def Blk.installed (b : Blk) : Nat := b.build.nStacks * b.build.memGib * 2 ^ 30

/-- Enabled pitches: the lowest-numbered built ones (R14, R371). -/
def Blk.pitchCount (b : Blk) : Nat :=
  min b.build.pitches (match b.straps.pitchLimit with
    | 0 => b.build.pitches
    | 1 => 24
    | 2 => 16
    | _ => 8)

/-- Groundsheet slices: four per stack (R2, R399). -/
def Blk.sliceCount (b : Blk) : Nat := 4 * b.build.nStacks

/-- D2D_MODULE_MAP of the link to die p (R291). -/
def Blk.moduleMap (b : Blk) (p : Nat) : Nat := b.obj (Obj.d2dModuleMap + p) (b.build.moduleMap.getD p 0)

/-- Die p is on the chip: this die, or one that modules are assigned to (R269; DEDUCED, log 10). -/
def Blk.diePresent (b : Blk) (p : Nat) : Bool := p = b.ident.die || (p < 4 && b.moduleMap p ≠ 0)

/-- The dies of the chip, in ascending order. -/
def Blk.dies (b : Blk) : List Nat := (List.range 4).filter b.diePresent

def Blk.link (b : Blk) (p : Nat) : Link := b.d2d.links.get {} p

def Blk.setLink (b : Blk) (p : Nat) (l : Link) : Blk := { b with d2d := { b.d2d with links := b.d2d.links.set p l } }

def Blk.linkUp (b : Blk) (p : Nat) : Bool := (b.link p).state == .up

def Blk.port_ (b : Blk) (s : Nat) : SubPort := b.ridge.ports.get {} s

def Blk.setPort (b : Blk) (s : Nat) (p : SubPort) : Blk :=
  { b with ridge := { b.ridge with ports := b.ridge.ports.set s p } }

def Blk.pitch (b : Blk) (p : Nat) : Pitch := b.pitches.get {} p

def Blk.setPitch (b : Blk) (p : Nat) (x : Pitch) : Blk := { b with pitches := b.pitches.set p x }

def Blk.slice (b : Blk) (n : Nat) : Slice := b.gs.slices.get {} n

def Blk.setSlice (b : Blk) (n : Nat) (x : Slice) : Blk := { b with gs := { b.gs with slices := b.gs.slices.set n x } }

/-- Put something on a port. -/
def emit (o : Out) (b : Blk) : Blk := { b with out := b.out ++ [o] }

/-- Partition slot of a context: CTX_PART, where that slot holds an ID (R311). -/
def Blk.ctxSlot (b : Blk) (c : Nat) : Option Nat :=
  let n := b.obj (Obj.ctxPart + c) 0xFF
  if n < 16 ∧ b.obj (Obj.partId + n) 0xFFFF ≠ 0xFFFF then some n else none

/-- The PART_ID that a context's packets carry (R312). -/
def Blk.ctxPartId (b : Blk) (c : Nat) : Nat :=
  match b.ctxSlot c with
  | some n => b.obj (Obj.partId + n) 0xFFFF
  | none => 0

/-- The slot that holds a partition ID (R313). -/
def Blk.slotOfPart (b : Blk) (part : Nat) : Option Nat :=
  (List.range 16).find? (fun n => b.obj (Obj.partId + n) 0xFFFF = part)

/-- The context bound to a slot (R311: at most one). -/
def Blk.ctxOfSlot (b : Blk) (n : Nat) : Option Nat := (List.range 64).find? (fun c => b.obj (Obj.ctxPart + c) 0xFF = n)

/-- The partition record of a slot. -/
def Blk.partRec (b : Blk) (n : Nat) : List Byte := (b.ridge.slots.get {} n).record

/-- Chip c is a member of the slot's partition. -/
def Blk.isMember (b : Blk) (slot c : Nat) : Bool := (byteAt (b.partRec slot) (128 + c / 8)).testBit (c % 8)

/-- Chips of a context's job (R311). -/
def Blk.chipsOf (b : Blk) (c : Nat) : Nat :=
  match b.ctxSlot c with
  | some n => field (b.partRec n) 4 2
  | none => 1

/-- The chip feature set that an operator's check uses (R288). -/
def Blk.features (b : Blk) : Nat :=
  if b.dies.length ≤ 1 then 0x3F &&& b.obj Obj.d2dFeatureMask 0x3F else b.d2d.features

/-- The slots being retired, and other small guards, name a table by context and ID. -/
def tabKey (ctx table : Nat) : Nat := 4096 * ctx + table

/-- AON_CYCLES (R333). -/
def Blk.aonCycles (b : Blk) : Nat := b.clk.aon

/-! ### Error records -/

/-- Enter a record in the error staging sack (R391, R393, R396). -/
def raise (r : ErrRec) (b : Blk) : Blk :=
  let r := { r with aon := b.clk.aon % 2 ^ 64, die := b.ident.die }
  let full := decide (64 ≤ b.err.staging.length)
  let st := if full then b.err.staging.drop 1 else b.err.staging
  let b := { b with err := { b.err with
              staging := st ++ [(r, b.clk.half)],
              errLost := b.err.errLost + (if full then 1 else 0) } }
  let b := bump Ctr.errRecords 0 1 b
  let b := if full then bump Ctr.errStagingLost 0 1 b else b
  let b := match r.ctx with
    | some c => bump Ctr.errCtxRecords c 1 b
    | none => b
  if r.shared then bump Ctr.errShared 0 1 b else b

/-- A structure meets an uncorrectable error (R382). -/
def eccRecord (unit inst struct entry : Nat) (ctx : Option Nat) (recovered : Bool) (b : Blk) : Blk :=
  bump Ctr.eccUncorrected 0 1
    (raise { cause := 0x10, ctx := ctx, unit := unit, inst := inst, detail := struct, detail2 := entry, recovered := recovered } b)

/-- A write to a structure takes the error that ECC_INJECT has armed for it: 0 where there is none (R381). -/
def takeInject (struct : Nat) (b : Blk) : Blk × Nat :=
  match b.err.inject.find? (fun e => e.1 = struct) with
  | some e => ({ b with err := { b.err with inject := b.err.inject.erase e } }, e.2)
  | none => (b, 0)

/-- Set a bit of ALERT_STATUS (R376). -/
def alert (bit : Nat) (b : Blk) : Blk :=
  b.setObj Obj.alertStatus (b.obj Obj.alertStatus 0 ||| 2 ^ bit)

/-- The bytes of an error record (R391). -/
def errBytes (r : ErrRec) : List Byte :=
  toLe 1 r.cause
    ++ toLe 1 (boolNat r.ctx.isSome + 2 * boolNat r.queue.isSome + 4 * boolNat r.shared + 8 * boolNat r.recovered + 64 * r.die)
    ++ toLe 1 (r.ctx.getD 0xFF) ++ toLe 1 (r.queue.getD 0xFF) ++ toLe 2 r.seq ++ toLe 1 r.unit ++ toLe 1 r.inst
    ++ toLe 8 r.detail ++ toLe 8 r.aon ++ toLe 8 r.detail2

/-! ### Queues and descriptors -/

def Blk.q (b : Blk) (n : Nat) : Queue := b.front.queues.get {} n

def Blk.setQ (b : Blk) (n : Nat) (x : Queue) : Blk := { b with front := { b.front with queues := b.front.queues.set n x } }

def Blk.modQ (b : Blk) (n : Nat) (f : Queue → Queue) : Blk := b.setQ n (f (b.q n))

/-- Fields of QCFG (R27). -/
def Queue.ringLog2 (x : Queue) : Nat := bitsOf x.cfg.toNat 4 0
def Queue.ringSize (x : Queue) : Nat := 2 ^ x.ringLog2
def Queue.cqLog2 (x : Queue) : Nat := bitsOf x.cfg.toNat 12 8
def Queue.cqSize (x : Queue) : Nat := 2 ^ x.cqLog2
def Queue.ctx (x : Queue) : Nat := bitsOf x.cfg.toNat 21 16
def Queue.die (x : Queue) : Nat := bitsOf x.cfg.toNat 23 22
def Queue.stream (x : Queue) : Nat := bitsOf x.cfg.toNat 31 24
def Queue.listLen (x : Queue) : Nat := bitsOf x.cfg.toNat 47 32
def Queue.persistent (x : Queue) : Bool := x.cfg.toNat.testBit 48
def Queue.weight (x : Queue) : Nat := bitsOf x.cfg.toNat 59 56
/-- Bound to a real-time stream. -/
def Queue.rt (x : Queue) : Bool := decide (x.stream < 8)
/-- Slots of the ring, or of the list of a persistent queue. -/
def Queue.span (x : Queue) : Nat := if x.persistent then x.listLen + 1 else x.ringSize
/-- The class of the queue's work: its stream, or 8 for batch (R38). -/
def Queue.prio (x : Queue) : Nat := if x.rt then x.stream else 8
/-- The phase expected in the next slot (R33). -/
def Queue.phase (x : Queue) : Bool := x.persistent || x.fetch / x.ringSize % 2 = 0
/-- QSTATUS.STATE (R27). -/
def QState.code : QState → Nat
  | .unbound => 0
  | .stopped => 1
  | .running => 2
  | .stalledEarly => 3
  | .detached => 4
  | .draining => 5
  | .bindErr => 6

/-- Header fields of a descriptor (R31). -/
def Desc.opcode (d : Desc) : Nat := byteAt d.bytes 0
def Desc.flags (d : Desc) : Nat := byteAt d.bytes 1
def Desc.pegInc (d : Desc) : Bool := d.flags.testBit 1
def Desc.tagged (d : Desc) : Bool := d.flags.testBit 2
def Desc.keepOrder (d : Desc) : Bool := d.flags.testBit 3
def Desc.pegGroup (d : Desc) : Nat := bitsOf d.flags 7 4
def Desc.seq (d : Desc) : Nat := field d.bytes 2 2
def Desc.streamB (d : Desc) : Nat := byteAt d.bytes 4
def Desc.pegMask (d : Desc) : Nat := byteAt d.bytes 5
def Desc.len (d : Desc) : Nat := byteAt d.bytes 6
/-- A field of the body. -/
def Desc.f (d : Desc) (off n : Nat) : Nat := field d.bytes off n

def Blk.desc? (b : Blk) (id : Nat) : Option Desc := b.front.descs.find? (fun d => d.id = id)

/-- Change descriptor `id` wherever it stands. -/
def Blk.modDesc (b : Blk) (id : Nat) (f : Desc → Desc) : Blk :=
  { b with front := { b.front with descs := b.front.descs.map (fun d => if d.id = id then f d else d) } }

/-- The descriptors of a queue, in fetch order. -/
def Blk.descsOf (b : Blk) (n : Nat) : List Desc := b.front.descs.filter (fun d => d.q = n)

/-- QSTATUS.INFLIGHT (R27). -/
def Blk.inflight (b : Blk) (n : Nat) : Nat := (b.descsOf n).length

/-- Status codes of R40. -/
def Status.code : Status → Nat
  | .ok => 0x00
  | .okDrops => 0x01
  | .late => 0x02
  | .cancelled => 0x03
  | .hostLost => 0x04
  | .disabled => 0x05
  | .singular => 0x06
  | .overrange => 0x07
  | .unsupported => 0x08
  | .malformed => 0x09
  | .d2dDown => 0x0A
  | .unreachable => 0x0B
  | .tableBusy => 0x0C
  | .stalledEarly => 0x0D

/-- Note that a status applies to a descriptor (R40). -/
def addStatus (id : Nat) (s : Status) (b : Blk) : Blk :=
  b.modDesc id (fun d => if d.statuses.contains s then d else { d with statuses := d.statuses ++ [s] })

/-! ### Ramps and completion -/

/-- Change the array of every enabled pitch. -/
def modArrays (f : Nat → ArraySt → ArraySt) (b : Blk) : Blk :=
  (List.range b.pitchCount).foldl (fun b p => b.setPitch p { b.pitch p with arr := f p (b.pitch p).arr }) b

/-- The stagger of a soft-start trigger: pitch k begins its ramp 8k CK_CORE cycles later. A ramp that already runs, or is about to,
is not lengthened (R341, DEDUCED, log 99). -/
def startRamps (b : Blk) : Blk :=
  let now := b.clk.core
  modArrays (fun k a => if a.ramp == .full && a.startAt.isNone then { a with startAt := some (now + 8 * k) } else a) b

/-- A block-wide soft-start trigger (R341). -/
def blockRamp (b : Blk) : Blk := bump Ctr.pwSoftStarts 0 1 (startRamps b)

/-- The trigger of a completed PEG_LOCAL or PEG_GLOBAL (R341): no pass is in progress between two commands. -/
def pegRamp (b : Blk) : Blk := bump Ctr.pwSoftStarts 0 1 (startRamps b)

/-- The precedence of R40, weightiest first. -/
def precedence : List Status :=
  [.disabled, .hostLost, .cancelled, .late, .d2dDown, .unreachable, .malformed, .unsupported, .tableBusy, .overrange,
   .singular, .okDrops, .ok]

/-- Every status that applies: those noted, and OK_DROPS where items were dropped. -/
def Desc.applying (d : Desc) : List Status :=
  if d.dropped > 0 ∧ !(d.statuses.contains .okDrops) then d.statuses ++ [.okDrops] else d.statuses

/-- The status of the record (R40). -/
def recordStatus (l : List Status) : Status := (precedence.find? (fun s => l.contains s)).getD .ok

/-- The slack record of a PEG_GLOBAL that completes, and the three values of R352. -/
def slackRecord (d : Desc) (b : Blk) : Blk :=
  let ctx := (b.q d.q).ctx
  let st := recordStatus d.applying
  let parts := b.chipsOf ctx * b.dies.length
  let sent := match d.work with
    | .peg w => w.sentAt
    | _ => none
  let wait := match sent with
    | some t => b.clk.core - t
    | none => 0
  let r : Slack := { gen := d.f 16 4, barrier := d.f 10 1 % 16, status := st.code, rank := d.aux, participants := parts,
                     wait := wait, aon := b.clk.aon }
  let l := b.lan
  let log := Tbl.get [] l.slack ctx ++ [r]
  let l := { l with slack := Tbl.set l.slack ctx (log.drop (log.length - 64)) }
  let l :=
    if st = .ok then
      let ew := Tbl.get 0 l.ewma ctx
      { l with
        ewma := Tbl.set l.ewma ctx ((ew - ew / 16 + wait / 16) % 2 ^ 64)
        count := addAt l.count ctx 1
        last := if d.aux + 1 = parts then addAt l.last ctx 1 else l.last }
    else l
  { b with lan := l }

/-- The barrier instance of a PEG_GLOBAL, or of a STEP that arrives at one: barrier and generation (R51, R173). -/
def Desc.instance_ (d : Desc) : Option (Nat × Nat) :=
  if d.opcode = 0x03 then some (d.f 10 1 % 16, d.f 16 4)
  else if d.opcode = 0x22 ∧ (d.f 10 1).testBit 7 = false then some (d.f 10 1 % 16, d.f 12 4)
  else none

/-- An instance has completed at this block (R51). -/
def noteInstance (d : Desc) (b : Blk) : Blk :=
  match d.instance_ with
  | some (bar, gen) => { b with front := { b.front with barDone := b.front.barDone.set (16 * (b.q d.q).ctx + bar) gen } }
  | none => b

/-- A PRECOND that completes, and a STEP that completes without phase two, are counted (R203). -/
def countUpdate (d : Desc) (b : Blk) : Blk :=
  let ctx := (b.q d.q).ctx
  if d.opcode = 0x23 then bump Ctr.upPrecondRuns ctx 1 b
  else if d.opcode = 0x22 then
    match d.work with
    | .step r _ => if r.ran then b else bump Ctr.upAborts ctx 1 b
    | _ => bump Ctr.upAborts ctx 1 b
  else b

/-- The descriptor is complete: its record joins the queue's records to write (R39, R42). A peg's completion restarts the
arrays' ramps (R341), and a PEG_GLOBAL's is logged (R351);
one that is not OK carries AUX 0xFFFFFFFF (R52). -/
def complete1 (id : Nat) (b : Blk) : Blk :=
  match b.desc? id with
  | none => b
  | some d0 =>
    if d0.stage = .complete then b
    else
      let d := if d0.opcode = 0x03 ∧ recordStatus d0.applying ≠ .ok then { d0 with aux := 0xFFFFFFFF } else d0
      let b := b.modDesc id (fun _ => d)
      let b := if d.opcode = 0x03 then slackRecord d b else b
      let b := noteInstance d (b.modDesc id (fun d => { d with stage := .complete, work := .none }))
      let b := countUpdate d0 (if d.opcode = 0x02 ∨ d.opcode = 0x03 then pegRamp b else b)
      b.modQ d.q (fun x => { x with recq := x.recq ++ [.desc id] })

/-- AUX of a descriptor that ends without doing its work: a PEG_LOCAL's counter as it stands (R50). -/
def idleAux (b : Blk) (d : Desc) : Nat :=
  if d.opcode = 0x02 ∧ d.bad = false then (b.front.pegs.get 0 (64 * (b.q d.q).ctx + d.f 9 1)).toNat % 2 ^ 32 else d.aux

/-- The same, for any descriptor: when it is a PERIOD that opened no period, the tagged descriptors behind it complete with
LATE (R55). -/
def complete (id : Nat) (b : Blk) : Blk :=
  let late := (b.front.descs.filter (fun d => d.behind = some id)).map (·.id)
  late.foldl (fun b i => complete1 i ((addStatus i .late b).modDesc i (fun d => { d with aux := idleAux b d }))) (complete1 id b)

/-- Complete with a status, AUX and DROPPED. -/
def completeWith (id : Nat) (s : Status) (aux dropped : Nat) (b : Blk) : Blk :=
  complete id ((addStatus id s b).modDesc id (fun d => { d with aux := aux, dropped := dropped }))

/-- The unit of work and its access are parked (R220). -/
def Blk.isParked (b : Blk) (u : UnitRef) : Bool := b.xlat.parked.any (fun p => p.unit = u)

/-- The first descriptor of a queue with one of these opcodes that has been handed to its unit and not yet taken, and is not
parked. -/
def handedOf (b : Blk) (n : Nat) (ops : List Nat) : Option Desc :=
  (b.descsOf n).find? (fun d => d.stage == .handed && ops.contains d.opcode && !b.isParked (.desc d.id))

/-- Change a running unit. -/
def Blk.unit? (b : Blk) (uid : Nat) : Option Unit := b.units.find? (fun u => u.uid = uid)
def Blk.modUnit (b : Blk) (uid : Nat) (f : Unit → Unit) : Blk :=
  { b with units := b.units.map (fun u => if u.uid = uid then f u else u) }
def Blk.modBag (b : Blk) (tag : Nat) (f : Bag → Bag) : Blk :=
  { b with bags := b.bags.map (fun x => if x.tag = tag then f x else x) }

/-- An error record against a descriptor. -/
def Desc.err (d : Desc) (b : Blk) (cause unit detail detail2 : Nat) : ErrRec :=
  { cause := cause, ctx := some (b.q d.q).ctx, queue := some d.q, seq := d.seq, unit := unit, detail := detail,
    detail2 := detail2 }

/-! ### What holds all the time -/

/-- Class bits that the heavy-phase requests of all queues assert now (R61). -/
def heavyNow (b : Blk) : Nat :=
  (b.front.heavy.filter (fun h => b.clk.core < h.fin)).foldl (fun a h => a ||| h.cls) 0

/-- The level of HEAVY_AHEAD (R348). -/
def heavyLevel (b : Blk) : Bool := b.pw.phase == .ready && (heavyNow b &&& b.obj Obj.kindleMask 0x0F) ≠ 0

/-- The level of ALERT_N (R376): high unless an unmasked cause stands. -/
def alertLevel (b : Blk) : Bool := (b.obj Obj.alertStatus 0 &&& b.obj Obj.alertMask 0xFF) == 0

/-- A queue that a STOP is bringing down, or that re-attaches, is STOPPED once nothing of it is in flight (R407, R263). -/
def settleQueue (descs : List Desc) (n : Nat) (x : Queue) : Queue :=
  let idle := !(descs.any (fun d => d.q = n))
  if idle && x.stopping && (x.st == .running || x.st == .stalledEarly) then
    { x with st := .stopped, stopping := false, burst := none, poll := none }
  else if idle && x.reattach && x.st == .detached then { x with st := .stopped, reattach := false }
  else x

def settleQueues (descs : List Desc) (qs : Tbl Queue) : Tbl Queue := qs.map (fun e => (e.1, settleQueue descs e.1 e.2))

/-- What follows from every event at once: queues reach STOPPED, and the level pins follow their registers. The memories
are kept in canonical form. -/
def Blk.settle (b : Blk) : Blk :=
  { b with
    mem := b.mem.norm
    hostMem := b.hostMem.norm
    front := { b.front with queues := settleQueues b.front.descs b.front.queues }
    pw := { b.pw with heavyAhead := heavyLevel b, alertN := alertLevel b } }

/-- A command's outcome: its effect where its operands name something of this hardware. -/
def fire (ok : Bool) (f : Blk → Blk) (s : State) : Host.Outcome State Fault Refusal :=
  if ok then .next { s with b := (f s.b).settle } else .fault .operand

/-- The same for an event that only a block past READY meets (R334, R335): before that it is ignored. -/
def fireReady (ok : Bool) (f : Blk → Blk) (s : State) : Host.Outcome State Fault Refusal :=
  fire ok (fun b => if b.pw.phase = .ready then f b else b) s

end Sys2Proof.Machine
end

