-- ==== Sys2Proof/Machine/Net.lean ====
section
/-! DEFINITION. How packets leave the die: flits of the die-to-die link (R273, R280, R281) and of the Ridge (R300), and the
one operation that sends a message to a chip and die. -/
namespace Sys2Proof.Machine

/-- The class that a packet carries (R38, R301). -/
structure Cls where
  rt : Bool := false
  stream : Nat := 0
  ctx : Nat := 0
  /-- The bias of the host granule that the access meets: SHARED (R246). -/
  shared : Bool := false
deriving DecidableEq, Repr, Inhabited

def Cls.prio (c : Cls) : Nat := if c.rt then c.stream else 8

/-- The class of a queue's work. -/
def clsOf (b : Blk) (q : Nat) : Cls :=
  let x := b.q q
  { rt := x.rt, stream := if x.rt then x.stream else 0, ctx := x.ctx }

/-! ### The die-to-die link -/

/-- A flit of 256 bytes (R273). -/
def d2dFlitBytes (seq ftype ack : Nat) (nak : Bool) (vc units first : Nat) (slots : List Byte) : List Byte :=
  let h := toLe 2 (seq + 4096 * ftype) ++ toLe 2 (ack + 4096 * boolNat nak)
    ++ toLe 2 (if units = 0 then 0 else vc + 8 + 16 * units) ++ toLe 2 0 ++ toLe 1 first ++ toLe 5 0
  h ++ toLe 2 (crc16 h) ++ padTo 240 slots

/-- The bytes of a die-to-die packet: header slot and body slots (R274). -/
def d2dPktBytes (src dst : Nat) (k : DPkt) : List Byte :=
  let body := pad16 k.body
  let h := toLe 1 k.ptype ++ toLe 1 k.vc ++ toLe 2 (body.length / 16) ++ toLe 1 (src + 4 * dst) ++ toLe 9 0
  h ++ toLe 2 (crc16 (h ++ body)) ++ body

/-- 16-byte units of a packet, header included. -/
def DPkt.units (k : DPkt) : Nat := 1 + (pad16 k.body).length / 16

/-- The ACK_SEQ that a side sends: the last flit accepted. -/
def lastSeq (next : Nat) : Nat := (next + 4095) % 4096

/-- The ACK_SEQ of a die-to-die link: flits of which every packet has passed (R281). -/
def Link.ackSeq (l : Link) : Nat := lastSeq (if l.rxBuf.isEmpty then l.rxNext else l.rxStart)

/-- Cut a packet's bytes into flits numbered from `seq`. -/
def cutFlits (seq : Nat) (bytes : List Byte) : List FlitR :=
  let ps := pieces 240 bytes
  (List.range ps.length).map (fun i =>
    { seq := (seq + i) % 4096, first := if i = 0 then 0 else 15, slots := ps.getD i [] })

/-- Send a packet's flits and keep them for replay (R281). -/
def d2dEmit (p : Nat) (k : DPkt) (b : Blk) : Blk :=
  let l := b.link p
  let fl := cutFlits l.txSeq (d2dPktBytes b.ident.die p k)
  let l := { l with
    txSeq := (l.txSeq + fl.length) % 4096,
    replay := l.replay ++ fl,
    credits := l.credits.set k.vc (l.credits.getD k.vc 0 - k.units),
    inFlight := l.inFlight ++ [((l.txSeq + fl.length + 4095) % 4096, k)] }
  let b := b.setLink p l
  let outs := fl.map (fun f => Out.d2dFlit p (d2dFlitBytes f.seq 0 l.ackSeq false 0 0 f.first f.slots))
  charge 0x0D fl.length none none (bump Ctr.ddFlitsTx p fl.length { b with out := b.out ++ outs })

/-- A waiting packet may start: credits for all of it, room in the replay buffer, and no earlier packet of its channel and
class waits (R280, R281). -/
def d2dEligible (l : Link) (before : List DPkt) (k : DPkt) : Bool :=
  decide (k.units ≤ l.credits.getD k.vc 0) && decide (l.replay.length + ceilDiv (16 * k.units) 240 ≤ 512)
    && !(before.any (fun e => e.vc = k.vc && e.prio ≤ k.prio))

/-- The next packet to start: among the eligible the real-time streams first (R38), then the oldest. -/
def d2dPick (l : Link) (w : List DPkt) : Option Nat :=
  let cand := (List.range w.length).filter (fun i => d2dEligible l (w.take i) (w.getD i default))
  cand.foldl (fun acc i => match acc with
    | none => some i
    | some j => if (w.getD i default).prio < (w.getD j default).prio then some i else some j) none

/-- Start waiting packets while the link is UP and credits last. -/
def d2dPump (p : Nat) : Nat → Blk → Blk
  | 0, b => b
  | n + 1, b =>
    let l := b.link p
    if l.state = .up then
      match d2dPick l l.wait with
      | none => b
      | some i => d2dPump p n (d2dEmit p (l.wait.getD i default) (b.setLink p { l with wait := l.wait.eraseIdx i }))
    else b

/-- Queue a packet for die p and start what can start; there is no link to carry it on one that is DOWN (R285). -/
def d2dSend (p : Nat) (k : DPkt) (b : Blk) : Blk :=
  let l := b.link p
  match l.state with
  | .absent | .down => b
  | .up | .training => d2dPump p (l.wait.length + 1) (b.setLink p { l with wait := l.wait ++ [k] })

/-- An IDLE flit: an acknowledgement, and credits returned (R273, R280). -/
def d2dIdle (p vc units : Nat) (nak : Bool) (ack : Nat) (b : Blk) : Blk :=
  emit (.d2dFlit p (d2dFlitBytes 0 1 ack nak vc units 15 [])) b

/-! ### The Ridge -/

/-- A Ridge flit of 256 bytes (R300). -/
def ridgeFlitBytes (seq ftype ack : Nat) (nak : Bool) (vc sub units first : Nat) (slots : List Byte) : List Byte :=
  let h := toLe 2 (seq + 4096 * ftype) ++ toLe 2 (ack + 4096 * boolNat nak)
    ++ toLe 2 (if units = 0 then 0 else vc + 8 * sub + 16 + 32 * units) ++ toLe 2 0 ++ toLe 1 first ++ toLe 3 0
    ++ padTo 240 slots
  h ++ toLe 4 (crc32 h)

/-- 16-byte units of a Ridge packet. -/
def RPkt.units (k : RPkt) : Nat := 1 + (pad16 k.body).length / 16

/-- Index of a channel's sub-channel among the credit counts (R297). -/
def subIdx (vc sub : Nat) : Nat := 2 * vc + sub

/-- Send a packet's flits on a sub-port and keep them for replay. -/
def ridgeEmit (sp : Nat) (k : RPkt) (b : Blk) : Blk :=
  let s := b.port_ sp
  let inj := takeInject 6 b
  let b := inj.1
  let fl := (cutFlits s.txSeq (encHdr k.h ++ pad16 k.body)).map (fun f => { f with ecc := inj.2 })
  let i := subIdx k.h.vc k.h.sub
  let s := { s with
    txSeq := (s.txSeq + fl.length) % 4096,
    replay := s.replay ++ fl,
    credits := s.credits.set i (s.credits.getD i 0 - k.units),
    inFlight := s.inFlight ++ [((s.txSeq + fl.length + 4095) % 4096, k)] }
  let outs := fl.map (fun f => Out.ridgeFlit sp (ridgeFlitBytes f.seq 0 (lastSeq s.rxNext) false 0 0 0 f.first f.slots))
  let b := bump Ctr.rgFlitsTx sp fl.length { b.setPort sp s with out := b.out ++ outs }
  let ctx := match b.slotOfPart k.h.part with
    | some n => if k.h.vc = 5 then none else b.ctxOfSlot n
    | none => none
  let b := match ctx with
    | some c => bump Ctr.pwRidgeSlotsTx c k.units b
    | none => b
  charge 0x0B k.units ctx none b

/-- An IDLE flit on a sub-port. -/
def ridgeIdle (sp vc sub units : Nat) (nak : Bool) (ack : Nat) (b : Blk) : Blk :=
  emit (.ridgeFlit sp (ridgeFlitBytes 0 1 ack nak vc sub units 15 [])) b

/-! ### Sending -/

/-- Why a chip and die cannot be reached now, for work of context `ctx` (R210, R285, R312, R316). -/
def reachFail (b : Blk) (ctx chip die : Nat) : Option Status :=
  if chip = b.ident.chip then
    if die = b.ident.die then none
    else if b.diePresent die && ((b.link die).state == .up || (b.link die).state == .training) then none
    else some .d2dDown
  else
    match b.ctxSlot ctx with
    | none => some .unreachable
    | some n =>
      if !(b.isMember n chip) then some .unreachable
      else if b.ridge.declared.any (fun e => e.1 = chip) then some .unreachable
      else none

/-- A transaction of context `ctx` fails with D2D_DOWN on a link that is held DOWN: the context's record, once while it is held
(R394). -/
def noteHeld (ctx p : Nat) (b : Blk) : Blk :=
  let l := b.link p
  if l.state == .down && !(l.told.contains ctx) then
    raise { cause := 0x09, ctx := some ctx, shared := true, unit := 6, inst := p, detail := l.cause }
      (b.setLink p { l with told := ctx :: l.told })
  else b

/-- `reachFail` for a transaction that fails where it answers a status: the record of R394 is made. -/
def tryReach (ctx chip die : Nat) (b : Blk) : Blk × Option Status :=
  match reachFail b ctx chip die with
  | some .d2dDown => (noteHeld ctx die b, some .d2dDown)
  | r => (b, r)

/-- Watch a chip from which an answer is awaited (R315). -/
def watch (chip : Nat) (b : Blk) : Blk :=
  if chip = b.ident.chip then b
  else if b.ridge.reach.any (fun e => e.1 = chip) then b
  else { b with ridge := { b.ridge with reach := b.ridge.reach.set chip { last := b.clk.aon } } }

/-- Queue a Ridge packet for routing (R308). -/
def ridgeQueue (k : RPkt) (b : Blk) : Blk := { b with ridge := { b.ridge with txq := b.ridge.txq ++ [k] } }

/-- Send a message to a chip and die: to this die's own port sack, over the die-to-die link, or onto the Ridge. The caller
has checked that it can be reached. -/
def sendMsg (chip die : Nat) (c : Cls) (m : Msg) (b : Blk) : Blk :=
  let e := encMsg m
  if chip = b.ident.chip then
    if die = b.ident.die then
      { b with port := b.port ++ [{ msg := m, chip := chip, die := die, via := .local, rt := c.rt, stream := c.stream,
                                    part := 0 }] }
    else d2dSend die { ptype := e.1, vc := d2dVc e.1, body := e.2, prio := c.prio } b
  else
    let vc := ridgeVc e.1
    ridgeQueue { h := { ptype := e.1, vc := vc, len := (pad16 e.2).length / 16, dst := chipDie chip die,
                        src := chipDie b.ident.chip b.ident.die, part := if vc = 5 then 0 else b.ctxPartId c.ctx,
                        rt := c.rt, stream := c.stream },
                 body := e.2 } b

/-- Answer a packet, in the class of the request (R301). -/
def answer (r : Rx) (m : Msg) (b : Blk) : Blk :=
  let e := encMsg m
  if r.chip = b.ident.chip then
    sendMsg r.chip r.die { rt := r.rt, stream := r.stream } m b
  else
    let vc := ridgeVc e.1
    ridgeQueue { h := { ptype := e.1, vc := vc, len := (pad16 e.2).length / 16, dst := chipDie r.chip r.die,
                        src := chipDie b.ident.chip b.ident.die, part := if vc = 5 then 0 else r.part,
                        rt := r.rt, stream := r.stream },
                 body := e.2 } b

/-- Return the credits of a die-to-die buffer: at once on an UP link, after the training on one that keeps its state (R280, R283;
DEDUCED, log 98). -/
def giveD2d (p vc units : Nat) (b : Blk) : Blk :=
  let l := b.link p
  match l.state with
  | .up => d2dIdle p vc units false l.ackSeq b
  | .training => if l.keep && units ≠ 0 then b.setLink p { l with owed := l.owed ++ [(vc, units)] } else b
  | .absent | .down => b

/-- The same for a Ridge buffer (R298, R303). -/
def giveRidge (sp vc sub units : Nat) (b : Blk) : Blk :=
  let s := b.port_ sp
  match s.state with
  | .up => ridgeIdle sp vc sub units false (lastSeq s.rxNext) b
  | .training => if s.retraining && units ≠ 0 then b.setPort sp { s with owed := s.owed ++ [(vc, sub, units)] } else b
  | .down | .disabled => b

/-- Release a packet from the port sack: its buffer's credits go back (R280, R387). -/
def release (r : Rx) (b : Blk) : Blk :=
  match r.via with
  | .local => b
  | .d2d p => giveD2d p r.vc r.units b
  | .ridge sp => giveRidge sp r.vc r.sub r.units b

/-- The partner counts its credits afresh: what came over the link before returns none. -/
def creditless (v : Via) (b : Blk) : Blk :=
  { b with port := b.port.map (fun r => if r.via = v then { r with units := 0 } else r) }

/-- Priority of a packet: streams in ascending order, then batch (R38). -/
def Rx.prio (r : Rx) : Nat := if r.rt then r.stream else 8

/-- Of the candidates the one of the best class, oldest first. -/
def bestBy {α : Type} (prio : α → Nat) (l : List α) : Option α :=
  l.foldl (fun acc x => match acc with
    | none => some x
    | some y => if prio x < prio y then some x else some y) none

/-- The packet of the port sack that goes first among those that satisfy a test, and its place: the best class (R38), then the
oldest. -/
def oldest (b : Blk) (f : Rx → Bool) : Option (Nat × Rx) :=
  bestBy (fun e => e.2.prio) (((List.range b.port.length).zip b.port).filter (fun e => f e.2))

/-- Take a packet out of the port sack. -/
def takeRx (i : Nat) (r : Rx) (b : Blk) : Blk := release r { b with port := b.port.eraseIdx i }

/-- The home at the other end of a transaction answered: note that the chip is alive (R315). -/
def heard (chip : Nat) (b : Blk) : Blk :=
  { b with ridge := { b.ridge with
      reach := b.ridge.reach.map (fun e => if e.1 = chip then (e.1, { last := b.clk.aon }) else e),
      declared := b.ridge.declared.del chip } }

end Sys2Proof.Machine
end

