-- ==== Sys2Proof/Machine/Access.lean ====
section
/-! DEFINITION. Reading and writing: physical accesses (R210, R244 to R246), the caches of R228 and R234, translation (R204 to
R209), faults and parking (R212 to R220). -/
namespace Sys2Proof.Machine

/-! ### Physical addresses -/

/-- Fields of a fabric physical address (R210). -/
def paOff (pa : Nat) : Nat := pa % 2 ^ 46
def paDie (pa : Nat) : Nat := bitsOf pa 47 46
def paChip (pa : Nat) : Nat := bitsOf pa 61 48

/-- The fabric physical address of an offset on a die. -/
def mkPa (chip die off : Nat) : Nat := off % 2 ^ 46 + die % 4 * 2 ^ 46 + chip % 16384 * 2 ^ 48

def Blk.selfPa (b : Blk) (off : Nat) : Nat := mkPa b.ident.chip b.ident.die off

/-- The address is this die's own memory. -/
def Blk.isSelf (b : Blk) (pa : Nat) : Bool := paChip pa = b.ident.chip && paDie pa = b.ident.die

/-- The lead die, as far as this die knows it (R270, R287). -/
def Blk.leadDie (b : Blk) : Option Nat :=
  if b.straps.lead then some b.ident.die else (List.range 4).find? (fun p => b.linkUp p && (b.link p).peerLead)

/-- Sectors of a run of data that are poisoned. -/
def poisonCount (off : Nat) (d : List PByte) : Nat :=
  boolNat ((d.take (64 - off % 64)).any (·.2)) + ((pieces 64 (d.drop (64 - off % 64))).filter (fun s => s.any (·.2))).length

def anyPoison (d : List PByte) : Bool := d.any (·.2)

/-- The bytes alone. -/
def plain (d : List PByte) : List Byte := d.map (·.1)

/-- Lines of the snoop filter that an access to a SHARED granule meets (R244). -/
def snoopLines (b : Blk) (off n : Nat) : List Nat :=
  b.host.filter.filter (fun l => off < 64 * l + 64 && 64 * l < off + n && !(b.host.owned.get false (64 * l / 2 ^ 21)))

/-- A BIAS_FLIP holds a granule that an access meets (R248). -/
def flipHeld (b : Blk) (off n : Nat) : Bool :=
  match b.host.flipping with
  | some g => off < (g + 1) * 2 ^ 21 && g * 2 ^ 21 < off + n
  | none => false

/-- Bytes of an access that a write of the port, or a line on the hint port, still holds (R401, R403). A unit's own writes
do not hold its further ones. -/
def portHeld (b : Blk) (own : Option UnitRef) (off n : Nat) : Bool :=
  b.gs.writes.any (fun w => some w.2.2.2 ≠ own && off < w.2.1 + w.2.2.1.length && w.2.1 < off + n)
    || b.xlat.hints.any (fun h => h.dirty && decide (h.addr < 2 ^ 63) && b.isSelf h.addr && paOff h.addr < off + n && off < paOff h.addr + 128)

/-- The lines that must come back before an access of this die's memory; none when it may go on. -/
def mustWait (b : Blk) (own : Option UnitRef) (off n : Nat) : Option (List Nat) :=
  let ls := snoopLines b off n
  if ls.isEmpty && !(flipHeld b off n) && !(portHeld b own off n) then none else some ls

/-- Send BISnpInv for lines that have none outstanding (R244, R245). -/
def sendSnoops (ls : List Nat) (b : Blk) : Blk :=
  let new := ls.filter (fun l => !b.host.snooping.contains l)
  let b := { b with host := { b.host with snooping := b.host.snooping ++ new }, out := b.out ++ new.map Out.biSnpInv }
  charge 0x0A new.length none none (bump Ctr.hsBisnp 0 new.length b)

/-- What a physical read gives. -/
inductive PRd where
  | ok (d : List PByte)
  | wait
  | fail (s : Status)
deriving DecidableEq, Repr

/-- A read at this die's groundsheet port. Bytes beyond the installed memory are poisoned, and an error record says so
(R210). -/
def gsRead (ctx : Option Nat) (off n : Nat) (b : Blk) : Blk × List PByte :=
  let inst := b.installed
  if off + n ≤ inst then
    let d := b.mem.read off n
    match ctx with
    | some c => (bump Ctr.poisonRead c (poisonCount off d) b, d)
    | none => (b, d)
  else
    let d := (List.range n).map (fun i => if off + i < inst then b.mem.pbyte (off + i) else (0, true))
    let b := raise { cause := 0x0B, ctx := ctx, unit := 1, detail := b.selfPa off } b
    match ctx with
    | some c => (bump Ctr.poisonRead c (poisonCount off d) b, d)
    | none => (b, d)

/-- A write at this die's groundsheet port; a write beyond the installed memory is dropped (R210). -/
def gsWrite (ctx : Option Nat) (off : Nat) (d : List PByte) (b : Blk) : Blk :=
  if off + d.length ≤ b.installed then
    let b := { b with mem := b.mem.write off d }
    match ctx with
    | some c => bump Ctr.poisonWritten c (poisonCount off d) b
    | none => b
  else raise { cause := 0x0B, ctx := ctx, unit := 1, detail := b.selfPa off, detail2 := 1 } b

/-- A write handed to this die's port for a unit; the port reports it done by its tag (R401). -/
def portWrite (u : UnitRef) (off : Nat) (d : List PByte) (b : Blk) : Blk :=
  let tag := b.xlat.nextTag
  { b with
    xlat := { b.xlat with nextTag := (tag + 1) % 65536 }
    gs := { b.gs with writes := b.gs.writes ++ [(tag, off, d, u)] } }

/-- Clean bytes of the block's own to this die's memory. A line that the host may hold comes back first (R244). -/
def gsWriteB (off : Nat) (d : List Byte) (b : Blk) : Blk :=
  match mustWait b none off d.length with
  | none => gsWrite none off (d.map (·, false)) b
  | some ls => portWrite .block off (d.map (·, false)) (sendSnoops ls b)

/-- Begin a remote read: MEM_READ over the link or the Ridge (R210, R276). -/
def askRead (u : UnitRef) (c : Cls) (pa n chip die : Nat) (host : Bool) (b : Blk) : Blk :=
  let t := b.xlat.nextTag
  let b := { b with xlat := { b.xlat with
              nextTag := (t + 1) % 65536,
              rreads := b.xlat.rreads ++ [{ unit := u, tag := t, addr := pa, host := host, n := n, chip := chip, die := die }] } }
  watch chip (sendMsg chip die c (.memRead { addr := pa, bytes := n, tag := t, host := host, poison := false, data := [] }) b)

/-- The answer to a remote read of this unit, if one is outstanding. -/
def Blk.rread? (b : Blk) (u : UnitRef) (pa n : Nat) (host : Bool) : Option RRead :=
  b.xlat.rreads.find? (fun r => r.unit = u && r.addr = pa && r.n = n && r.host = host)

def dropRread (t : Nat) (b : Blk) : Blk :=
  { b with xlat := { b.xlat with rreads := b.xlat.rreads.filter (fun r => r.tag ≠ t) } }

/-- Count the poisoned sectors of what a context read (R388, R396). -/
def readPoison (ctx off : Nat) (d : List PByte) (b : Blk) : Blk :=
  if anyPoison d then bump Ctr.poisonRead ctx (poisonCount off d) b else b

/-- A remote read goes out in packets of at most 4,096 bytes (R276). -/
def readPieces (pa n : Nat) : List (Nat × Nat) :=
  (List.range (ceilDiv n 4096)).map (fun i => (pa + 4096 * i, min 4096 (n - 4096 * i)))

/-- The answer of one packet has come whole. -/
def RRead.whole (r : RRead) : Bool := decide (r.n ≤ r.got.length)

/-- Forget the packets of a remote read. -/
def dropPieces (u : UnitRef) (host : Bool) (ps : List (Nat × Nat)) (b : Blk) : Blk :=
  ps.foldl (fun b p => match b.rread? u p.1 p.2 host with
    | some r => dropRread r.tag b
    | none => b) b

/-- Send the packets of a remote read that are not on their way. -/
def askPieces (u : UnitRef) (c : Cls) (chip die : Nat) (host : Bool) (ps : List (Nat × Nat)) (b : Blk) : Blk :=
  ps.foldl (fun b p => match b.rread? u p.1 p.2 host with
    | some _ => b
    | none =>
      let b := if host then bump Ctr.hsHostReads c.ctx (ceilDiv p.2 64) b else b
      askRead u c p.1 p.2 chip die host b) b

/-- A remote read: its answer when all of it is there, otherwise it is sent and the unit waits. -/
def farRead (u : UnitRef) (c : Cls) (pa n chip die : Nat) (host : Bool) (b : Blk) : Blk × PRd :=
  let ps := readPieces pa n
  let rs := ps.map (fun p => b.rread? u p.1 p.2 host)
  match rs.findSome? (fun r => r.bind (·.fail)) with
  | some s => (dropPieces u host ps b, .fail s)
  | none =>
    if rs.all (fun r => (r.map RRead.whole).getD false) then
      let d := (rs.flatMap (fun r => (r.map (fun r => r.got.take r.n)).getD []))
      (readPoison c.ctx pa d (dropPieces u host ps b), .ok d)
    else if rs.all (·.isSome) then (b, .wait)
    else
      match tryReach c.ctx chip die b with
      | (b, some s) => (dropPieces u host ps b, .fail s)
      | (b, none) => (askPieces u c chip die host ps b, .wait)

/-- An address run meets one of a list of runs. -/
def meetsRun (l : List (Nat × Nat)) (pa n : Nat) : Bool := l.any (fun r => decide (pa < r.1 + r.2 ∧ r.1 < pa + n))

/-- The host or a switch refuses an access (R250). -/
def hostRefuses (b : Blk) (pa n : Nat) : Bool := meetsRun b.host.refused pa n

/-- The queue whose ring a unit of work of the front end reads or writes. -/
def UnitRef.queue : UnitRef → Option Nat
  | .fetch q | .compl q => some q
  | _ => none

/-- The error record of a refused access (R250). -/
def hostRefusal (u : UnitRef) (ctx : Option Nat) (pa dir : Nat) (b : Blk) : Blk :=
  raise { cause := 0x0C, ctx := ctx, queue := u.queue, unit := 5, detail := pa, detail2 := dir } b

/-- The requests that a read of host memory makes, by its granule's bias (R246), or at a peer (R250). -/
def hostReadReq (b : Blk) (shared : Bool) (pa n : Nat) : List Out :=
  [.hostReq (if meetsRun b.host.peers pa n then .uioRead (!shared) else if shared then .rdCurr else .ioRead) pa n]

/-- The same for a write: whole 64-byte lines of a SHARED granule by ItoMWr, partial ones by WrCur. -/
def hostWriteReq (b : Blk) (shared : Bool) (pa n : Nat) : List Out :=
  if meetsRun b.host.peers pa n then [.hostReq (.uioWrite (!shared)) pa n]
  else if !shared then [.hostReq .ioWrite pa n]
  else (List.range (ceilDiv (pa + n) 64 - pa / 64)).map (fun i =>
    let l := pa / 64 * 64 + 64 * i
    let lo := max l pa
    let hi := min (l + 64) (pa + n)
    .hostReq (if hi - lo = 64 then .itoMWr else .wrCur) lo (hi - lo))

/-- A read of host memory (R246, R259): through the host port, on the lead die. -/
def hostRead (u : UnitRef) (c : Cls) (pa n : Nat) (b : Blk) : Blk × PRd :=
  if b.straps.lead then
    match b.host.state with
    | 0 =>
      let b := bump Ctr.hsHostReads c.ctx (ceilDiv n 64) { b with out := b.out ++ hostReadReq b c.shared pa n }
      if hostRefuses b pa n then (hostRefusal u (some c.ctx) pa 0 b, .fail .unreachable)
      else (readPoison c.ctx pa (b.hostMem.read pa n) b, .ok (b.hostMem.read pa n))
    | 1 => (b, .wait)
    | _ => (b, .fail .hostLost)
  else
    match b.leadDie with
    | some d => farRead u c pa n b.ident.chip d true b
    | none => (b, .fail .d2dDown)

/-- A read at a physical address. -/
def readPhys (u : UnitRef) (c : Cls) (pa n : Nat) (host : Bool) (b : Blk) : Blk × PRd :=
  if host then hostRead u c pa n b
  else if b.isSelf pa then
    match mustWait b none (paOff pa) n with
    | none =>
      let r := gsRead (some c.ctx) (paOff pa) n b
      (r.1, .ok r.2)
    | some ls => (sendSnoops ls b, .wait)
  else farRead u c pa n (paChip pa) (paDie pa) false b

/-- A posted remote write in packets of at most 256 bytes (R276). -/
def askWrites (u : UnitRef) (c : Cls) (chip die : Nat) (host : Bool) : List (Nat × List PByte) → Blk → Blk
  | [], b => b
  | (pa, d) :: t, b =>
    let tag := b.xlat.nextTag
    let b := { b with xlat := { b.xlat with
                nextTag := (tag + 1) % 65536,
                rwrites := b.xlat.rwrites ++ [{ unit := u, tag := tag, chip := chip, die := die, addr := pa }] } }
    askWrites u c chip die host t (watch chip (sendMsg chip die c
      (.memWrite { addr := pa, bytes := d.length, tag := tag, host := host, poison := anyPoison d, data := plain d }) b))

/-- Cut data at 64-byte sectors where poison differs, and at 256 bytes: POISON marks a whole packet (R276, R388). -/
def writePieces (pa : Nat) (d : List PByte) : List (Nat × List PByte) :=
  let w := if anyPoison d then 64 else 256
  let lead := (w - pa % w) % w
  let first : List (Nat × List PByte) := if lead = 0 ∨ d.isEmpty then [] else [(pa, d.take lead)]
  let rest := pieces w (d.drop lead)
  first ++ (List.range rest.length).map (fun i => (pa + lead + w * i, rest.getD i []))

/-- What a physical write gives. -/
inductive PWr where
  | ok
  | wait
  | fail (s : Status)
deriving DecidableEq, Repr

/-- Hold a write of host memory while the link is down (R259). -/
def holdWrite (w : HeldWrite) (b : Blk) : Blk :=
  { b with host := { b.host with
      nextHeld := b.host.nextHeld + 1
      heldWrites := b.host.heldWrites ++ [{ w with no := b.host.nextHeld }] } }

/-- A write leaves through the host port of the lead die; `false` where it is refused. -/
def hostPut (u : UnitRef) (ctx : Option Nat) (shared : Bool) (pa : Nat) (d : List PByte) (b : Blk) : Blk × Bool :=
  let b : Blk := { b with out := b.out ++ hostWriteReq b shared pa d.length }
  let b := match ctx with
    | some c => bump Ctr.hsHostWrites c (ceilDiv d.length 64) b
    | none => b
  if hostRefuses b pa d.length then (hostRefusal u ctx pa 1 b, false) else ({ b with hostMem := b.hostMem.write pa d }, true)

/-- A write of host memory, held while the link is down (R259). -/
def hostWrite (u : UnitRef) (c : Cls) (pa : Nat) (d : List PByte) (b : Blk) : Blk × PWr :=
  if b.straps.lead then
    match b.host.state with
    | 0 =>
      match hostPut u (some c.ctx) c.shared pa d b with
      | (b, true) => (b, .ok)
      | (b, false) => (b, .fail .unreachable)
    | 1 => (holdWrite { no := 0, ctx := some c.ctx, addr := pa, data := d, unit := some u, shared := c.shared } b, .ok)
    | _ => (b, .fail .hostLost)
  else
    match b.leadDie with
    | some die =>
      match tryReach c.ctx b.ident.chip die b with
      | (b, some s) => (b, .fail s)
      | (b, none) => (askWrites u c b.ident.chip die true (writePieces pa d) (bump Ctr.hsHostWrites c.ctx (ceilDiv d.length 64) b), .ok)
    | none => (b, .fail .d2dDown)

/-- A write at a physical address. -/
def writePhys (u : UnitRef) (c : Cls) (pa : Nat) (d : List PByte) (host : Bool) (b : Blk) : Blk × PWr :=
  if host then hostWrite u c pa d b
  else if b.isSelf pa then
    match mustWait b (some u) (paOff pa) d.length with
    | none => (gsWrite (some c.ctx) (paOff pa) d b, .ok)
    | some ls => (sendSnoops ls b, .wait)
  else
    match tryReach c.ctx (paChip pa) (paDie pa) b with
    | (b, some s) => (b, .fail s)
    | (b, none) => (askWrites u c (paChip pa) (paDie pa) false (writePieces pa d) b, .ok)

/-! ### Caches -/

/-- A host physical line's tag differs from every fabric address. -/
def lineKey (pa : Nat) (host : Bool) : Nat := if host then pa + 2 ^ 63 else pa

def Cache.find (c : Cache) (a : Nat) : Option (Nat × Line) := List.find? (fun e => e.2.addr = a) c.lines

/-- The lowest-numbered invalid entry of `n`. -/
def Cache.freeEntry (c : Cache) (n : Nat) : Option Nat := (List.range n).find? (fun i => !(c.lines.any (fun e => e.1 = i)))

/-- The LFSR of R230, taps at bits 15, 13, 12 and 10, shifting left (DEDUCED, log 11). -/
def lfsrNext (v : Nat) : Nat :=
  (v * 2 + (v / 32768 + v / 8192 + v / 4096 + v / 1024) % 2) % 65536

/-- Fill a round-robin cache of 32 lines (R234). -/
def Cache.fillRr (c : Cache) (l : Line) : Cache :=
  let e := (c.freeEntry 32).getD (c.rr % 32)
  { c with lines := Tbl.set c.lines e l, rr := (e + 1) % 32 }

/-- What a line's reader sees: a double-bit error makes it poison (R232). -/
def Line.view (l : Line) : List PByte := if l.ecc = 2 then l.data.map (fun x => (x.1, true)) else l.data

/-- A line's key, back as an address and whether it is the host's. -/
def keyPa (key : Nat) : Nat := key % 2 ^ 63
def keyHost (key : Nat) : Bool := decide (2 ^ 63 ≤ key)

/-- Runs of the bytes that a mask names: first byte and length. -/
def maskRuns (mask : Nat) : List (Nat × Nat) :=
  (List.range 128).foldr (fun i l =>
    if mask.testBit i then
      match l with
      | (o, n) :: t => if o = i + 1 then (i, n + 1) :: t else (i, 1) :: (o, n) :: t
      | [] => [(i, 1)]
    else l) []

/-- What a write-back writes: the runs of bytes that stores put into the line (R106, R231). -/
def Line.runs (l : Line) : List (Nat × List PByte) :=
  (maskRuns l.mask).map (fun r => (keyPa l.addr + r.1, (l.view.drop r.1).take r.2))

/-- A dirty line of pitch `p` is read for its write-back: a double-bit error poisons the write-back and is recorded, a
single-bit one is corrected (R232). -/
def noteWriteback (p : Nat) (l : Line) (b : Blk) : Blk :=
  let b := bump Ctr.mdWritebacks l.ctx 1 b
  if l.ecc = 2 then eccRecord 2 p 1 0 (some l.ctx) false b
  else if l.ecc = 1 then bump Ctr.mdEccCorrected 0 1 b else b

/-- Write a dirty line of pitch `p` back to where it belongs, for a unit of work. -/
def writeLine (u : UnitRef) (p : Nat) (l : Line) (b : Blk) : Blk :=
  l.runs.foldl (fun b r =>
    if !keyHost l.addr && b.isSelf (keyPa l.addr) then
      match mustWait b none (paOff r.1) r.2.length with
      | none => gsWrite (some l.ctx) (paOff r.1) r.2 b
      | some ls => portWrite u (paOff r.1) r.2 (sendSnoops ls b)
    else (writePhys u { ctx := l.ctx } r.1 r.2 (keyHost l.addr) b).1) (noteWriteback p l b)

/-- A dirty line of pitch `p` goes to memory, and stays clean in the cache. -/
def cleanKey (p key : Nat) (b : Blk) : Blk :=
  let x := b.pitch p
  match x.mdc.find key with
  | some (e, l) =>
    if l.dirty then writeLine (.mdc p) p l (b.setPitch p { x with mdc := { x.mdc with lines := Tbl.set x.mdc.lines e { l with dirty := false } } })
    else b
  | none => b

/-- An entry of a metadata cache is read: a single-bit error is corrected, a clean line with a double-bit one is dropped
(R232). -/
def mdcCheck (p key : Nat) (b : Blk) : Blk :=
  let x := b.pitch p
  match x.mdc.find key with
  | some (e, l) =>
    if l.ecc = 1 then
      bump Ctr.mdEccCorrected 0 1 (b.setPitch p { x with mdc := { x.mdc with lines := Tbl.set x.mdc.lines e { l with ecc := 0 } } })
    else if l.ecc = 2 ∧ l.dirty = false then
      eccRecord 2 p 1 e (some l.ctx) true (b.setPitch p { x with mdc := { x.mdc with lines := Tbl.del x.mdc.lines e } })
    else b
  | none => b

/-- The same for a read-only cache of the front end or the fault unit (R234, R382). -/
def cacheCheck (unit struct key : Nat) (c : Cache) (b : Blk) : Blk × Cache :=
  match c.find key with
  | some (e, l) =>
    if l.ecc = 1 then (bump Ctr.eccCorrected 0 1 b, { c with lines := Tbl.set c.lines e { l with ecc := 0 } })
    else if l.ecc = 2 then (eccRecord unit 0 struct e (some l.ctx) true b, { c with lines := Tbl.del c.lines e })
    else (b, c)
  | none => (b, c)

/-- A line leaves the metadata cache of pitch `p`: it is offered on the hint port, or a dirty one is written back (R230, R233). A
dirty line with a double-bit error is offered poisoned, and recorded (R232). -/
def evictLine (p : Nat) (l : Line) (b : Blk) : Blk :=
  if b.obj Obj.hintEn 0 = 1 ∧ b.build.hintPresent = true then
    let b := if l.dirty then noteWriteback p l b else b
    { b with xlat := { b.xlat with hints := b.xlat.hints ++ [{ addr := l.addr, dirty := l.dirty, data := l.view, mask := l.mask }] } }
  else if l.dirty then writeLine (.mdc p) p l b else b

/-- What a fill or a reread brings for a line that holds stores: their bytes stay (R231). -/
def Line.under (old new : Line) : Line :=
  if old.dirty && !new.dirty then
    { old with data := (List.range 128).map (fun i =>
        if old.mask.testBit i then old.data.getD i (0, false) else new.data.getD i (0, false)) }
  else new

/-- Put a line in pitch p's metadata cache (R230). -/
def mdcInstall (p : Nat) (l : Line) (b : Blk) : Blk :=
  let i := takeInject 1 b
  let b := i.1
  let l := if i.2 = 0 then l else { l with ecc := i.2 }
  let x := b.pitch p
  let c := x.mdc
  match c.find l.addr with
  | some (e, old) => b.setPitch p { x with mdc := { c with lines := Tbl.set c.lines e (old.under l) } }
  | none =>
    match c.freeEntry 48 with
    | some e => b.setPitch p { x with mdc := { c with lines := Tbl.set c.lines e l } }
    | none =>
      let e := c.lfsr % 48
      let b := match List.find? (fun k => k.1 = e) c.lines with
        | some (_, old) => evictLine p old b
        | none => b
      let x := b.pitch p
      b.setPitch p { x with mdc := { c with lines := Tbl.set c.lines e l, lfsr := lfsrNext c.lfsr } }

/-- What a metadata line read gives. -/
inductive MRd where
  | ok (d : List PByte)
  | wait
  | fail (s : Status)
  | poisoned
deriving DecidableEq, Repr

def mrdOf (d : List PByte) : MRd := if anyPoison d then .poisoned else .ok d

/-- The line as memory holds it, without a cache. -/
def lineDirect (u : UnitRef) (c : Cls) (pa : Nat) (host : Bool) (b : Blk) : Blk × MRd :=
  match readPhys u c pa 128 host b with
  | (b, .ok d) => (b, mrdOf d)
  | (b, .wait) => (b, .wait)
  | (b, .fail s) => (b, .fail s)

/-- A 128-byte line for a requester: through its pitch's metadata cache or the fault unit's cache when enabled. A miss of a
pitch waits for MDC_FILL (R229). -/
def lineRead (rq : Rq) (u : UnitRef) (c : Cls) (pa : Nat) (host fresh : Bool) (b : Blk) : Blk × MRd :=
  let key := lineKey pa host
  match rq with
  | .pitch p =>
    if b.obj Obj.mdcEn 0 = 0 then lineDirect u c pa host b
    else
      let b := mdcCheck p key b
      let m := (b.pitch p).mdc
      if fresh then
        match lineDirect u c pa host b with
        | (b, .ok d) => (mdcInstall p { addr := key, data := d, dirty := false, ctx := c.ctx } b, .ok d)
        | r => r
      else match m.find key with
        | some (_, l) => (bump Ctr.mdHits c.ctx 1 b, mrdOf l.view)
        | none =>
          match b.xlat.held.find? (fun h => h.1 = .mdc p && h.2.1 = key) with
          | some h =>
            -- a fill that failed, or came poisoned
            let b := { b with xlat := { b.xlat with held := b.xlat.held.erase h } }
            (b, if h.2.2.isEmpty then .fail (if host then .hostLost else if paChip pa = b.ident.chip then .d2dDown else .unreachable) else .poisoned)
          | none =>
          if m.misses.any (fun e => e.1 = key) then (b, .wait)
          else if !host && b.isSelf pa && anyPoison (b.mem.read (paOff pa) 128) then
            (bump Ctr.poisonRead c.ctx 1 (charge 0x04 1 (some c.ctx) none (bump Ctr.mdMisses c.ctx 1 b)), .poisoned)
          else if m.misses.length < 4 then
            let b := b.setPitch p { b.pitch p with mdc := { m with misses := m.misses ++ [(key, c.ctx, c.shared)] } }
            (charge 0x04 1 (some c.ctx) none (bump Ctr.mdMisses c.ctx 1 b), .wait)
          else (b, .wait)
  | _ =>
    if b.obj Obj.faultEn 0 = 0 then lineDirect u c pa host b
    else
      let k := cacheCheck 1 3 key b.xlat.fault b
      let b := { k.1 with xlat := { k.1.xlat with fault := k.2 } }
      match (if fresh then none else b.xlat.fault.find key) with
      | some (_, l) => (b, mrdOf l.data)
      | none =>
        match lineDirect u c pa host b with
        | (b, .ok d) =>
          let i := takeInject 3 b
          let b := i.1
          let fc := { b.xlat.fault with lines := b.xlat.fault.lines.filter (fun e => e.2.addr ≠ key) }
          ({ b with xlat := { b.xlat with
              fault := fc.fillRr { addr := key, data := d, dirty := false, ctx := c.ctx, ecc := i.2 } } }, mrdOf d)
        | r => r

/-! ### Translation -/

/-- The context header (R205), and what it allows. -/
structure CtxHdr where
  on : Bool
  log2 : Nat
  tableDir : Nat
  ring : Nat
  tail : Nat
  ringOk : Bool
deriving DecidableEq, Repr, Inhabited

/-- Byte offset of a context's directory entry (R204). -/
def ctxEntry (b : Blk) (ctx : Nat) : Nat := b.obj Obj.ctxDirBase 0 + 1024 * ctx

/-- Read a header: `on` says that the context translates (R206), `ringOk` that its ring fields are valid (R216). -/
def parseHdr (b : Blk) (l : List Byte) : CtxHdr :=
  let log2 := byteAt l 1
  let ring := field l 16 8
  let tail := field l 24 8
  let shape := decide (6 ≤ log2 ∧ log2 ≤ 16) && ring % 4096 == 0 && tail % 8 == 0
  { on := byteAt l 0 == 1 && shape && field l 8 8 % 2 ^ 20 == 0 && zeroAt l 2 6 && zeroAt l 32 32,
    log2 := log2, tableDir := field l 8 8, ring := ring, tail := tail,
    ringOk := shape && decide (ring + 32 * 2 ^ log2 ≤ b.installed) && decide (tail + 8 ≤ b.installed) }

/-- A context's header bytes as the die's memory holds them. -/
def hdrBytes (b : Blk) (ctx : Nat) : List Byte := b.mem.bytes (ctxEntry b ctx) 64

def ctxHdr (b : Blk) (ctx : Nat) : CtxHdr := parseHdr b (hdrBytes b ctx)

/-- A segment descriptor (R207). -/
structure Seg where
  ok : Bool
  vbase : Nat
  len : Nat
  host : Bool
  write : Bool
  presence : Bool
  bias : Bool
  pbase : Nat
  pmap : Nat
deriving DecidableEq, Repr, Inhabited

/-- Read a segment descriptor; `ok` says that it is valid (R208). -/
def parseSeg (b : Blk) (l : List Byte) : Seg :=
  let v := le (l.take 32)
  let vb := bitsOf v 51 21 * 2 ^ 21
  let len := bitsOf v 89 64
  let host := v.testBit 97
  let pres := v.testBit 99
  let pb := bitsOf v 191 128
  let pm := bitsOf v 255 192
  let rsv := bitsOf v 20 0 == 0 && bitsOf v 63 52 == 0 && bitsOf v 95 90 == 0 && bitsOf v 127 101 == 0
  let base := decide (1 ≤ len ∧ len ≤ 2 ^ 25) && pb % 2 ^ 21 == 0 && decide (vb + len * 2 ^ 21 ≤ 2 ^ 52)
  let phys := if host then decide (pb < 2 ^ 52) else decide (pb < 2 ^ 62) && decide (pb % 2 ^ 46 + len * 2 ^ 21 ≤ 2 ^ 46)
  let pmok := if pres then pm ≠ 0 && pm % 8 == 0 && decide (pm + 8 * ceilDiv len 64 ≤ b.installed) else pm == 0
  { ok := v.testBit 96 && rsv && base && phys && pmok, vbase := vb, len := len, host := host, write := v.testBit 98,
    presence := pres, bias := v.testBit 100, pbase := pb, pmap := pm }

/-- What a translation gives (R209). -/
inductive Tr where
  | ok (pa : Nat) (host : Bool) (seg gran : Nat) (shared : Bool)
  | fault (cause seg gran : Nat)
  | wait
  | fail (s : Status)
  | poisoned
deriving DecidableEq, Repr

/-- Bytes of the die's own metadata, by die-local offset, through the requester's cache. -/
def ownMeta (rq : Rq) (u : UnitRef) (c : Cls) (off n : Nat) (fresh : Bool) (b : Blk) : Blk × MRd :=
  match lineRead rq u c (b.selfPa (off / 128 * 128)) false fresh b with
  | (b, .ok d) => (b, .ok ((d.drop (off % 128)).take n))
  | r => r

/-- Find the lowest valid segment that contains `va`, from segment 16 − n. -/
def findSeg (rq : Rq) (u : UnitRef) (c : Cls) (va : Nat) (fresh : Bool) : Nat → Blk → Blk × Option (Nat × Seg) × MRd
  | 0, b => (b, none, .ok [])
  | k + 1, b =>
    let n := 15 - k
    match ownMeta rq u c (ctxEntry b c.ctx + 64 + 32 * n) 32 fresh b with
    | (b, .ok d) =>
      let s := parseSeg b (plain d)
      if s.ok && decide (s.vbase ≤ va) && decide (va < s.vbase + s.len * 2 ^ 21) then (b, some (n, s), .ok [])
      else findSeg rq u c va fresh k b
    | (b, r) => (b, none, r)

/-- Bias of a host granule: its override entry, or its segment's BIAS (R246). -/
def hostShared (b : Blk) (ctx seg gran : Nat) (dflt : Bool) : Bool :=
  match b.host.override.find? (fun e => e.1 = ctx && e.2.1 = seg && e.2.2.1 = gran) with
  | some e => e.2.2.2
  | none => dflt

/-- Read a context's header at the groundsheet port (R206, R210, R244). -/
def readHdr (ctx : Nat) (b : Blk) : Blk × PRd :=
  match mustWait b none (ctxEntry b ctx) 64 with
  | none =>
    let r := gsRead (some ctx) (ctxEntry b ctx) 64 b
    (r.1, .ok r.2)
  | some ls => (sendSnoops ls b, .wait)

/-- The procedure of R209 for one address. -/
def translate (rq : Rq) (u : UnitRef) (c : Cls) (va : Nat) (wr fresh : Bool) (b : Blk) : Blk × Tr :=
  match readHdr c.ctx b with
  | (b, .wait) => (b, .wait)
  | (b, .fail s) => (b, .fail s)
  | (b, .ok hd) =>
  if anyPoison hd then (b, .poisoned)
  else if !(parseHdr b (plain hd)).on then (b, .fault 4 0xFF 0)
  else if 2 ^ 52 ≤ va then (b, .fault 1 0xFF (2 ^ 31 + va / 2 ^ 21 % 2 ^ 31))
  else
    match findSeg rq u c va fresh 16 b with
    | (b, some (n, s), _) =>
      let g := (va - s.vbase) / 2 ^ 21
      let done (b : Blk) : Blk × Tr :=
        (b, .ok (s.pbase + (va - s.vbase)) s.host n g (hostShared b c.ctx n g s.bias))
      if wr && !s.write then (b, .fault 2 n g)
      else if s.presence then
        match ownMeta rq u c (s.pmap + 8 * (g / 64)) 8 fresh b with
        | (b, .ok d) => if (le (plain d)).testBit (g % 64) then done b else (b, .fault 0 n g)
        | (b, .wait) => (b, .wait)
        | (b, .fail s) => (b, .fail s)
        | (b, .poisoned) => (b, .poisoned)
      else done b
    | (b, none, .ok _) => (b, .fault 1 0xFF (va / 2 ^ 21))
    | (b, none, .wait) => (b, .wait)
    | (b, none, .fail s) => (b, .fail s)
    | (b, none, .poisoned) => (b, .poisoned)

/-- The fabric physical address of a device virtual one, for a record; 0 when it does not translate. -/
def farAddr (c : Cls) (va : Nat) (b : Blk) : Nat :=
  match (translate .front (.fetch 0) c va false false b).2 with
  | .ok pa _ _ _ _ => pa
  | _ => 0

/-- The host or a switch refuses an access of `n` bytes at a device virtual address (R250, R408). -/
def refusedAt (c : Cls) (va n : Nat) (b : Blk) : Bool :=
  match (translate .front (.fetch 0) c va false false b).2 with
  | .ok pa host _ _ _ => host && hostRefuses b pa n
  | _ => false

/-- A detector sees a line read (R236). -/
def Detector.feed (d : Detector) (line : Nat) : Detector :=
  if d.seen = 0 then { last := line, seen := 1 }
  else if line = d.last then d
  else
    let s : Int := (line : Int) - d.last
    { last := line, stride := s, seen := if s = d.stride then d.seen + 1 else 2 }

/-- Two successive reads have kept one stride: a detector's next lines, ahead at that stride (R236; DEDUCED, log 79). -/
def Detector.next (d : Detector) (depth : Nat) : List Nat :=
  if 3 ≤ d.seen then
    ((List.range depth).map (fun i => (d.last : Int) + d.stride * (i + 1))).filterMap (fun x => if 0 ≤ x then some x.toNat else none)
  else []

/-! ### Faults -/

/-- The engine bit of R213. -/
def Rq.bit : Rq → Nat
  | .pitch p => 2 ^ p
  | .copyIn e => 2 ^ (32 + e)
  | .copyOut e => 2 ^ (40 + e)
  | .front => 2 ^ 48
  | .slice _ => 2 ^ 49

/-- Update a context's fault tail word (R216). -/
def writeFaultTail (ctx : Nat) (b : Blk) : Blk :=
  let h := ctxHdr b ctx
  if h.ringOk then
    gsWriteB h.tail (toLe 4 (b.xlat.written.get 0 ctx) ++ toLe 4 (b.xlat.lost.get 0 ctx)) b
  else b

/-- The bytes of a fault record (R213). -/
def faultBytes (b : Blk) (r : FaultRec) : List Byte :=
  toLe 1 (r.ctx + 64 * b.ident.die) ++ toLe 1 r.cause ++ toLe 1 r.access ++ toLe 1 r.seg ++ toLe 4 r.gran ++ toLe 8 r.mask
    ++ toLe 4 r.count ++ toLe 4 0 ++ toLe 8 r.first

/-- The ring of a context has room for one more record (R216). -/
def ringRoom (b : Blk) (ctx : Nat) : Bool :=
  let w := b.xlat.written.get 0 ctx
  decide ((w + 2 ^ 32 - b.xlat.head.get 0 ctx % 2 ^ 32) % 2 ^ 32 < 2 ^ (ctxHdr b ctx).log2)

/-- A key enters the outstanding-fault table when its record is written, if there is room (R214). -/
def enterKey (r : FaultRec) (b : Blk) : Blk :=
  if b.xlat.outstanding.length < 256 then
    let k : FaultKey := { ctx := r.ctx, cause := r.cause, seg := r.seg, gran := r.gran, mask := r.mask }
    { b with xlat := { b.xlat with outstanding := b.xlat.outstanding ++ [k] } }
  else b

/-- Offer one record: what stays in the sack goes to the second list (R215, R216). -/
def offerFault (r : FaultRec) (s : Blk × List FaultRec) : Blk × List FaultRec :=
  let b := s.1
  let h := ctxHdr b r.ctx
  if !h.ringOk then (bump Ctr.ftLost r.ctx 1 b, s.2)
  else if ringRoom b r.ctx then
    let w := b.xlat.written.get 0 r.ctx
    let b := gsWriteB (h.ring + 32 * (w % 2 ^ h.log2)) (faultBytes b r) b
    let b := { b with xlat := { b.xlat with written := b.xlat.written.set r.ctx ((w + 1) % 2 ^ 32) } }
    (enterKey r (bump Ctr.ftRecords r.ctx 1 b), s.2)
  else (b, s.2 ++ [{ r with held := true }])

/-- A batch (R215): every unwritten record is offered, in the order of entry; then the tail words are updated. -/
def faultBatch (b : Blk) : Blk :=
  let l := b.xlat.staging
  let s := l.foldl (fun s r => offerFault r s) (b, [])
  let b : Blk := { s.1 with xlat := { s.1.xlat with staging := s.2 } }
  ((l.map (·.ctx)).eraseDups).foldl (fun b c => writeFaultTail c b) b

/-- A record enters the staging sack; the oldest is lost when the sack is full (R214, R217). -/
def stageFault (r : FaultRec) (b : Blk) : Blk :=
  match b.xlat.staging with
  | old :: t =>
    if 256 ≤ b.xlat.staging.length then
      let b := bump Ctr.ftLost old.ctx 1 { b with xlat := { b.xlat with staging := t ++ [r] } }
      let b := { b with err := { b.err with faultLost := b.err.faultLost + 1 } }
      if (ctxHdr b old.ctx).ringOk then
        writeFaultTail old.ctx { b with xlat := { b.xlat with lost := addAt b.xlat.lost old.ctx 1 } }
      else b
    else { b with xlat := { b.xlat with staging := b.xlat.staging ++ [r] } }
  | [] => { b with xlat := { b.xlat with staging := [r] } }

/-- A new fault record; the sack writes a batch as soon as 64 are pending (R215). -/
def newFault (r : FaultRec) (b : Blk) : Blk :=
  let b := stageFault r b
  if 64 ≤ (b.xlat.staging.filter (fun r => !r.held)).length then faultBatch b else b

/-- Record a fault (R214). -/
def recordFault (rq : Rq) (ctx : Nat) (wr : Bool) (cause seg gran : Nat) (b : Blk) : Blk :=
  let acc := if wr then 2 else 1
  let same (r : FaultRec) : Bool := r.ctx = ctx && r.cause = cause && r.seg = seg && r.gran = gran
  let sameK (k : FaultKey) : Bool := k.ctx = ctx && k.cause = cause && k.seg = seg && k.gran = gran
  let b := bump Ctr.ftFaults ctx 1 b
  if b.xlat.staging.any same then
    let st := b.xlat.staging.map (fun r =>
      if same r then { r with access := r.access ||| acc, mask := r.mask ||| rq.bit, count := min (r.count + 1) 0xFFFFFFFF }
      else r)
    bump Ctr.ftMerged ctx 1 { b with xlat := { b.xlat with staging := st } }
  else if b.xlat.outstanding.any sameK then
    let o := b.xlat.outstanding.map (fun k => if sameK k then { k with mask := k.mask ||| rq.bit } else k)
    bump Ctr.ftMerged ctx 1 { b with xlat := { b.xlat with outstanding := o } }
  else
    newFault { ctx := ctx, cause := cause, access := acc, seg := seg, gran := gran, mask := rq.bit, count := 1,
               first := b.clk.core - b.xlat.base, entered := b.clk.half } b

/-- Park a unit on an access that faults (R220). -/
def park (u : UnitRef) (ctx : Nat) (rq : Rq) (va len : Nat) (wr : Bool) (cause : Nat) (b : Blk) : Blk :=
  if b.xlat.parked.any (fun p => p.unit = u && p.va = va && p.write = wr) then b
  else { b with xlat := { b.xlat with
          parked := b.xlat.parked ++ [{ unit := u, ctx := ctx, rq := rq, va := va, len := len, write := wr, cause := cause,
                                        since := b.clk.half }] } }

/-- What a unit has read, or has asked for, is ignored (R43). -/
def dropReads (u : UnitRef) (b : Blk) : Blk :=
  { b with xlat := { b.xlat with
      held := b.xlat.held.filter (fun h => h.1 ≠ u)
      rreads := b.xlat.rreads.filter (fun r => r.unit ≠ u) } }

/-- Forget a unit's parking, held tiles and outstanding reads (R224). -/
def forgetUnit (u : UnitRef) (b : Blk) : Blk :=
  { b with xlat := { b.xlat with
      parked := b.xlat.parked.filter (fun p => p.unit ≠ u),
      held := b.xlat.held.filter (fun h => h.1 ≠ u),
      rreads := b.xlat.rreads.filter (fun r => r.unit ≠ u) } }

/-! ### Reads and writes at device virtual addresses -/

/-- Cut a run of bytes at granule boundaries (R209). -/
def granParts : Nat → Nat → Nat → List (Nat × Nat)
  | 0, _, _ => []
  | f + 1, va, n =>
    if n = 0 then []
    else
      let k := min n (2 ^ 21 - va % 2 ^ 21)
      (va, k) :: granParts f (va + k) (n - k)

def partsOf (va n : Nat) : List (Nat × Nat) := granParts (n / 2 ^ 21 + 2) va n

/-- What a read gives. -/
inductive Rd where
  | ok (d : List PByte)
  /-- The unit is parked on a fault. -/
  | fault
  /-- The answer has not come; the read is made again later. -/
  | wait
  | fail (s : Status)
  /-- A metadata line that the translation needs is poisoned (R389). -/
  | badMeta
deriving DecidableEq, Repr

/-- What one part of a read gives. -/
inductive PartRd where
  | ok (d : List PByte)
  | fault (cause seg gran : Nat)
  | wait
  | fail (s : Status)
  | badMeta
deriving DecidableEq, Repr

/-- The class of an access whose translation gave a host granule of this bias (R246). -/
def Cls.biased (c : Cls) (host shared : Bool) : Cls := if host then { c with shared := shared } else c

/-- Read one part of a tile, unless it is held already. -/
def rdPart (rq : Rq) (u : UnitRef) (c : Cls) (p : Nat × Nat) (b : Blk) : Blk × PartRd :=
  match b.xlat.held.find? (fun h => h.1 = u && h.2.1 = p.1 && h.2.2.length = p.2) with
  | some h => (b, .ok h.2.2)
  | none =>
    match translate rq u c p.1 false false b with
    | (b, .ok pa host _ _ sh) =>
      match readPhys u (c.biased host sh) pa p.2 host b with
      | (b, .ok d) => (b, .ok d)
      | (b, .wait) => (b, .wait)
      | (b, .fail s) => (b, .fail s)
    | (b, .fault cause seg gran) => (recordFault rq c.ctx false cause seg gran b, .fault cause seg gran)
    | (b, .wait) => (b, .wait)
    | (b, .fail s) => (b, .fail s)
    | (b, .poisoned) => (b, .badMeta)

/-- Read every part, in order. -/
def rdEach (rq : Rq) (u : UnitRef) (c : Cls) : List (Nat × Nat) → Blk → Blk × List ((Nat × Nat) × PartRd)
  | [], b => (b, [])
  | p :: t, b =>
    let r := rdPart rq u c p b
    let s := rdEach rq u c t r.1
    (s.1, (p, r.2) :: s.2)

/-- The parts that have come are held while others fault or are on their way (R221). -/
def holdParts (u : UnitRef) (l : List ((Nat × Nat) × PartRd)) (b : Blk) : Blk :=
  let new := l.filterMap (fun e => match e.2 with
    | .ok d => some (u, e.1.1, d)
    | _ => none)
  { b with xlat := { b.xlat with held := b.xlat.held.filter (fun h => h.1 ≠ u) ++ new } }

/-- A unit parks on every part that faults. -/
def parkParts (rq : Rq) (u : UnitRef) (ctx : Nat) (l : List ((Nat × Nat) × PartRd)) (b : Blk) : Blk :=
  l.foldl (fun b e => match e.2 with
    | .fault cause _ _ => park u ctx rq e.1.1 e.1.2 false cause b
    | _ => b) b

/-- Read the parts of one tile. What translates is read and held while the rest faults or waits (R221). -/
def rdParts (rq : Rq) (u : UnitRef) (c : Cls) (ps : List (Nat × Nat)) (b : Blk) : Blk × Rd :=
  let r := rdEach rq u c ps b
  let b := r.1
  match r.2.findSome? (fun e => match e.2 with
      | .fail s => some (Rd.fail s)
      | .badMeta => some Rd.badMeta
      | _ => none) with
  | some x => (b, x)
  | none =>
    if r.2.all (fun e => match e.2 with
        | .ok _ => true
        | _ => false) then
      (b, .ok (r.2.flatMap (fun e => match e.2 with
        | .ok d => d
        | _ => [])))
    else
      let b := holdParts u r.2 b
      if r.2.any (fun e => match e.2 with
          | .fault _ _ _ => true
          | _ => false) then (parkParts rq u c.ctx r.2 b, .fault)
      else (b, .wait)

/-- Read `n` bytes at a device virtual address for a unit of work. -/
def rd (rq : Rq) (u : UnitRef) (c : Cls) (va n : Nat) (b : Blk) : Blk × Rd :=
  let release (b : Blk) : Blk := { b with xlat := { b.xlat with held := b.xlat.held.filter (fun h => h.1 ≠ u) } }
  match rdParts rq u c (partsOf va n) b with
  | (b, .ok d) => (release b, .ok d)
  | (b, .fail s) => (release b, .fail s)
  | (b, .badMeta) => (release b, .badMeta)
  | r => r

/-- Read metadata by whole lines through the requester's cache (R228). -/
def rdLines (rq : Rq) (u : UnitRef) (c : Cls) : Nat → Nat → Blk → Blk × Rd
  | 0, _, b => (b, .ok [])
  | k + 1, va, b =>
    match translate rq u c va false false b with
    | (b, .ok pa host _ _ sh) =>
      match lineRead rq u (c.biased host sh) pa host false b with
      | (b, .ok d) =>
        match rdLines rq u c k (va + 128) b with
        | (b, .ok r) => (b, .ok (d ++ r))
        | r => r
      | (b, .wait) => (b, .wait)
      | (b, .fail s) => (b, .fail s)
      | (b, .poisoned) => (b, .badMeta)
    | (b, .fault cause seg gran) =>
      (park u c.ctx rq va 128 false cause (recordFault rq c.ctx false cause seg gran b), .fault)
    | (b, .wait) => (b, .wait)
    | (b, .fail s) => (b, .fail s)
    | (b, .poisoned) => (b, .badMeta)

/-- Metadata bytes: table descriptors, coefficient tables, replica buckets, decoder records (R228). -/
def rdMeta (rq : Rq) (u : UnitRef) (c : Cls) (va n : Nat) (b : Blk) : Blk × Rd :=
  match rq with
  | .pitch _ =>
    let a := va / 128 * 128
    match rdLines rq u c (ceilDiv (va + n - a) 128) a b with
    | (b, .ok d) => (b, .ok ((d.drop (va - a)).take n))
    | r => r
  | _ =>
    match rd rq u c va n b with
    | (b, .ok d) => if anyPoison d then (b, .badMeta) else (b, .ok d)
    | r => r

/-- What a write gives. -/
inductive Wr where
  | ok
  | fault
  | wait
  | fail (s : Status)
  | badMeta
deriving DecidableEq, Repr

/-- Translate every part of a write; the unit parks if one faults, and then no byte is written (R221). -/
def wrTrans (rq : Rq) (u : UnitRef) (c : Cls) : List (Nat × Nat) → Blk → Blk × Wr × List (Nat × Bool × Bool)
  | [], b => (b, .ok, [])
  | (va, n) :: t, b =>
    match translate rq u c va true false b with
    | (b, .ok pa host _ _ sh) =>
      match wrTrans rq u c t b with
      | (b, .ok, l) => (b, .ok, (pa, host, sh) :: l)
      | r => r
    | (b, .fault cause seg gran) =>
      let b := park u c.ctx rq va n true cause (recordFault rq c.ctx true cause seg gran b)
      ((wrTrans rq u c t b).1, .fault, [])
    | (b, .wait) => (b, .wait, [])
    | (b, .fail s) => (b, .fail s, [])
    | (b, .poisoned) => (b, .badMeta, [])

/-- Put the parts of a translated write. -/
def wrPut (u : UnitRef) (c : Cls) : List ((Nat × Bool × Bool) × List PByte) → Blk → Blk × Wr
  | [], b => (b, .ok)
  | ((pa, host, sh), d) :: t, b =>
    match writePhys u (c.biased host sh) pa d host b with
    | (b, .ok) => wrPut u c t b
    | (b, .wait) => (b, .wait)
    | (b, .fail s) => (b, .fail s)

/-- The data of each part. -/
def cutParts : List (Nat × Nat) → List PByte → List (List PByte)
  | [], _ => []
  | (_, n) :: t, d => d.take n :: cutParts t (d.drop n)

/-- Write bytes at a device virtual address at once. -/
def wr (rq : Rq) (u : UnitRef) (c : Cls) (va : Nat) (d : List PByte) (b : Blk) : Blk × Wr :=
  let ps := partsOf va d.length
  match wrTrans rq u c ps b with
  | (b, .ok, l) => wrPut u c (l.zip (cutParts ps d)) b
  | (b, r, _) => (b, r)

/-- Put the parts of a unit's output: this die's memory takes them when the port reports the write done (R401). -/
def wrPutLater (u : UnitRef) (c : Cls) : List ((Nat × Bool × Bool) × List PByte) → Blk → Blk × Wr
  | [], b => (b, .ok)
  | ((pa, host, sh), d) :: t, b =>
    if !host && b.isSelf pa then
      match mustWait b (some u) (paOff pa) d.length with
      | none => wrPutLater u c t (portWrite u (paOff pa) d b)
      | some ls => (sendSnoops ls b, .wait)
    else
      match writePhys u (c.biased host sh) pa d host b with
      | (b, .ok) => wrPutLater u c t b
      | (b, .wait) => (b, .wait)
      | (b, .fail s) => (b, .fail s)

/-- Write a tile or a unit's output: no byte until every byte translates (R221). -/
def wrOut (rq : Rq) (u : UnitRef) (c : Cls) (va : Nat) (d : List PByte) (b : Blk) : Blk × Wr :=
  let ps := partsOf va d.length
  match wrTrans rq u c ps b with
  | (b, .ok, l) => wrPutLater u c (l.zip (cutParts ps d)) b
  | (b, r, _) => (b, r)

/-- Every write of a unit is globally visible (R41, R106). -/
def Blk.writesDone (b : Blk) (u : UnitRef) : Bool :=
  !(b.gs.writes.any (fun w => w.2.2.2 = u)) && !(b.xlat.rwrites.any (fun w => w.unit = u))
    && !(b.host.heldWrites.any (fun w => w.unit = some u))

end Sys2Proof.Machine
end

