-- ==== Sys2Proof/Machine/Queue.lean ====
section
/-! DEFINITION. Queues and their doorbell pages: R26 to R30, R42 to R48, R407, and the forwarding of R270. -/
namespace Sys2Proof.Machine

/-- Function `fn` owns queue `q` (R240, R241). -/
def owns (b : Blk) (fn q : Nat) : Bool :=
  let first := b.obj (Obj.fnQueueFirst + fn) 0
  let cnt := b.obj (Obj.fnQueueCount + fn) (if fn = 0 then 256 else 0)
  first ≤ q && q < first + cnt

/-- FN_CTX_MASK of a function holds context `c` (R240). -/
def ownsCtx (b : Blk) (fn c : Nat) : Bool :=
  (b.obj (Obj.fnCtxMask + fn) (if fn = 0 then 2 ^ 64 - 1 else 0)).testBit c

/-- BLOCK_STATE is RELEASED (R372). -/
def Blk.released (b : Blk) : Bool := b.mg.released

/-- The host's registers are decoded on the lead die, while its link is active (R27, R270). -/
def hostReaches (b : Blk) : Bool := b.straps.lead && b.host.active

/-- The function that owns a queue (R240). -/
def fnOf (b : Blk) (q : Nat) : Option Nat := (List.range 64).find? (fun f => owns b f q)

/-- Write an entry of the detach log (R262). Where the event names no queue or context the byte is free (DEDUCED, log 43). Without a log, or
when the ring is full, the event is counted as lost. -/
def detachEntry (ev : Nat) (fn q ctx : Option Nat) (a c : Nat) (b : Blk) : Blk :=
  let base := b.obj Obj.detachLogBase 0
  let size := 2 ^ b.obj Obj.detachLogLog2 6
  let n := b.host.logWritten
  let free (k : Nat) (x : Option Nat) : Byte := match x with
    | some v => BitVec.ofNat 8 v
    | none => Config.undefByte b.stamp k
  let e := toLe 1 ev ++ toLe 1 (fn.getD 0xFF) ++ [free 2 q, free 3 ctx] ++ toLe 4 a ++ toLe 4 c ++ toLe 4 0
    ++ toLe 8 b.clk.aon ++ toLe 8 0
  let full := base = 0 ∨ size ≤ n - b.obj Obj.dlHead 0
  let h : HostSide := if full then { b.host with logLost := b.host.logLost + 1 } else { b.host with logWritten := n + 1 }
  let b := if full then b else gsWriteB (base + 64 + 32 * (n % size)) e b
  let b : Blk := { b with host := h, stamp := b.stamp + 1 }
  if base = 0 then b else gsWriteB base (toLe 8 h.logWritten ++ toLe 8 h.logLost) b

/-- The same for an event of a queue. -/
def detachQueue (ev n a c : Nat) (b : Blk) : Blk := detachEntry ev (fnOf b n) (some n) (some (b.q n).ctx) a c b

/-- Drop a forwarded item (R270). -/
def fwdDropped (die : Nat) (b : Blk) : Blk :=
  bump Ctr.ddFwdDropped die 1 (raise { cause := 0x07, unit := 6, inst := die, detail := die } b)

/-- Forward a register write to another die (R270, R277). -/
def forwardWrite (die kind fn q off : Nat) (v : W64) (b : Blk) : Blk :=
  match reachFail b 0 b.ident.chip die with
  | some _ => fwdDropped die b
  | none => sendMsg b.ident.chip die {} (.fwdWrite { kind := kind, fn := fn, queue := q, off := off, value := v }) b

/-- The function is disabled (R264). -/
def fnDisabled (b : Blk) (fn : Nat) : Bool := (Tbl.get {} b.host.fns fn).trigger.isSome

/-- Of a disabled function's queues, no doorbell, no binding and no command is taken any more: CQ_HEAD still is, since its
records still leave (R265, R267; DEDUCED, log 46). -/
def pageShut (b : Blk) (fn off : Nat) : Bool := fnDisabled b fn && off ≠ 0x028

/-- Ask another die for a register (R270, R277). -/
def forwardRead (die kind fn q off : Nat) (b : Blk) : Blk :=
  match reachFail b 0 b.ident.chip die with
  | some _ => emit (.regData (BitVec.allOnes 64)) b
  | none =>
    sendMsg b.ident.chip die {} (.fwdRead { kind := kind, fn := fn, queue := q, off := off, value := 0 })
      { b with d2d := { b.d2d with reads := b.d2d.reads ++ [die] } }

/-- A write to a queue's page: ignored when foreign (R241), forwarded when another die serves the queue, otherwise applied. -/
def pageWrite (fn q off : Nat) (v : W64) (f : Blk → Blk) (b : Blk) : Blk :=
  if !(hostReaches b) then b
  else if !(owns b fn q) then bump Ctr.hsForeignWrites 0 1 b
  else if pageShut b fn off then b
  else
    match b.front.queueDie.find? (fun e => e.1 = q) with
    | some (_, d) => forwardWrite d 1 fn q off v b
    | none => f b

/-! ### Cancellation -/

/-- Fragments of a bag that are still to be answered from elsewhere. -/
def bagOrphans (b : Blk) (x : Bag) : List Orphan :=
  (x.frags.filter (fun f => f.vals.isNone && !(f.chip == b.ident.chip && f.die == b.ident.die))).map
    (fun f => { tag := x.tag, chip := f.chip, die := f.die, frag := f.frag, q := x.q })

/-- What a unit has stored leaves its pitch's cache at once: nothing of it becomes visible later (R109), and no dirty line is
discarded (R231). -/
def cleanUnit (uid : Nat) (b : Blk) : Blk :=
  match b.unit? uid with
  | none => b
  | some u => u.dirty.foldl (fun b key => cleanKey u.pitch key b) b

/-- Units of work are dropped, with their bags and fragments and what they were parked on or waiting for (R46, R224). The
output of a unit that was on its way to memory is undefined there (R106, R130). -/
def dropUnits (us : List Nat) (b : Blk) : Blk :=
  let b := us.foldl (fun b u => cleanUnit u b) b
  let tags := (b.bags.filter (fun x => us.contains x.unit)).map (·.tag)
  let gone (u : UnitRef) : Bool :=
    match u with
    | .unit x => us.contains x
    | .frag x => b.frags.any (fun f => f.fid = x && f.req.isNone && tags.contains f.tag)
    | _ => false
  let lost := b.gs.writes.filter (fun w => gone w.2.2.2)
  { b with
    mem := lost.foldl (fun m w => m.forget w.2.1 w.2.2.1.length b.stamp) b.mem
    stamp := b.stamp + 1
    units := b.units.filter (fun u => !us.contains u.uid)
    bags := b.bags.filter (fun x => !us.contains x.unit)
    frags := b.frags.filter (fun f => !(f.req.isNone && tags.contains f.tag))
    orphans := b.orphans ++ (b.bags.filter (fun x => us.contains x.unit)).flatMap (bagOrphans b)
    pitches := b.pitches.map (fun e => (e.1, { e.2 with units := e.2.units.filter (fun x => !us.contains x) }))
    gs := { b.gs with writes := b.gs.writes.filter (fun w => !gone w.2.2.2) }
    xlat := { b.xlat with
      parked := b.xlat.parked.filter (fun p => !gone p.unit)
      held := b.xlat.held.filter (fun h => !gone h.1)
      rreads := b.xlat.rreads.filter (fun r => !gone r.unit) } }

/-- Everything that a descriptor has under way below it is dropped. -/
def dropWork (id : Nat) (b : Blk) : Blk :=
  let b := dropUnits ((b.units.filter (fun u => u.op = id)).map (·.uid)) b
  let b : Blk := { b with pitches := b.pitches.map (fun e => (e.1, { e.2 with comb := e.2.comb.filter (fun c => c.op ≠ id) })) }
  forgetUnit (.desc id) { b with gs := { b.gs with writes := b.gs.writes.filter (fun w => w.2.2.2 ≠ UnitRef.desc id) } }

/-- The operators that stop at their next tile boundary (R46). -/
def tileStop (op : Nat) : Bool := [0x10, 0x11, 0x12, 0x13, 0x30].contains op

/-- Units that an operator has committed: AUX of R46, R258. -/
def committedOf (d : Desc) : Nat :=
  match d.work with
  | .units r => r.finished
  | .copy r => r.committed
  | _ => 0

/-- The descriptor has started, as R46's table says. -/
def Desc.hasStarted (d : Desc) : Bool :=
  if tileStop d.opcode || d.opcode == 0x20 || d.opcode == 0x03 then d.started
  else if d.opcode == 0x02 then false
  else d.stage == .handed || d.stage == .running

/-- AUX of a descriptor that is ended: a barrier's rank that never came (R52), a peg counter (R50), committed units. -/
def stopAux (b : Blk) (d : Desc) : Nat :=
  if d.opcode = 0x03 then 0xFFFFFFFF
  else if d.opcode = 0x02 then idleAux b d
  else committedOf d

/-- End a descriptor with a status: its units are dropped, its committed units stand, and so do the items it has dropped (R46,
R56, R107, R138, R261, R266). -/
def stopDesc (id : Nat) (s : Status) (b : Blk) : Blk :=
  match b.desc? id with
  | none => b
  | some d =>
    if d.stage = .complete then b
    else completeWith id s (stopAux b d) d.dropped (dropWork id b)

/-- A cancellation ends this descriptor, by its class (R46). -/
def cancelled (b : Blk) (id : Nat) : Bool :=
  match b.desc? id with
  | none => false
  | some d => d.stage ≠ .complete && !(d.hasStarted && !(tileStop d.opcode))

/-- Cancel a list of descriptors; the count is of those that complete CANCELLED. Each is marked before the first of them ends: a
tagged descriptor behind a PERIOD of the range is CANCELLED and not LATE (R40, R55). -/
def cancelAll (ids : List Nat) (b : Blk) : Blk × Nat :=
  let out := ids.filter (cancelled b)
  (out.foldl (fun b i => stopDesc i .cancelled b) (out.foldl (fun b i => addStatus i .cancelled b) b), out.length)

/-- Where a queue's TAIL lies among slots: replays count whole lists in a persistent queue (R58). -/
def Queue.tailSlots (x : Queue) : Nat := if x.persistent then x.tail * x.span else x.tail

/-- Slots of the next burst: up to 16, not past TAIL nor the end of the ring or list (R35). -/
def burstLen (x : Queue) : Nat := min 16 (min (x.tailSlots - x.fetch) (x.span - x.fetch % x.span))

/-- A poll at once, past the descriptor cache, whose result is the new t0 (R43). -/
def pollNow (x : Queue) : Queue :=
  { x with
    poll := none
    burst := if x.fetch < x.tailSlots then some { first := x.fetch, n := burstLen x, repoll := true } else none }

/-- Replays whose every descriptor has completed (R27). -/
def replaysDone (b : Blk) (n : Nat) : Nat :=
  let x := b.q n
  (b.descsOf n).foldl (fun m d => min m (d.pos / x.span)) (x.fetch / x.span)

/-- Where a cancellation begins, as a count of slots (R44, R48); none when the range is empty. -/
def cancelFrom (b : Blk) (n slot : Nat) : Option Nat :=
  let x := b.q n
  if x.persistent then
    let cur := replaysDone b n
    let c := if slot < x.span then cur * x.span + slot else (cur + 1) * x.span
    if c < x.tailSlots then some c else none
  else
    let lo := (b.descsOf n).foldl (fun m d => if d.stage = .complete then m else min m d.pos) x.fetch
    let size := x.ringSize
    if slot < size then
      let c := lo + (slot + size - lo % size) % size
      if c < x.tail then some c else none
    else none

/-- Cancel a range of queue `n`: discard or stop its descriptors, skip its unfetched slots, and leave its marker to be
written (R44 to R48). A CANCEL never cancels itself. -/
def cancelRange (n slot epoch : Nat) (byDesc : Option Nat) (b : Blk) : Blk :=
  let x := b.q n
  let tail := x.tailSlots
  match cancelFrom b n slot with
  | none =>
    b.setQ n { x with cancels := x.cancels ++
      [{ skipFrom := x.fetch, skipTo := x.fetch, skipped := 0, reached := true, members := [], epoch := epoch,
         fixedAt := b.clk.half, dropped := 0, byDesc := byDesc }] }
  | some c =>
  let ids := ((b.descsOf n).filter (fun d => d.stage ≠ .complete && c < d.pos + d.slots && some d.id ≠ byDesc)).map (·.id)
  let r := cancelAll ids b
  let b := r.1
  let x := b.q n
  let now := decide (c ≤ x.fetch)
  let stalledIn := x.st == .stalledEarly && !x.stopping && decide (c ≤ x.fetch ∧ x.fetch < tail)
  let rec_ : CancelRange :=
    { skipFrom := c, skipTo := tail, skipped := if now then tail - x.fetch else 0, reached := now, members := ids,
      epoch := epoch, fixedAt := b.clk.half, dropped := r.2, byDesc := byDesc }
  b.setQ n { x with
    cancels := x.cancels ++ [rec_]
    fetch := if now then max x.fetch tail else x.fetch
    short := x.short && !now
    burst := if now then none else x.burst
    poll := if now then none else x.poll
    st := if stalledIn then .running else x.st }

/-! ### The registers -/

/-- DOORBELL on the die that serves the queue (R30, R43, R44). -/
def doorbellHere (n : Nat) (v : W64) (b : Blk) : Blk :=
  let x := b.q n
  if !b.released then b
  else match x.st with
    | .unbound | .bindErr | .draining => b
    | _ =>
      let t32 := v.toNat % 2 ^ 32
      let ep := bitsOf v.toNat 39 32
      let base := if x.persistent then replaysDone b n else x.fetch
      let limit := if x.persistent then 65536 else x.ringSize
      let t := base + (t32 + 2 ^ 32 - base % 2 ^ 32) % 2 ^ 32
      if limit < t - base ∨ t < x.tail then
        bump Ctr.doorbellRejected n 1
          (raise { cause := 0x01, ctx := some x.ctx, queue := some n, unit := 0, detail := v.toNat } b)
      else
        let b := if ep ≠ x.epoch then
            (cancelRange n (bitsOf v.toNat 63 48) ep none b).modQ n (fun x => { x with epoch := ep })
          else b
        let b := if !x.stopping && (x.st == .stalledEarly || x.poll.isSome) then dropReads (.fetch n) b else b
        b.modQ n (fun x =>
          let y := { x with tail := t, short := false }
          if x.stopping then y
          else if x.st = .stalledEarly then pollNow { y with st := .running }
          else if x.poll.isSome then pollNow y
          else y)

def effDoorbell (fn n : Nat) (v : W64) (b : Blk) : Blk := pageWrite fn n 0x000 v (doorbellHere n v) b

/-- Fields that R27 defines; reserved bits read as zero (R8). -/
def qcfgMask : W64 := 0x0F01FFFFFFFF1F1F#64

/-- A die that R290 makes a data-plane peer only, or that cannot be reached, serves no queue. -/
def dieServes (b : Blk) (d : Nat) : Bool :=
  let l := b.link d
  d = b.ident.die || (b.diePresent d && (l.proto == 0 || (decide (3 ≤ l.proto) && bitsOf l.peerRev 23 16 == 3)))

/-- The stream of a QCFG value is another context's on this die: its queues own the streams of their block (R28; DEDUCED, log
78). -/
def streamTaken (b : Blk) (v : W64) : Bool :=
  let x : Queue := { cfg := v }
  x.rt && b.front.queues.any (fun e => e.2.st ≠ .unbound && e.2.stream = x.stream && e.2.ctx ≠ x.ctx)

/-- QCFG values whose fields R29 calls valid. -/
def qcfgFields (b : Blk) (fn n : Nat) (v : W64) : Bool :=
  let x : Queue := { cfg := v }
  decide (6 ≤ x.ringLog2 ∧ x.ringLog2 ≤ 16) && decide (6 ≤ x.cqLog2 ∧ x.cqLog2 ≤ 16)
    && (x.stream < 8 || x.stream == 0xFF) && (x.rt || decide (1 ≤ x.weight))
    && dieServes b x.die && ownsCtx b fn x.ctx
    && (!x.persistent || decide (x.listLen + 1 ≤ x.ringSize)) && decide (n < 256)

/-- QCFG values that R29 calls valid on the die that serves the queue. -/
def qcfgValid (b : Blk) (fn n : Nat) (v : W64) : Bool :=
  qcfgFields b fn n v && !(bitsOf v.toNat 23 22 == b.ident.die && streamTaken b v)

/-- QCFG on the die that serves the queue (R28, R29). -/
def qcfgHere (fn n : Nat) (v : W64) (b : Blk) : Blk :=
  let x := b.q n
  let v := v &&& qcfgMask
  match x.st with
  | .unbound | .stopped | .bindErr =>
    if qcfgValid b fn n v then
      if bitsOf v.toNat 23 22 = b.ident.die then b.setQ n { x with cfg := v, st := .stopped }
      else b.setQ n {}
    else b.setQ n { x with st := .bindErr }
  | _ => b

/-- The die that serves a queue, as the lead die knows it (R26). -/
def servedBy (b : Blk) (n : Nat) : Nat := ((b.front.queueDie.find? (fun e => e.1 = n)).map (·.2)).getD b.ident.die

/-- A queue goes from one die to another: the first lets it go, and the second binds it (R26, R270; DEDUCED, log 50). -/
def moveQueue (d0 fn n : Nat) (v : W64) (b : Blk) : Blk :=
  let d := bitsOf v.toNat 23 22
  let b := if d0 = b.ident.die then b.setQ n {} else forwardWrite d0 1 fn n 0x008 v b
  if d = b.ident.die then qcfgHere fn n v { b with front := { b.front with queueDie := b.front.queueDie.del n } }
  else forwardWrite d 1 fn n 0x008 v { b with front := { b.front with queueDie := b.front.queueDie.set n d } }

/-- QCFG as the host writes it. A valid write that names a new die moves the queue, where its state allows the write (R27). The
lead die asks another die for that state first. -/
def effQcfgWrite (fn n : Nat) (v : W64) (b : Blk) : Blk :=
  let d := bitsOf v.toNat 23 22
  let d0 := servedBy b n
  if hostReaches b && owns b fn n && !pageShut b fn 0x008 && d ≠ d0 && qcfgFields b fn n (v &&& qcfgMask) then
    if d0 = b.ident.die then
      match (b.q n).st with
      | .unbound | .stopped | .bindErr => moveQueue d0 fn n v b
      | _ => b
    else if (reachFail b 0 b.ident.chip d0).isSome then forwardRead d0 1 fn n 0x030 b
    else forwardRead d0 1 fn n 0x030 { b with d2d := { b.d2d with moves := b.d2d.moves ++ [(d0, fn, n, v)] } }
  else pageWrite fn n 0x008 v (qcfgHere fn n v) b

def effCqHeadWrite (fn n : Nat) (v : W64) (b : Blk) : Blk :=
  pageWrite fn n 0x028 v (fun b => b.modQ n (fun x => { x with cqHead := v })) b

/-- A register marked RWS (R27): ignored unless the queue is UNBOUND, STOPPED or BIND_ERR. -/
def rwsHere (n off : Nat) (v : W64) (b : Blk) : Blk :=
  match (b.q n).st with
  | .unbound | .stopped | .bindErr =>
    b.modQ n (fun x =>
      if off = 0x010 then { x with ringBase := v }
      else if off = 0x018 then { x with cqBase := v }
      else if off = 0x020 then { x with cqTailAddr := v }
      else x)
  | _ => b

/-- START (R27, R407). -/
def startHere (n : Nat) (b : Blk) : Blk :=
  (if (b.q n).st == .stalledEarly then dropReads (.fetch n) b else b).modQ n (fun x =>
    match x.st with
    | .stopped => { x with st := .running, stopping := false, poll := none, burst := none }
    | .stalledEarly => pollNow { x with st := .running, stopping := false }
    | .running => { x with stopping := false }
    | _ => x)

/-- STOP (R407): the queue is STOPPED when INFLIGHT is 0, which `settle` finds. -/
def stopHere (n : Nat) (b : Blk) : Blk :=
  b.modQ n (fun x =>
    match x.st with
    | .running | .stalledEarly => { x with stopping := true, poll := none, burst := none }
    | _ => x)

/-- QRESET (R27). -/
def qresetHere (n : Nat) (b : Blk) : Blk :=
  b.modQ n (fun x =>
    match x.st with
    | .stopped => { x with fetch := 0, tail := 0, written := 0, reported := 0, epoch := 0, patches := [], rearmFail := none,
                           short := false }
    | _ => x)

/-- UNBIND (R29). -/
def unbindHere (n : Nat) (b : Blk) : Blk :=
  match (b.q n).st with
  | .stopped | .bindErr => b.setQ n {}
  | _ => b

def effStart (fn n : Nat) (b : Blk) : Blk := pageWrite fn n 0x038 1 (startHere n) b
def effStop (fn n : Nat) (b : Blk) : Blk := pageWrite fn n 0x038 2 (stopHere n) b
def effQreset (fn n : Nat) (b : Blk) : Blk := pageWrite fn n 0x038 4 (qresetHere n) b

/-- UNBIND. The die that serves the queue is asked whether it has let it go (R29, R240; DEDUCED, log 50). -/
def effUnbind (fn n : Nat) (b : Blk) : Blk :=
  let b1 := pageWrite fn n 0x038 8 (unbindHere n) b
  if hostReaches b && owns b fn n && !pageShut b fn 0x038 && servedBy b n ≠ b.ident.die then forwardRead (servedBy b n) 1 fn n 0x030 b1
  else b1

/-- A write to a doorbell page, by offset, on the die that serves the queue (R27). Several QCTRL bits act in bit order. -/
def pageWriteHere (fn n off : Nat) (v : W64) (b : Blk) : Blk :=
  if pageShut b fn off then b
  else if off = 0x000 then doorbellHere n v b
  else if off = 0x008 then qcfgHere fn n v b
  else if off = 0x028 then b.modQ n (fun x => { x with cqHead := v })
  else if off = 0x038 then
    let b := if v.toNat.testBit 0 then startHere n b else b
    let b := if v.toNat.testBit 1 then stopHere n b else b
    let b := if v.toNat.testBit 2 then qresetHere n b else b
    if v.toNat.testBit 3 then unbindHere n b else b
  else rwsHere n off v b

/-- A read of a doorbell page register (R27). -/
def pageRead (n off : Nat) (b : Blk) : W64 :=
  let x := b.q n
  if off = 0x008 then x.cfg
  else if off = 0x010 then x.ringBase
  else if off = 0x018 then x.cqBase
  else if off = 0x020 then x.cqTailAddr
  else if off = 0x028 then x.cqHead
  else if off = 0x030 then
    BitVec.ofNat 64 (x.st.code + 16 * boolNat x.phase + 2 ^ 8 * x.epoch + 2 ^ 16 * b.inflight n + 2 ^ 32 * (x.fetch % 2 ^ 32))
  else if off = 0x040 then BitVec.ofNat 64 (if x.persistent then replaysDone b n % 2 ^ 32 else 0)
  else 0

def execDoorbell (fn q : Nat) (v : W64) (s : State) : Host.Outcome State Fault Refusal :=
  fireReady (fn < 64 && q < 256) (effDoorbell fn q v) s
def execQcfgWrite (fn q : Nat) (v : W64) (s : State) : Host.Outcome State Fault Refusal :=
  fireReady (fn < 64 && q < 256) (effQcfgWrite fn q v) s
def execCqHeadWrite (fn q : Nat) (v : W64) (s : State) : Host.Outcome State Fault Refusal :=
  fireReady (fn < 64 && q < 256) (effCqHeadWrite fn q v) s
def execStart (fn q : Nat) (s : State) : Host.Outcome State Fault Refusal :=
  fireReady (fn < 64 && q < 256) (effStart fn q) s
def execStop (fn q : Nat) (s : State) : Host.Outcome State Fault Refusal :=
  fireReady (fn < 64 && q < 256) (effStop fn q) s
def execQreset (fn q : Nat) (s : State) : Host.Outcome State Fault Refusal :=
  fireReady (fn < 64 && q < 256) (effQreset fn q) s
def execUnbind (fn q : Nat) (s : State) : Host.Outcome State Fault Refusal :=
  fireReady (fn < 64 && q < 256) (effUnbind fn q) s

end Sys2Proof.Machine
end

