-- ==== Sys2Proof/Machine/Tables.lean ====
section
/-! DEFINITION. Tables: the descriptor and its checks (R63 to R66), rows (R69 to R72), homes (R73), index classes (R76),
replica directories (R78, R79) and the sketches (R82). -/
namespace Sys2Proof.Machine

def Captured.f (t : Captured) (off n : Nat) : Nat := field t.bytes off n
def Captured.fmt (t : Captured) : Nat := t.f 1 1
def Captured.ixFmt (t : Captured) : Nat := t.f 2 1
def Captured.flags (t : Captured) : Nat := t.f 3 1
def Captured.freezeAll (t : Captured) : Bool := t.flags.testBit 0
def Captured.mix (t : Captured) : Bool := t.flags.testBit 1
def Captured.bf16Sr (t : Captured) : Bool := t.flags.testBit 2
def Captured.sketch (t : Captured) : Bool := t.flags.testBit 3
def Captured.dim (t : Captured) : Nat := t.f 4 2
def Captured.stride (t : Captured) : Nat := t.f 6 2
def Captured.rows (t : Captured) : Nat := t.f 8 8
def Captured.k (t : Captured) : Nat := t.f 16 2
def Captured.accExp (t : Captured) : Int := signedOf 8 (t.f 18 1)
def Captured.active (t : Captured) : Nat := t.f 19 1 % 4
def Captured.layout (t : Captured) : Nat := t.f 20 1
def Captured.rowTensors (t : Captured) : Nat := t.layout % 4
def Captured.tensorBf16 (t : Captured) : Bool := t.layout.testBit 2
def Captured.rowScalar (t : Captured) : Bool := t.layout.testBit 3
def Captured.colState (t : Captured) : Bool := t.layout.testBit 4
def Captured.dies (t : Captured) : Nat := t.f 21 1
def Captured.group (t : Captured) : Nat := t.f 22 2
def Captured.chipset (t : Captured) : Nat := t.f 24 8
def Captured.dieFirst (t : Captured) (d : Nat) : Nat := t.f (32 + 8 * d) 8 % 2 ^ 48
def Captured.repDir (t : Captured) : Nat := t.f 64 8
def Captured.repLog2 (t : Captured) : Nat := t.f 72 1
def Captured.freezeMap (t : Captured) : Nat := t.f 80 8
def Captured.coef (t : Captured) : Nat := t.f 88 8
def Captured.precond (t : Captured) : Nat := t.f 96 8
def Captured.stateBase (t : Captured) : Nat := t.f 104 8
def Captured.stateStride (t : Captured) : Nat := t.f 112 4
def Captured.arenaBase (t : Captured) : Nat := t.f 120 8
def Captured.arenaLog2 (t : Captured) : Nat := t.f 128 1
def Captured.overBase (t : Captured) : Nat := t.f 136 8
def Captured.overBytes (t : Captured) : Nat := t.f 144 8
def Captured.rowBase (t : Captured) (v : Nat) : Nat := t.f (192 + 16 * v) 8
def Captured.vtag (t : Captured) (v : Nat) : Nat := t.f (200 + 16 * v) 4

/-- Bytes of a row (R69). -/
def rowBytes (fmt dim : Nat) : Nat :=
  match fmt with
  | 0 => 4 * dim
  | 1 => 2 * dim
  | 2 => dim + 4
  | 3 => dim / 2 + 4
  | 4 => 2 * dim
  | _ => dim

def Captured.rowBytes (t : Captured) : Nat := Machine.rowBytes t.fmt t.dim

/-- DIM lies in its format's range (R69). -/
def dimOk (fmt dim : Nat) : Bool :=
  match fmt with
  | 0 | 1 | 2 => decide (4 ≤ dim ∧ dim ≤ 1024) && dim % 4 == 0
  | 3 => decide (8 ≤ dim ∧ dim ≤ 1024) && dim % 8 == 0
  | 4 | 5 => decide (1 ≤ dim ∧ dim ≤ 8)
  | _ => false

/-- A multiple of 16, rounding up (R71). -/
def up16 (n : Nat) : Nat := (n + 15) / 16 * 16

/-- The reserved bytes and bits of a table descriptor are zero (R64). -/
def Captured.rsvOk (t : Captured) : Bool :=
  let l := t.bytes
  t.flags < 16 && t.f 19 1 < 4 && t.layout < 32 && zeroAt l 73 7 && zeroAt l 116 4 && zeroAt l 129 7 && zeroAt l 152 40
    && [0, 1, 2, 3].all (fun d => zeroAt l (38 + 8 * d) 2 && zeroAt l (204 + 16 * d) 4)

/-- Every address field keeps its alignment (R64, R66). -/
def Captured.alignOk (t : Captured) : Bool :=
  t.chipset % 8 == 0 && t.repDir % 128 == 0 && t.freezeMap % 8 == 0 && t.coef % 64 == 0 && t.precond % 64 == 0
    && t.stateBase % 64 == 0 && t.arenaBase % 64 == 0 && t.overBase % 64 == 0
    && [0, 1, 2, 3].all (fun v => t.rowBase v % 64 == 0)

/-- The checks of R66 that make an operator MALFORMED, other than the test of ACTIVE. -/
def Captured.shapeOk (t : Captured) : Bool :=
  t.f 0 1 == 1 && t.rsvOk && t.alignOk && t.ixFmt < 4 && dimOk t.fmt t.dim
    && t.stride == (if t.fmt < 4 then up16 t.rowBytes else t.rowBytes)
    && decide (1 ≤ t.rows ∧ t.rows ≤ 2 ^ 48) && (2 ≤ t.ixFmt || t.rows < 2 ^ 32)
    && decide (1 ≤ t.k ∧ t.k ≤ 16384) && decide (1 ≤ t.dies ∧ t.dies ≤ 4)
    && t.dieFirst 0 == 0
    && [1, 2, 3].all (fun d => if d < t.dies then t.dieFirst (d - 1) ≤ t.dieFirst d else t.dieFirst d == 0)
    && (if t.repDir = 0 then t.repLog2 == 0 else decide (6 ≤ t.repLog2 ∧ t.repLog2 ≤ 24))
    && t.rowTensors != 3 && t.stateStride % 16 == 0
    && t.dieFirst (t.dies - 1) ≤ ceilDiv t.rows t.k

/-- The descriptor passes R66. -/
def Captured.ok (t : Captured) : Bool := t.shapeOk && t.rowBase t.active != 0

/-- Features that R66 asks of an operator on this table. -/
def tableNeeds (op : Nat) (t : Captured) : Nat :=
  (if op = 0x20 ∨ op = 0x22 then 1 else 0)
    ||| (if op = 0x22 ∧ t.fmt = 3 then 8 else 0)
    ||| (if (op = 0x22 ∨ op = 0x23) ∧ t.precond ≠ 0 then 4 else 0)
    ||| (if (op = 0x22 ∨ op = 0x24) ∧ (t.repDir ≠ 0 ∨ t.group ≠ 0xFFFF) then 16 else 0)

/-- Every feature of a mask is in the chip's set (R288). -/
def hasFeatures (b : Blk) (need : Nat) : Bool := need &&& b.features == need

/-- mix64 (R73). -/
def mix64 (x : W64) : W64 :=
  let x := x ^^^ (x >>> 31)
  let x := x * 0x8F3C5A27D1496B0D#64
  let x := x ^^^ (x >>> 29)
  let x := x * 0xC2B73E9158AF04D5#64
  x ^^^ (x >>> 32)

/-- Where a row lives: its place in the chip set, die and die-local row (R73). -/
structure Home where
  pos : Nat
  die : Nat
  lrow : Nat
deriving DecidableEq, Repr, Inhabited

def homeOf (t : Captured) (row : Nat) : Home :=
  let r := row % t.k
  let q := row / t.k
  let pos := if t.mix then (r + (mix64 (BitVec.ofNat 64 q)).toNat % t.k) % t.k else r
  let die := [1, 2, 3].foldl (fun m d => if d < t.dies ∧ t.dieFirst d ≤ q then d else m) 0
  { pos := pos, die := die, lrow := q - t.dieFirst die }

/-- The class of an index (R76). -/
inductive IxClass where
  | missing
  | negative
  | range
  | valid (row : Nat)
deriving DecidableEq, Repr

/-- Bytes of an index element. -/
def ixBytes (ixFmt : Nat) : Nat := if ixFmt < 2 then 4 else 8

def classify (t : Captured) (v : Nat) : IxClass :=
  let w := 8 * ixBytes t.ixFmt
  if v = 2 ^ w - 1 then .missing
  else if t.ixFmt % 2 = 1 ∧ 2 ^ (w - 1) ≤ v then .negative
  else if t.rows ≤ v then .range
  else .valid v

/-- Address of a die-local row of slot `v` (R71). -/
def rowAddr (t : Captured) (v lrow : Nat) : Nat := t.rowBase v + lrow * t.stride

/-- The 64-byte sectors that a row touches, as offsets from the base (R72). -/
def sectorSpan (base va n : Nat) : Nat × Nat :=
  let o := va - base
  let lo := o / 64
  (base + 64 * lo, 64 * ((o + n - 1) / 64 + 1 - lo))

/-- Read a table's descriptor in a context, through a requester's cache (R63, R228). -/
def readTable (rq : Rq) (u : UnitRef) (c : Cls) (t : Nat) (b : Blk) : Blk × Rd :=
  rdMeta rq u c ((ctxHdr b c.ctx).tableDir + 256 * t) 256 b

/-- The chip at a place of the chip set (R74). -/
def readChip (rq : Rq) (u : UnitRef) (c : Cls) (t : Captured) (pos : Nat) (b : Blk) : Blk × Rd :=
  rdMeta rq u c (t.chipset + 2 * pos) 2 b

/-- What a probe of the replica directory finds (R79). -/
inductive Probe where
  | hit (index : Nat)
  | miss
  | wait
  | fault
  | fail (s : Status)
  | badMeta
deriving DecidableEq, Repr

/-- Probe at most `n` buckets from bucket `k`. -/
def probeFrom (rq : Rq) (u : UnitRef) (c : Cls) (t : Captured) (slot row cap : Nat) : Nat → Nat → Blk → Blk × Probe
  | 0, _, b => (b, .miss)
  | n + 1, k, b =>
    match rdMeta rq u c (t.repDir + 128 + 16 * (k % 2 ^ t.repLog2)) 16 b with
    | (b, .ok d) =>
      let w := le (plain d)
      if w % 2 ^ 64 = 0 then (b, .miss)
      else if w.testBit 50 && bitsOf w 47 0 == row && bitsOf w 49 48 == slot then
        (b, if bitsOf w 95 64 < cap then .hit (bitsOf w 95 64) else .miss)
      else probeFrom rq u c t slot row cap n (k + 1) b
    | (b, .fault) => (b, .fault)
    | (b, .wait) => (b, .wait)
    | (b, .fail s) => (b, .fail s)
    | (b, .badMeta) => (b, .badMeta)

/-- Consult the replica directory: a hit gives the address of the replica row (R78, R79). -/
def probeReplica (rq : Rq) (u : UnitRef) (c : Cls) (t : Captured) (slot row : Nat) (b : Blk) : Blk × Probe × Nat :=
  if t.repDir = 0 then (b, .miss, 0)
  else
    match rdMeta rq u c t.repDir 16 b with
    | (b, .ok d) =>
      let base := field (plain d) 0 8
      let r := probeFrom rq u c t slot row (field (plain d) 8 4) 16 (mix64 (BitVec.ofNat 64 row)).toNat b
      (r.1, r.2, match r.2 with
        | .hit i => base + i * t.stride
        | _ => 0)
    | (b, .fault) => (b, .fault, 0)
    | (b, .wait) => (b, .wait, 0)
    | (b, .fail s) => (b, .fail s, 0)
    | (b, .badMeta) => (b, .badMeta, 0)

/-- The constants C_j of R82. -/
def sketchC : List W64 := [0, 0x3C6EF372FE94F82B#64, 0x71A40D5B96E32C87#64, 0xA85DB6194F07E3C1#64]

/-- Count a VALID index in pitch p's sketches (R82). -/
def sketchCount (p table row : Nat) (b : Blk) : Blk :=
  let key : W64 := BitVec.ofNat 64 row ||| BitVec.ofNat 64 (table * 2 ^ 48)
  let x := b.pitch p
  let sk := (List.range 4).foldl (fun (s : Tbl Nat) j =>
    let i := 4096 * j + bitsOf (mix64 (key ^^^ sketchC.getD j 0)).toNat 63 52
    Tbl.set s i (min (Tbl.get 0 s i + 1) 0xFFFFFFFF)) x.sketch
  b.setPitch p { x with sketch := sk }

/-- Decoded elements of a row, as R70 and R100 take them: the codes or exact values, and the trailer of a code row. A byte
of a poisoned sector makes every element of the row the quiet NaN (R389). -/
structure RowVals where
  x : List W32
  s : W32 := 0
  o : W32 := 0
  codes : Bool
deriving DecidableEq, Repr, Inhabited

/-- An integer code as FP32: exact. -/
def intTo32 (x : Int) : W32 := BitVec.ofNat 32 (fmt32.write .nearestEven 0 (Fp.ofInt x))

/-- Read the elements of row bytes in a row format (R69, R70). -/
def rowVals (fmt dim : Nat) (d : List PByte) : RowVals :=
  let l := plain d
  if anyPoison d then
    { x := List.replicate dim poisonNan, s := poisonNan, o := poisonNan, codes := fmt == 2 || fmt == 3 }
  else match fmt with
    | 0 => { x := (valuesAt l 0 4 dim).map (BitVec.ofNat 32), codes := false }
    | 1 => { x := (valuesAt l 0 2 dim).map b16to32, codes := false }
    | 2 => { x := (valuesAt l 0 1 dim).map (fun (v : Nat) => intTo32 v), s := f16to32 (field l dim 2),
             o := f16to32 (field l (dim + 2) 2), codes := true }
    | 3 => { x := (List.range dim).map (fun i => intTo32 (byteAt l (i / 2) / (if i % 2 = 0 then 1 else 16) % 16)),
             s := f16to32 (field l (dim / 2) 2), o := f16to32 (field l (dim / 2 + 2) 2), codes := true }
    | 4 => { x := (valuesAt l 0 2 dim).map f16to32, codes := false }
    | _ => { x := (valuesAt l 0 1 dim).map (fun v => intTo32 (signedOf 8 v)), codes := false }

/-- One row pooled into the accumulators (R100). -/
def poolRow (acc : List W32) (off : W32) (w : W32) (r : RowVals) : List W32 × W32 :=
  if r.codes then
    let c := f32mul w r.s
    (List.zipWith (fun a q => f32fma c q a) acc r.x, f32add off (f32mul w r.o))
  else (List.zipWith (fun a x => f32fma w x a) acc r.x, off)

/-- The fragment's partial (R100). -/
def poolEnd (codes bf16 : Bool) (acc : List W32) (off : W32) : List W32 :=
  let p := if codes then acc.map (fun a => f32add a off) else acc
  if bf16 then p.map (fun x => b16to32 (f32toB16 x)) else p

end Sys2Proof.Machine
end

