-- ==== Sys2Proof/Machine/Operands.lean ====
section
/-! DEFINITION. The bodies of the descriptors: every operand form of the opcode table (R34) and the checks of each chapter, on
the descriptor's own fields, on what is read before dispatch, and on the tables it names. -/
namespace Sys2Proof.Machine

/-- The opcode table of R34. -/
def opcodes : List Nat :=
  [0x01, 0x02, 0x03, 0x04, 0x05, 0x06, 0x07, 0x08, 0x10, 0x11, 0x12, 0x13, 0x20, 0x22, 0x23, 0x24, 0x28, 0x30, 0x31]

/-- Opcodes that may carry PERIOD_TAGGED (R55). -/
def taggable (op : Nat) : Bool := [0x10, 0x12, 0x11, 0x13, 0x30, 0x02, 0x01].contains op

/-! ### The descriptor's own fields -/

/-- PEG_LOCAL (R50). -/
def pegLocalOk (l : List Byte) : Bool := byteAt l 8 < 2 && byteAt l 9 < 64 && zeroAt l 10 6 && zeroAt l 24 40

/-- PEG_GLOBAL (R51). -/
def pegGlobalOk (l : List Byte) : Bool :=
  let red := byteAt l 8
  let n := byteAt l 9
  red < 4 && (if red = 0 then n == 0 else decide (1 ≤ n ∧ n ≤ 8)) && byteAt l 10 < 16 && zeroAt l 11 5 && zeroAt l 20 4
    && field l 24 8 % 8 == 0 && field l 32 8 % 8 == 0 && zeroAt l 40 24

/-- PERIOD (R54): untagged, from a queue bound to a stream. -/
def periodOk (l : List Byte) (rt : Bool) : Bool :=
  let mode := byteAt l 8
  let p := field l 12 4
  let dl := field l 16 4
  rt && !((byteAt l 1).testBit 2) && zeroAt l 9 3 && zeroAt l 20 44
    && (match mode with
        | 0 => p == 0 && decide (1 ≤ dl)
        | 1 => decide (2048 ≤ p ∧ 1 ≤ dl ∧ dl ≤ p)
        | 2 => p == 0 && dl == 0
        | _ => false)

/-- KINDLE (R61). -/
def kindleOk (l : List Byte) : Bool :=
  decide (1 ≤ byteAt l 8 ∧ byteAt l 8 < 16) && zeroAt l 9 3 && decide (field l 12 4 ≤ 1048576)
    && decide (field l 16 4 ≤ 1048576) && zeroAt l 20 44

/-- REARM (R59): its ENTRIES and table are checked at dispatch. -/
def rearmOk (l : List Byte) (persistent : Bool) : Bool :=
  persistent && zeroAt l 10 6 && field l 16 8 % 16 == 0 && zeroAt l 24 40

/-- CANCEL (R45): the test of the target's context is made at dispatch. -/
def cancelOk (l : List Byte) : Bool := zeroAt l 9 1 && zeroAt l 12 52

/-- MAINT (R62). -/
def maintOk (l : List Byte) : Bool :=
  let sel := byteAt l 9
  let tgt := byteAt l 10
  let ent := byteAt l 11
  decide (1 ≤ byteAt l 8 ∧ byteAt l 8 ≤ 3) && sel < 3 && decide (1 ≤ tgt ∧ tgt < 8)
    && (if sel = 1 then (if tgt.testBit 0 then ent < 48 else ent < 32) else ent == 0)
    && (if sel = 0 then field l 16 8 % 128 == 0 && field l 24 8 % 128 == 0 && decide (128 ≤ field l 24 8) else true)
    && zeroAt l 32 32

/-- LOOKUP (R87). `fwd`: a forward record, whose output fields are ignored (R146). -/
def lookupOk (l : List Byte) (fwd : Bool) : Bool :=
  let pool := byteAt l 8
  let out := byteAt l 9
  let opt := byteAt l 10
  let bags := field l 12 4
  let seg := field l 20 2
  let wts := field l 56 8
  pool < 3 && opt < 4 && zeroAt l 11 1 && decide (1 ≤ bags ∧ bags ≤ 65536) && decide (field l 16 4 ≤ 16777216)
    && decide (seg ≤ 4096) && (if seg = 0 then field l 22 2 < 4096 else field l 22 2 == 0) && zeroAt l 28 4
    && field l 32 8 % 8 == 0 && (seg != 0 || field l 32 8 == 0)
    && field l 40 8 % 2 == 0 && (bags != 1 || field l 40 8 == 0)
    && (if pool = 2 then wts != 0 else wts == 0) && wts % (if opt.testBit 0 then 2 else 4) == 0
    && field l 72 8 % 8 == 0 && zeroAt l 88 40
    && (fwd || (out < 3 && field l 24 4 % 64 == 0 && field l 64 8 % 64 == 0 && field l 80 8 % 4 == 0
        && (if out = 2 then field l 80 8 != 0 else field l 80 8 == 0)))

/-- Bytes of an output element: FP32, or a two-byte format. -/
def outBytes (fmt : Nat) : Nat := if fmt = 0 then 4 else 2

/-- LATTICE (R111). -/
def latticeOk (l : List Byte) (fwd tagged : Bool) : Bool :=
  let dims := byteAt l 8
  let cf := byteAt l 9
  let es := if cf = 0 then 4 else 2
  decide (2 ≤ dims ∧ dims ≤ 4) && cf < 2 && decide (1 ≤ byteAt l 11 ∧ byteAt l 11 ≤ 32)
    && decide (1 ≤ field l 12 4 ∧ field l 12 4 ≤ 16777216)
    && field l 16 4 % es == 0 && decide (dims * es ≤ field l 16 4)
    && field l 24 8 % es == 0 && field l 32 8 % 64 == 0 && field l 48 8 % 8 == 0
    && zeroAt l (64 + 4 * dims) (16 - 4 * dims) && zeroAt l (80 + 4 * dims) (16 - 4 * dims) && zeroAt l 96 32
    && !(tagged && field l 48 8 == 0)
    && (fwd || (byteAt l 10 < 3 && field l 20 4 % 16 == 0 && field l 40 8 % 16 == 0 && field l 56 8 % 64 == 0))

/-- Bytes of an array operand element (R123). -/
def inBytes (fmt : Nat) : Nat := if fmt < 2 then 1 else if fmt < 4 then 2 else 4

/-- ARRAY_RUN (R127, R128). -/
def arrayRunOk (l : List Byte) (tagged : Bool) : Bool :=
  let inf := byteAt l 8
  let out := byteAt l 9
  let fl := byteAt l 10
  let m := field l 12 4
  let n := field l 16 4
  let k := field l 20 4
  let s := inBytes inf
  let so := if out = 0 ∨ out = 3 then 4 else 2
  -- a leading dimension is long enough when it spans one row (or column), or there is only one
  let ldOk (ld many len sz : Nat) : Bool := decide (many ≤ 1) || decide (len * sz ≤ ld)
  inf < 5 && out < 4 && fl < 32 && zeroAt l 11 1 && decide (1 ≤ m ∧ m ≤ 16777216) && decide (1 ≤ n ∧ n ≤ 65536)
    && decide (1 ≤ k ∧ k ≤ 65536) && field l 24 8 % s == 0 && field l 32 8 % s == 0 && field l 40 8 % so == 0
    && (if fl.testBit 0 then ldOk (field l 48 4) k m s else ldOk (field l 48 4) m k s)
    && (if fl.testBit 1 then ldOk (field l 52 4) n k s else ldOk (field l 52 4) k n s)
    && (if fl.testBit 2 then ldOk (field l 56 4) n m so else ldOk (field l 56 4) m n so)
    && field l 64 8 % 4 == 0 && field l 72 8 % 8 == 0 && zeroAt l 80 48
    && (if out = 3 then inf == 1 && field l 60 4 == 0x3F800000 && field l 64 8 == 0 else inf != 1)
    && !(tagged && field l 72 8 == 0)

/-- Outputs of one INTERACT sample (R132). -/
def interactCount (l : List Byte) : Nat :=
  let f := field l 12 2
  if (byteAt l 10).testBit 0 then f * (f + 1) / 2 else f * (f - 1) / 2

/-- INTERACT (R131, R132). -/
def interactOk (l : List Byte) (tagged : Bool) : Bool :=
  let f := field l 12 2
  let dm := field l 14 2
  byteAt l 8 < 2 && byteAt l 9 < 2 && byteAt l 10 < 2 && zeroAt l 11 1 && decide (2 ≤ f ∧ f ≤ 128)
    && decide (4 ≤ dm ∧ dm ≤ 1024) && dm % 4 == 0 && decide (1 ≤ field l 16 4 ∧ field l 16 4 ≤ 65536)
    && field l 20 4 % 16 == 0 && field l 32 8 % 8 == 0 && field l 40 8 % 16 == 0 && field l 48 4 % 16 == 0
    && decide (interactCount l * outBytes (byteAt l 9) ≤ field l 48 4) && zeroAt l 52 4 && field l 56 8 % 8 == 0
    && zeroAt l 64 64 && !(tagged && field l 56 8 == 0)

/-- SCATTER (R145). -/
def scatterOk (l : List Byte) : Bool :=
  let g := byteAt l 8
  let e := if g = 0 then 4 else 2
  g < 2 && byteAt l 9 < 2 && zeroAt l 10 2 && field l 12 4 % e == 0 && field l 16 8 % 64 == 0 && field l 24 8 % e == 0
    && field l 32 8 % 16 == 0 && zeroAt l 40 24

/-- The STEP names its barrier instance with certainty (R173). -/
def stepInstanceOk (l : List Byte) : Bool :=
  let br := byteAt l 10
  bitsOf br 6 4 == 0 && !(br.testBit 7 && field l 12 4 != 0)

/-- STEP (R171). -/
def stepOk (l : List Byte) : Bool :=
  field l 8 2 < 4096 && stepInstanceOk l && zeroAt l 11 1 && field l 24 8 % 64 == 0 && field l 32 8 % 64 == 0
    && field l 40 8 % 64 == 0 && zeroAt l 48 16

/-- PRECOND (R193). -/
def precondOk (l : List Byte) : Bool := field l 8 2 < 4096 && zeroAt l 10 54

/-- REFRESH (R199). -/
def refreshOk (l : List Byte) : Bool :=
  let mode := byteAt l 10
  let n := field l 12 4
  field l 8 2 < 4096 && mode < 2 && zeroAt l 11 1
    && (if mode = 0 then n == 0 && field l 16 8 == 0 else decide (1 ≤ n ∧ n ≤ 16777216) && field l 16 8 % 8 == 0)
    && zeroAt l 24 40

/-- TABLE_SWAP (R200). -/
def swapOk (l : List Byte) : Bool := field l 8 2 < 4096 && byteAt l 10 < 4 && zeroAt l 11 53

/-- COUNT[i] of a COPY; 1 beyond DIMS (R255). -/
def copyCount (l : List Byte) (i : Nat) : Nat := if i < byteAt l 8 then field l (12 + 4 * i) 4 else 1
def copyElem (l : List Byte) : Nat := 2 ^ byteAt l 9
def copyTrans (l : List Byte) : Bool := (byteAt l 10).testBit 0
def srcStride (l : List Byte) (i : Nat) : Nat := field l (48 + 8 * (i - 1)) 8
def dstStride (l : List Byte) (i : Nat) : Nat := field l (80 + 8 * (i - 1)) 8

/-- i0 values in a block of a transposed tile (R256). -/
def copyC (l : List Byte) : Nat := 4096 / (64 * copyElem l)

/-- Tiles of one (i2, i3, i4), or of one run (R256). -/
def copyRunTiles (l : List Byte) : Nat := ceilDiv (copyCount l 0 * copyElem l) 4096
def copyBlocks0 (l : List Byte) : Nat := ceilDiv (copyCount l 0) (copyC l)
def copyBlocks1 (l : List Byte) : Nat := ceilDiv (copyCount l 1) 64

/-- Tiles of the whole transfer. -/
def copyTiles (l : List Byte) : Nat :=
  let outer := copyCount l 2 * copyCount l 3 * copyCount l 4
  if copyTrans l then outer * (copyBlocks0 l * copyBlocks1 l) else outer * copyCount l 1 * copyRunTiles l

/-- Last byte that a side of the transfer touches, relative to its base: strides are unsigned. -/
def copyReach (l : List Byte) (dst : Bool) : Nat :=
  let e := copyElem l
  let st := if dst then dstStride l else srcStride l
  let far := [2, 3, 4].foldl (fun a i => a + (copyCount l i - 1) * st i) 0
  let c0 := copyCount l 0 - 1
  let c1 := copyCount l 1 - 1
  (if dst && copyTrans l then c1 * e + c0 * st 1 else c0 * e + c1 * st 1) + far + e - 1

/-- COPY (R254, R257). -/
def copyOk (l : List Byte) : Bool :=
  let dims := byteAt l 8
  let e := copyElem l
  let eng := byteAt l 11
  decide (1 ≤ dims ∧ dims ≤ 5) && byteAt l 9 < 4 && byteAt l 10 < 2 && (eng < 8 || eng == 0xFF)
    && !(copyTrans l && dims == 1)
    && [0, 1, 2, 3, 4].all (fun i =>
        let c := field l (12 + 4 * i) 4
        if i < dims then decide (1 ≤ c ∧ c ≤ 16777216) else c == 0)
    && field l 32 8 % e == 0 && field l 40 8 % e == 0
    && [1, 2, 3, 4].all (fun i =>
        if i < dims then srcStride l i % e == 0 && dstStride l i % e == 0 else srcStride l i == 0 && dstStride l i == 0)
    && zeroAt l 112 16
    && decide (copyTiles l < 2 ^ 32)
    && decide (copyCount l 0 * copyCount l 1 * copyCount l 2 * copyCount l 3 * copyCount l 4 * e ≤ 2 ^ 44)
    && decide (field l 32 8 + copyReach l false < 2 ^ 52) && decide (field l 40 8 + copyReach l true < 2 ^ 52)

/-- BIAS_FLIP (R247). -/
def biasOk (l : List Byte) : Bool :=
  byteAt l 8 < 2 && zeroAt l 9 3 && decide (1 ≤ field l 12 4 ∧ field l 12 4 ≤ 65536) && field l 16 8 % 2 ^ 21 == 0
    && zeroAt l 24 40

/-- The slots that an opcode's descriptor takes: any for NOP, 2 for the operators with long bodies, else 1. -/
def lenOk (op len : Nat) : Bool :=
  if op = 0x01 then decide (1 ≤ len ∧ len ≤ 4) else if [0x10, 0x11, 0x12, 0x13, 0x30].contains op then len == 2 else len == 1

/-- The descriptor's own body, by its chapter. -/
def bodyOk (l : List Byte) (x : Queue) : Bool :=
  let op := byteAt l 0
  let tagged := (byteAt l 1).testBit 2
  match op with
  | 0x01 => true
  | 0x02 => pegLocalOk l
  | 0x03 => pegGlobalOk l
  | 0x04 => periodOk l x.rt
  | 0x05 => kindleOk l
  | 0x06 => rearmOk l x.persistent
  | 0x07 => cancelOk l
  | 0x08 => maintOk l
  | 0x10 => lookupOk l false
  | 0x11 => interactOk l tagged
  | 0x12 => latticeOk l false tagged
  | 0x13 => arrayRunOk l tagged
  | 0x20 => scatterOk l
  | 0x22 => stepOk l
  | 0x23 => precondOk l
  | 0x24 => refreshOk l
  | 0x28 => swapOk l
  | 0x30 => copyOk l
  | 0x31 => biasOk l
  | _ => false

/-- The rules of R34 on the header. `whole`: the descriptor does not run past the last slot. -/
def headerOk (l : List Byte) (x : Queue) (whole : Bool) : Bool :=
  let op := byteAt l 0
  let fl := byteAt l 1
  let mask := byteAt l 5
  opcodes.contains op && byteAt l 4 == x.stream && field l 2 2 != 0xFFFF && whole
    && !(fl.testBit 2 && (!(taggable op) || !x.rt))
    && (if fl.testBit 1 then mask % 16 != 0 else bitsOf fl 7 4 == 0 && mask == 0)
    && mask < 16

/-- Every rule of R34 that needs no memory. -/
def slotOk (l : List Byte) (x : Queue) (whole : Bool) : Bool :=
  headerOk l x whole && lenOk (byteAt l 0) (byteAt l 6) && bodyOk l x

/-! ### What is read before dispatch -/

/-- A read that an operator's check or capture still needs (R17, R90, R146). -/
inductive Pre where
  | lens (va n : Nat)
  | segs (va n : Nat)
  | forward (va : Nat)
  | levels (va n : Nat)
  | decoder (va : Nat)
  | table (t : Nat)
deriving DecidableEq, Repr

/-- The body that an operator's units come from: its own, or its forward record's. -/
def Desc.unitBody (d : Desc) : List Byte := if d.opcode = 0x20 then d.forward else d.bytes

/-- The forward opcode: LOOKUP, LATTICE or the operator's own. -/
def Desc.unitOp (d : Desc) : Nat := if d.opcode = 0x20 then byteAt d.forward 0 else d.opcode

/-- Table IDs that the descriptor names, once its lists have been read. -/
def Desc.tableIds (d : Desc) : List Nat :=
  match d.unitOp with
  | 0x10 =>
    if field d.unitBody 20 2 = 0 then [field d.unitBody 22 2 % 4096] else (d.pre.segs.map (·.1)).eraseDups
  | 0x12 => (d.pre.levels.map (fun e => field e 0 2 % 4096)).eraseDups
  | 0x22 | 0x23 | 0x24 | 0x28 => [field d.bytes 8 2 % 4096]
  | _ => []

/-- The next table to capture. -/
def Desc.nextTable (d : Desc) : Option Pre :=
  (d.tableIds.find? (fun t => !(d.pre.tabs.any (fun c => c.table = t)))).map Pre.table

/-- A level entry's own fields (R112). -/
def levelOk (e : List Byte) : Bool :=
  field e 0 2 < 4096 && byteAt e 2 < 2 && byteAt e 3 < 2 && decide (1 ≤ field e 4 4 ∧ field e 4 4 ≤ 1048575)
    && zeroAt e 12 4 && zeroAt e 24 8

/-- The decoder record (R135, R137). -/
def decoderOk (r : List Byte) : Bool :=
  let n := byteAt r 0
  decide (1 ≤ n ∧ n ≤ 4) && byteAt r 1 < 2 && byteAt r 2 < 16 && zeroAt r 3 1
    && [0, 1, 2, 3].all (fun i =>
        let w := byteAt r (4 + i)
        let a := field r (16 + 8 * i) 8
        if i < n then decide (1 ≤ w ∧ w ≤ 64) && a % 64 == 0 else w == 0 && a == 0)
    && zeroAt r 8 8 && zeroAt r 48 16

/-- The segments of a LOOKUP or its forward record: (table, first bag, bags) (R88). -/
def Desc.segments (d : Desc) : List (Nat × Nat × Nat) :=
  if field d.unitBody 20 2 = 0 then [(field d.unitBody 22 2 % 4096, 0, field d.unitBody 12 4)] else d.pre.segs

/-- R89, on the lists alone: it is judged before any table is read. -/
def Desc.listsOk (d : Desc) : Bool :=
  let l := d.unitBody
  let bags := field l 12 4
  d.segments.all (fun s => 1 ≤ s.2.2) && (d.segments.foldl (fun a s => a + s.2.2) 0 == bags)
    && (bags == 1 || d.pre.lens.foldl (· + ·) 0 == field l 16 4)

/-- The next read that the descriptor needs: lists and records first, and no table where these already break a rule (R113). -/
def nextPre (d : Desc) : Option Pre :=
  if d.opcode = 0x20 ∧ d.forward = [] then some (.forward (d.f 16 8))
  else
    let l := d.unitBody
    match d.unitOp with
    | 0x10 =>
      let bags := field l 12 4
      let seg := field l 20 2
      if !(lookupOk l (d.opcode == 0x20)) then none
      else if bags ≠ 1 ∧ d.pre.lens = [] then some (.lens (field l 40 8) (2 * bags))
      else if seg ≠ 0 ∧ d.pre.segs = [] then some (.segs (field l 32 8) (8 * seg))
      else if !(d.listsOk) then none
      else d.nextTable
    | 0x12 =>
      if !(latticeOk l (d.opcode == 0x20) (d.opcode == 0x12 && d.tagged)) then none
      else if d.pre.levels = [] then some (.levels (field l 32 8) (32 * byteAt l 11))
      else if !(d.pre.levels.all levelOk) then none
      else if d.opcode = 0x12 ∧ field l 56 8 ≠ 0 ∧ d.pre.decoder = [] then some (.decoder (field l 56 8))
      else if d.opcode = 0x12 ∧ field l 56 8 ≠ 0 ∧ decoderOk d.pre.decoder = false then none
      else d.nextTable
    | 0x22 | 0x23 | 0x24 | 0x28 => if bodyOk d.bytes {} then d.nextTable else none
    | _ => none

/-- Segments as (table, first bag, bags). -/
def segList : Nat → List (List Byte) → List (Nat × Nat × Nat)
  | _, [] => []
  | first, e :: t => (field e 0 2 % 4096, first, field e 4 4) :: segList (first + field e 4 4) t

/-- Keep what a pre-read returned. -/
def keepPre (p : Pre) (l : List Byte) (d : Desc) : Desc :=
  match p with
  | .lens _ n => { d with pre := { d.pre with lens := valuesAt l 0 2 (n / 2) } }
  | .segs _ _ =>
    -- a reserved bit that is set makes the entry's count 0, which R88 forbids
    let es := (pieces 8 l).map (fun e => if bitsOf (le e) 31 12 = 0 then e else List.replicate 8 0)
    { d with pre := { d.pre with segs := segList 0 es } }
  | .forward _ => { d with forward := l }
  | .levels _ _ => { d with pre := { d.pre with levels := pieces 32 l } }
  | .decoder _ => { d with pre := { d.pre with decoder := l } }
  | .table t => { d with pre := { d.pre with tabs := d.pre.tabs ++ [{ table := t, bytes := l, slot := byteAt l 19 % 4 }] } }

/-! ### Checks on what was read -/

def Desc.tab (d : Desc) (t : Nat) : Captured := (d.pre.tabs.find? (fun c => c.table = t)).getD { table := t, bytes := [], slot := 0 }

/-- R89, on lists and tables. -/
def lookupJudge (d : Desc) (fwd : Bool) : Bool :=
  let l := d.unitBody
  let segs := d.segments
  let tabs := segs.map (fun s => d.tab s.1)
  let ix := ((tabs.find? (fun t => !t.bad)).map Captured.ixFmt).getD 0
  lookupOk l fwd && d.listsOk && tabs.all (fun t => t.bad || (t.ok && t.fmt < 4 && t.ixFmt == ix))
    && field l 48 8 % ixBytes ix == 0
    && (fwd || tabs.all (fun t =>
        t.dim * (match byteAt l 9 with
          | 0 => 4
          | 1 => 2
          | _ => 1) ≤ field l 24 4))

/-- E: the width of the encoding (R113). -/
def Desc.encWidth (d : Desc) : Nat := d.pre.levels.foldl (fun a e => a + (d.tab (field e 0 2 % 4096)).dim) 0

/-- Bytes of one LATTICE output (R113, R119, R136). -/
def Desc.latticeOutWidth (d : Desc) : Nat :=
  if field d.bytes 56 8 = 0 then d.encWidth else byteAt d.pre.decoder (3 + byteAt d.pre.decoder 0)

/-- R113 and R120, on the level list and tables. -/
def latticeJudge (b : Blk) (d : Desc) (fwd : Bool) : Bool :=
  let l := d.unitBody
  let dims := byteAt l 8
  let lv := d.pre.levels
  let dec := !fwd && field l 56 8 != 0
  let bufBytes := lv.foldl (fun a e =>
    if (byteAt e 3).testBit 0 then
      let t := d.tab (field e 0 2 % 4096)
      a + ceilDiv (t.rows * t.stride) 64 * 64
    else a) 0
  latticeOk l fwd (!fwd && d.tagged)
    && lv.all (fun e =>
        let t := d.tab (field e 0 2 % 4096)
        let copy := field e 16 8
        levelOk e && (t.bad || (t.ok && decide (4 ≤ t.fmt)
          && (t.fmt != 4 || field e 8 4 == 0)
          && (byteAt e 2 != 0 || decide ((field e 4 4 + 1) ^ dims ≤ t.rows))
          && (byteAt e 2 != 1 || decide (t.rows ≤ 2 ^ 32))
          && copy % t.stride == 0
          && (!((byteAt e 3).testBit 0) || copy != 0
              || (t.k == 1 && t.dies == 1 && t.chipset0 == b.ident.chip && b.ident.die == 0)))))
    && decide (bufBytes ≤ 1048576)
    && decide (d.encWidth ≤ (if dec then 64 else 256))
    && (!dec || decoderOk d.pre.decoder)
    && (fwd || decide (d.latticeOutWidth * outBytes (byteAt l 10) ≤ field l 20 4))

/-- VISIT mode of a context (R158). -/
def isVisit (b : Blk) (ctx : Nat) : Bool := b.obj (Obj.ctxAccumMode + ctx) 1 == 0

/-- What a table needs where a SCATTER or a home accumulates into it (R147, R157). -/
def accumOk (visit : Bool) (t : Captured) : Bool :=
  t.coef != 0 && t.overBase != 0 && decide (4096 ≤ t.overBytes) && t.overBytes % 64 == 0
    && (visit || (t.arenaBase != 0 && decide (6 ≤ t.arenaLog2 ∧ t.arenaLog2 ≤ 30)))

/-- R147. -/
def scatterJudge (b : Blk) (d : Desc) (ctx : Nat) : Bool :=
  let l := d.bytes
  let e := if byteAt l 8 = 0 then 4 else 2
  let visit := isVisit b ctx
  let tabs := d.tableIds.map d.tab
  let width :=
    if d.unitOp = 0x10 then tabs.foldl (fun a t => max a t.dim) 0 else d.encWidth
  (d.unitOp == 0x10 || d.unitOp == 0x12)
    && (if d.unitOp = 0x10 then lookupJudge d true else latticeJudge b d true)
    && !((byteAt l 9).testBit 0 && (if d.unitOp = 0x10 then field d.forward 72 8 else field d.forward 48 8) == 0)
    && decide (width * e ≤ field l 12 4)
    && tabs.all (fun t => t.bad || accumOk visit t)
    && !(visit && decide (256 < b.chipsOf ctx))

/-- The features an operator needs at its check (R66, R113, R147, R172, R193). -/
def opNeeds (b : Blk) (d : Desc) (ctx : Nat) : Nat :=
  (d.tableIds.map d.tab).foldl (fun a t => a ||| tableNeeds d.opcode t)
    ((if d.opcode = 0x12 ∧ byteAt d.bytes 8 = 4 then 2 else 0)
      ||| (if (d.opcode = 0x20 ∨ d.opcode = 0x22) ∧ isVisit b ctx = true then 32 else 0)
      ||| (if d.opcode = 0x20 ∨ d.opcode = 0x22 then 1 else 0))

/-- The statuses that a descriptor's check gives once everything it needs has been read; none when it may run. -/
def judge (b : Blk) (d : Desc) : List Status :=
  let ctx := (b.q d.q).ctx
  let t := d.tab (field d.bytes 8 2 % 4096)
  let good : Bool := match d.opcode with
    | 0x10 => lookupJudge d false
    | 0x12 => latticeJudge b d false
    | 0x20 => scatterJudge b d ctx
    | 0x22 => stepOk d.bytes && t.ok && t.coef != 0 && decide (t.accExp ≤ 32) && (t.precond == 0 || t.dim ≤ 128)
    | 0x23 => t.ok && t.precond != 0 && t.coef != 0 && decide (t.dim ≤ 128)
    | 0x24 | 0x28 => t.ok
    | _ => true
  (if good then [] else [Status.malformed]) ++ (if hasFeatures b (opNeeds b d ctx) then [] else [Status.unsupported])

end Sys2Proof.Machine
end

