-- ==== Sys2Proof/Machine/Flags.lean ====
section
/-! DEFINITION. The record of a completion (R39), its counters (R396), and the tests that set a status. The precedence of R40
is in Ops.lean, QSTATUS in Queue.lean. -/
namespace Sys2Proof.Machine

/-- The counter of a status (R396). -/
def statusCounter : Status → Option Nat
  | .okDrops => some Ctr.stOkDrops
  | .late => some Ctr.stLate
  | .cancelled => some Ctr.stCancelled
  | .hostLost => some Ctr.stHostLost
  | .disabled => some Ctr.stDisabled
  | .singular => some Ctr.stSingular
  | .overrange => some Ctr.stOverrange
  | .unsupported => some Ctr.stUnsupported
  | .malformed => some Ctr.stMalformed
  | .d2dDown => some Ctr.stD2dDown
  | .unreachable => some Ctr.stUnreachable
  | .tableBusy => some Ctr.stTableBusy
  | .ok | .stalledEarly => none

/-- Count every status that applied to a descriptor of queue `n` (R396). -/
def countStatuses (n : Nat) : List Status → Blk → Blk
  | [], b => b
  | s :: t, b =>
    countStatuses n t (match statusCounter s with
      | some c => bump c n 1 b
      | none => b)

/-- A completion record (R39). -/
def recordBytes (seq : Nat) (s : Status) (n dropped aux cycles : Nat) : List Byte :=
  toLe 2 seq ++ toLe 1 s.code ++ toLe 1 n ++ toLe 4 dropped ++ toLe 4 aux ++ toLe 4 (min cycles 0xFFFFFFFF)

/-- A PEG_LOCAL wait passes when (counter − TARGET) read as signed is zero or positive (R50). -/
def pegPasses (counter target : W64) : Bool := !((counter - target).msb)

/-- A vector holds no infinity and no NaN. -/
def allFinite (v : List W32) : Bool := v.all (fun x => (rd32 x).finite)

end Sys2Proof.Machine
end

