-- ==== Sys2Proof/Machine/FrontEnd.lean ====
section
/-! DEFINITION. The front end: fetching and checking slots (R31 to R35, R43), dispatch (R36 to R38), completion records (R39 to
R42, R408) and cancellation markers (R47). -/
namespace Sys2Proof.Machine

/-! ### Fetching -/

/-- The fetch of queue `n` is held by a park, or its state fetches nothing (R27, R407). -/
def fetching (b : Blk) (n : Nat) : Bool :=
  let x := b.q n
  x.st == .running && !x.stopping && !(b.isParked (.fetch n))

/-- Room for more fetched descriptors: 256 of the queue, 4,096 in all, of which 8 are kept for each RUNNING queue (R35). -/
def fetchRoom (b : Blk) (n : Nat) : Bool :=
  let own := b.inflight n
  let kept := (b.front.queues.filter (fun e => e.1 ≠ n && e.2.st == .running)).foldl
    (fun a e => a + (8 - b.inflight e.1)) 0
  own < 256 && (own < 8 || b.front.descs.length + kept < 4096)

/-- Skip the cancelled slots that fetch has reached (R44). -/
def skipCancelled (x : Queue) : Queue :=
  x.cancels.foldl (fun x r =>
    if !r.reached ∧ r.skipFrom ≤ x.fetch then
      { x with
        fetch := max x.fetch r.skipTo
        burst := none
        poll := none
        cancels := x.cancels.map (fun c => if c = r then { c with reached := true, skipped := r.skipTo - x.fetch } else c) }
    else x) x

/-- FETCH_BURST (R35). -/
def effFetchBurst (n : Nat) (b : Blk) : Blk :=
  if fetching b n then
    let x := skipCancelled (b.q n)
    if x.burst.isNone && x.poll.isNone && !x.short && x.fetch < x.tailSlots && fetchRoom b n then
      b.setQ n { x with burst := some { first := x.fetch, n := burstLen x, repoll := false } }
    else b.setQ n x
  else b

/-- REPOLL: a fresh read at t0 + 64k, k from 1 to 255 (R43). -/
def effRepoll (n : Nat) (b : Blk) : Blk :=
  let x := b.q n
  match x.poll with
  | some p =>
    if fetching b n && x.burst.isNone && x.fetch < x.tailSlots && fetchRoom b n && p.k < 255 && p.t0 + 64 * (p.k + 1) ≤ b.clk.half then
      b.setQ n { x with burst := some { first := x.fetch, n := burstLen x, repoll := true },
                        poll := some { p with k := p.k + 1 } }
    else b
  | none => b

/-- A queue event waits for its place in the completion ring. -/
def queueEvent (n : Nat) (s : Status) (dropped aux since : Nat) (b : Blk) : Blk :=
  b.modQ n (fun x => { x with recq := x.recq ++ [.event s dropped aux since none] })

/-- STALLED_EARLY: 16,384 CK_HALF cycles after t0 (R43). -/
def effStalledEarly (n : Nat) (b : Blk) : Blk :=
  let x := b.q n
  match x.poll with
  | some p =>
    if fetching b n && p.t0 + 16384 ≤ b.clk.half then
      let slot := x.fetch % x.span
      let b := dropReads (.fetch n) (b.setQ n { x with st := .stalledEarly, poll := none, burst := none })
      bump Ctr.stalledEarly n 1
        (raise { cause := 0x02, ctx := some x.ctx, queue := some n, unit := 0, detail := slot }
          (queueEvent n .stalledEarly 0 slot p.t0 b))
    else b
  | none => b

/-- Read one slot of a ring, through the descriptor cache unless it is a re-poll (R234, R43). -/
def rdSlot (n slot : Nat) (bypass : Bool) (b : Blk) : Blk × Rd :=
  let x := b.q n
  let va := x.ringBase.toNat + 64 * slot
  let c := clsOf b n
  let b := b.setQ n { x with det := x.det.feed (va / 128) }
  if bypass || b.obj Obj.descEn 0 == 0 then rd .front (.fetch n) c va 64 b
  else
    match translate .front (.fetch n) c (va / 128 * 128) false false b with
    | (b, .ok pa host _ _ sh) =>
      let key := lineKey pa host
      let k := cacheCheck 0 2 key b.xlat.desc b
      let b := { k.1 with xlat := { k.1.xlat with desc := k.2 } }
      match b.xlat.desc.find key with
      | some (_, l) => (b, .ok ((l.data.drop (va % 128)).take 64))
      | none =>
        match readPhys (.fetch n) (c.biased host sh) pa 128 host b with
        | (b, .ok d) =>
          let i := takeInject 2 b
          let b := i.1
          ({ b with xlat := { b.xlat with
              desc := b.xlat.desc.fillRr { addr := key, data := d, dirty := false, ctx := c.ctx, ecc := i.2 } } }, .ok ((d.drop (va % 128)).take 64))
        | (b, .wait) => (b, .wait)
        | (b, .fail s) => (b, .fail s)
    | (b, .fault cause seg gran) =>
      (park (.fetch n) c.ctx .front va 64 false cause (recordFault .front c.ctx false cause seg gran b), .fault)
    | (b, .wait) => (b, .wait)
    | (b, .fail s) => (b, .fail s)
    | (b, .poisoned) => (b, .badMeta)

/-- Read the slots of one descriptor after its first. -/
def rdSlots (n : Nat) (bypass : Bool) : Nat → Nat → Blk → Blk × Rd
  | 0, _, b => (b, .ok [])
  | k + 1, slot, b =>
    match rdSlot n slot bypass b with
    | (b, .ok d) =>
      match rdSlots n bypass k (slot + 1) b with
      | (b, .ok r) => (b, .ok (d ++ r))
      | r => r
    | r => r

/-- The slots `pos` to `pos + k - 1` have been fetched: a line of descriptor rings leaves the cache once every slot in it has
(R234). -/
def dropRingLines (n pos k : Nat) (b : Blk) : Blk :=
  let x := b.q n
  let c := clsOf b n
  let drop (va : Nat) (b : Blk) : Blk :=
    match translate .front (.fetch n) c va false false b with
    | (_, .ok pa host _ _ _) =>
      { b with xlat := { b.xlat with desc := { b.xlat.desc with
          lines := b.xlat.desc.lines.filter (fun e => e.2.addr ≠ lineKey pa host) } } }
    | _ => b
  if b.obj Obj.descEn 0 == 0 then b
  else
    (List.range k).foldl (fun b i =>
      let slot := (pos + i) % x.span
      if slot % 2 = 1 ∨ slot + 1 = x.span then drop ((x.ringBase.toNat + 64 * slot) / 128 * 128) b else b) b

/-- The descriptor fails the later checks of a patch (R59): an entry inside it, or past its last word. -/
def patchBad (ps : List Patch) (replay slot slots len : Nat) : Bool :=
  ps.any (fun p => p.replay = replay && ((slot < p.slot && p.slot < slot + slots) || (p.slot = slot && 8 * len ≤ p.word)))

/-- A failed REARM, or entry, ends the later descriptors of its replay (R60). -/
def afterRearmFail (x : Queue) (replay slot : Nat) : Bool :=
  match x.rearmFail with
  | some (r, s) => r = replay && s ≤ slot
  | none => false

/-- Tag a descriptor that passes its check (R55): with the PERIOD before it whose opening is still to come, or with the open
period; LATE when neither is there in time. A PERIOD that its own check has ended is not there any more: what comes behind it
takes the open period (DESIGN CHOICE, log 80). -/
def tagDesc (id : Nat) (b : Blk) : Blk :=
  match b.desc? id with
  | none => b
  | some d =>
    if !d.tagged then b
    else
      let x := b.q d.q
      let ahead := (b.descsOf d.q).filter (fun e => e.id < id && e.opcode == 0x04 && (e.stage == .held || e.stage == .handed))
      match ahead.getLast? with
      | some p => b.modDesc id (fun d => { d with behind := some p.id })
      | none =>
        let s := b.front.streams.get {} x.stream
        if s.open_ && !s.passed then b.modDesc id (fun d => { d with period := some s.num })
        else completeWith id .late (idleAux b d) 0 b

/-- A descriptor's check, or its replay's REARM, has failed (R34, R60): it completes with MALFORMED. A STEP still has to arrive at
its barrier with an abort vote, and is held for that (R173). -/
def endMalformed (id : Nat) (step : Bool) (b : Blk) : Blk :=
  if step then addStatus id .malformed (b.modDesc id (fun d => { d with bad := true }))
  else completeWith id .malformed 0 0 b

/-- Take one checked descriptor in. -/
def takeDesc (n pos slots : Nat) (whole : Bool) (bytes : List Byte) (b : Blk) : Blk :=
  let x := b.q n
  let id := b.front.nextId
  let slot := pos % x.span
  let replay := pos / x.span
  let ok := slotOk bytes x whole
  let step := byteAt bytes 0 == 0x22
  let d : Desc := { id := id, q := n, slot := slot, pos := pos, slots := slots, replay := replay, bytes := bytes,
                    stage := .held, bad := !ok, checkedAt := b.clk.half }
  let covered := x.cancels.any (fun r => !r.reached && pos < r.skipFrom && r.skipFrom < pos + slots)
  let pbad := x.persistent && patchBad x.patches replay slot slots (byteAt bytes 6)
  let x := { x with
    fetch := pos + slots
    poll := none
    cancels := x.cancels.map (fun r =>
      if !r.reached && pos < r.skipFrom && r.skipFrom < pos + slots then
        { r with members := r.members ++ [id], dropped := r.dropped + 1 } else r)
    rearmFail := if pbad && !(afterRearmFail x replay slot) then some (replay, slot) else x.rearmFail }
  let b := { b.setQ n x with front := { (b.setQ n x).front with descs := b.front.descs ++ [d], nextId := id + 1 } }
  if covered then completeWith id .cancelled (idleAux b d) 0 b
  else if !ok || afterRearmFail x replay slot then endMalformed id step b
  else tagDesc id b

/-- The slot is treated as not yet written: re-polling begins, or goes on (R33, R43). -/
def slotInvalid (n : Nat) (b : Blk) : Blk :=
  b.modQ n (fun x => { x with burst := none, poll := match x.poll with
    | some p => some p
    | none => some { t0 := b.clk.half, k := 0 } })

/-- An access of the front end that cannot be made (R408): an error record, which the host port has made already where the host
refuses; the slot counts as not yet written. -/
def fetchFailed (n : Nat) (s : Status) (b : Blk) : Blk :=
  let x := b.q n
  let va := x.ringBase.toNat + 64 * (x.fetch % x.span)
  if s = .hostLost ∨ refusedAt (clsOf b n) va 64 b = true then slotInvalid n b
  else slotInvalid n (raise { cause := 0x0E, ctx := some x.ctx, queue := some n, unit := 0,
                              detail := farAddr (clsOf b n) va b } b)

/-- Judge the slots of the returned burst, one descriptor after another (R33, R34). -/
def judgeSlots (n : Nat) : Nat → Blk → Blk
  | 0, b => b.modQ n (fun x => { x with burst := none })
  | f + 1, b =>
    let x := skipCancelled (b.q n)
    let b := b.setQ n x
    match x.burst with
    | none => b
    | some bu =>
      if bu.first + bu.n ≤ x.fetch ∨ x.tailSlots ≤ x.fetch ∨ fetchRoom b n = false then b.setQ n { x with burst := none }
      else
        let slot := x.fetch % x.span
        match rdSlot n slot bu.repoll b with
        | (b, .fault) => b
        | (b, .wait) => b
        | (b, .badMeta) => slotInvalid n b
        | (b, .fail s) => fetchFailed n s b
        | (b, .ok d) =>
          let len := byteAt (plain d) 6
          if anyPoison d then
            slotInvalid n (raise { cause := 0x12, ctx := some x.ctx, queue := some n, unit := 0,
                                   detail2 := x.ringBase.toNat + 64 * slot } b)
          else if (byteAt (plain d) 1).testBit 0 ≠ x.phase then slotInvalid n b
          else if len = 0 ∨ 4 < len then slotInvalid n (bump Ctr.slotCheckFailed n 1 b)
          else
            let k := min len (x.span - slot)
            if x.tailSlots < x.fetch + k then b.modQ n (fun x => { x with burst := none, poll := none, short := true })
            else if bu.first + bu.n < x.fetch + k then b.modQ n (fun x => { x with burst := none })
            else
              match rdSlots n bu.repoll (k - 1) (slot + 1) b with
              | (b, .ok rest) =>
                let all := plain (d ++ rest)
                if anyPoison rest then slotInvalid n b
                else if crc8 (all.take 7 ++ all.drop 8) ≠ byteAt all 7 then slotInvalid n (bump Ctr.slotCheckFailed n 1 b)
                else judgeSlots n f (dropRingLines n x.fetch k (takeDesc n x.fetch k (decide (len ≤ x.span - slot)) all b))
              | (b, .fail s) => fetchFailed n s b
              | (b, _) => b

/-- SLOT_CHECK (R33, R34). -/
def effSlotCheck (n : Nat) (b : Blk) : Blk :=
  if fetching b n && (b.q n).burst.isSome then judgeSlots n 16 b else b

/-! ### Dispatch -/

/-- The completion ring is full (R42). The records written are counted without a wrap and CQ_HEAD is the whole 64-bit register; a
CQ_HEAD ahead of the count, as after a QRESET, leaves the ring empty (DESIGN CHOICE, log 81). -/
def ringFull (x : Queue) : Bool := decide (x.cqSize ≤ x.written - x.cqHead.toNat)

/-- The completion ring is full, or its writes are parked: dispatch stops (R42, R220). -/
def recordsBlocked (b : Blk) (n : Nat) : Bool := ringFull (b.q n) || b.isParked (.compl n)

/-- Operators whose unit takes them some time after their dispatch: a later descriptor of the queue may be dispatched meanwhile
(R36). The others act at their dispatch, and hold what comes behind them until they have acted. -/
def runsLater (op : Nat) : Bool := [0x01, 0x03, 0x10, 0x11, 0x12, 0x13, 0x20, 0x24, 0x30, 0x31].contains op

/-- The descriptor that a queue may dispatch next, when its ordering conditions are met (R36, R57). -/
def nextDispatch (b : Blk) (n : Nat) : Option Desc :=
  let x := b.q n
  let ds := b.descsOf n
  if x.st == .unbound || x.st == .stopped || x.st == .bindErr || recordsBlocked b n then none
  else
    match ds.find? (fun d => d.stage = .held) with
    | none => none
    | some d =>
      let earlier := ds.filter (fun e => e.id < d.id)
      let hold := earlier.any (fun e => (e.stage == .handed && !(runsLater e.opcode)) || e.opcode == 0x02 || e.opcode == 0x05)
        || (d.keepOrder && !earlier.isEmpty)
        || (d.tagged && (d.behind.isSome || decide (b.clk.core < (b.front.streams.get {} x.stream).readyAt)))
        || b.isParked (.desc d.id)
      if hold then none else some d

/-- The dispatch arbiter (R38): streams in ascending order, then batch queues by weighted round robin. -/
def mayDispatch (b : Blk) (n : Nat) : Bool :=
  let x := b.q n
  let ready := b.front.queues.filter (fun e => (nextDispatch b e.1).isSome)
  if x.rt then !(ready.any (fun e => e.2.rt && e.2.stream < x.stream))
  else !(ready.any (fun e => e.2.rt))
    && (b.front.credit.get 0 n < x.weight
        || ready.all (fun e => e.2.weight ≤ b.front.credit.get 0 e.1))

/-- One more dispatch of a batch queue in the round; a new round begins when every ready queue has had its share. -/
def spendCredit (n : Nat) (b : Blk) : Blk :=
  let x := b.q n
  if x.rt then b
  else if b.front.credit.get 0 n < x.weight then { b with front := { b.front with credit := addAt b.front.credit n 1 } }
  else { b with front := { b.front with credit := [(n, 1)] } }

/-- Apply the rearm entries that name a descriptor (R59). -/
def applyPatches (x : Queue) (d : Desc) : Desc :=
  let ps := x.patches.filter (fun p => p.replay = d.replay && p.slot = d.slot)
  if ps.isEmpty then d
  else { d with patched := true, bytes := ps.foldl (fun l p => splice l (8 * p.word) (toLe 8 p.value.toNat)) d.bytes }

/-- What making the reads before dispatch came to. -/
inductive PreRes where
  | ready
  | later
  | status (s : Status)
deriving DecidableEq, Repr

/-- Make one read that the check needs. -/
def doPre (d : Desc) (p : Pre) (b : Blk) : Blk × Rd :=
  let c := clsOf b d.q
  let u := UnitRef.desc d.id
  match p with
  | .lens va n | .segs va n | .levels va n => rd .front u c va n b
  | .forward va => rd .front u c va 128 b
  | .decoder va => rdMeta (.pitch 0) u c va 64 b
  | .table t => readTable (.pitch 0) u c t b

/-- The chip-set entry 0 that R120 compares, for a lattice table of one chip. -/
def withChip0 (d : Desc) (p : Pre) (b : Blk) : Blk × Rd :=
  match p with
  | .table t =>
    let c := d.tab t
    if 4 ≤ c.fmt ∧ c.k = 1 ∧ c.shapeOk = true then readChip (.pitch 0) (.desc d.id) (clsOf b d.q) c 0 b else (b, .ok [])
  | _ => (b, .ok [])

/-- The poisoned read of a list ends the descriptor with CANCELLED (R389). -/
def prePoison (d : Desc) (p : Pre) (b : Blk) : Blk × PreRes :=
  let s := match p with
    | .table _ => if d.opcode = 0x22 then Status.tableBusy else .cancelled
    | _ => .cancelled
  (raise (d.err b 0x12 0 0 (match p with
    | .lens va _ | .segs va _ | .levels va _ | .forward va | .decoder va => va
    | .table t => (ctxHdr b (b.q d.q).ctx).tableDir + 256 * t)) b, .status s)

/-- A table whose descriptor came poisoned: the units that need it will fail, where the operator runs by units (R389, R395). -/
def preTable (d : Desc) (p : Pre) (b : Blk) : Option Blk :=
  match p with
  | .table t =>
    if d.opcode = 0x10 ∨ d.opcode = 0x12 ∨ d.opcode = 0x20 then
      some ((prePoison d p b).1.modDesc d.id (fun d => { d with pre := { d.pre with
        tabs := d.pre.tabs.filter (fun c => c.table ≠ t) ++ [{ table := t, bytes := [], slot := 0, bad := true }] } }))
    else none
  | _ => none

/-- Make every read before dispatch; `fuel` bounds their number. -/
def runPre (id : Nat) : Nat → Blk → Blk × PreRes
  | 0, b => (b, .later)
  | f + 1, b =>
    match b.desc? id with
    | none => (b, .later)
    | some d =>
      match nextPre d with
      | none => (b, .ready)
      | some p =>
        match doPre d p b with
        | (b, .ok l) =>
          if anyPoison l then
            match preTable d p b with
            | some b => runPre id f b
            | none => prePoison d p b
          else
            let d1 := keepPre p (plain l) d
            match withChip0 d1 p b with
            | (b, .ok l0) =>
              let d2 := match p with
                | .table t => { d1 with pre := { d1.pre with tabs := d1.pre.tabs.map (fun c =>
                    if c.table = t then { c with chipset0 := field (plain l0) 0 2 % 16384 } else c) } }
                | _ => d1
              runPre id f (b.modDesc id (fun _ => d2))
            | (b, .fail s) => (b, .status s)
            | (b, .badMeta) => (match preTable d p b with
              | some b => runPre id f b
              | none => prePoison d p b)
            | (b, _) => (b, .later)
        | (b, .fail s) => (b, .status s)
        | (b, .badMeta) => (match preTable d p b with
          | some b => runPre id f b
          | none => prePoison d p b)
        | (b, _) => (b, .later)

/-- A STEP on a table has been dispatched on this block and has not completed (R174). -/
def stepInProgress (b : Blk) (ctx table : Nat) : Bool :=
  b.front.descs.any (fun d => d.opcode == 0x22 && (d.stage == .handed || d.stage == .running) && (b.q d.q).ctx == ctx
    && d.f 8 2 % 4096 == table)

/-- Hand a descriptor to its unit. A PRECOND, REFRESH or TABLE_SWAP notes whether a STEP on its table is in progress (R174). -/
def hand (id : Nat) (b : Blk) : Blk :=
  b.modDesc id (fun d => { d with
    stage := .handed
    stepBusy := [0x23, 0x24, 0x28].contains d.opcode && stepInProgress b (b.q d.q).ctx (d.f 8 2 % 4096) })

/-- DISPATCH (R36 to R38, R59): patches, the reads and checks that come before dispatch, then the unit. -/
def effDispatch (n : Nat) (b : Blk) : Blk :=
  match nextDispatch b n with
  | none => b
  | some d0 =>
    if !(mayDispatch b n) then b
    else
      let x := b.q n
      let d := if d0.patched then d0 else applyPatches x d0
      let b := b.modDesc d.id (fun _ => d)
      let step := d.opcode == 0x22
      if d.bad || (d.patched && !(slotOk d.bytes x true)) then
        let b := spendCredit n b
        if step then hand d.id (addStatus d.id .malformed (b.modDesc d.id (fun d => { d with bad := true })))
        else completeWith d.id .malformed 0 0 b
      else
        match runPre d.id 4200 b with
        | (b, .later) => b
        | (b, .status s) =>
          let b := spendCredit n b
          if step then hand d.id (addStatus d.id s b) else completeWith d.id s 0 0 b
        | (b, .ready) =>
          let b := spendCredit n b
          let ss := judge b ((b.desc? d.id).getD d)
          if ss.isEmpty then hand d.id b
          else
            let b := ss.foldl (fun b s => addStatus d.id s b) b
            if step then hand d.id b else complete d.id b

/-! ### Completion -/

/-- The peg increments of a descriptor (R49). -/
def pegIncrements (d : Desc) (b : Blk) : Blk :=
  if d.pegInc then
    let ctx := (b.q d.q).ctx
    let ps := (List.range 4).foldl (fun (t : Tbl W64) i =>
      if d.pegMask.testBit i then
        let k := 64 * ctx + 4 * d.pegGroup + i
        Tbl.set t k (Tbl.get 0 t k + 1)
      else t) b.front.pegs
    { b with front := { b.front with pegs := ps } }
  else b

/-- A queue's record or tail word is discarded (R261, R265, R408). -/
def discardRecord (n : Nat) (b : Blk) : Blk := bump Ctr.hsRecordsDiscarded n 1 b

/-- A record of a ring in host memory that cannot be reached is counted in the detach log as well: one entry each, with the
queue's count so far (R261, R262, R265; DEDUCED, log 43). -/
def discardHost (n : Nat) (isRec : Bool) (b : Blk) : Blk :=
  let b := discardRecord n b
  if isRec then
    let b := b.modQ n (fun x => { x with discarded := x.discarded + 1 })
    detachQueue 6 n (b.q n).discarded 0 b
  else b

/-- The address lies in host memory, and the queue's function is no bus master (R265). -/
def masterOff (n va : Nat) (b : Blk) : Bool :=
  (match fnOf b n with
    | some f => (Tbl.get {} b.host.fns f).busMasterOff
    | none => false)
    && (match (translate .front (.compl n) (clsOf b n) va true false b).2 with
      | .ok _ host _ _ _ => host
      | _ => false)

/-- A write of the front end to a ring of the queue: `true` when it is over, written or discarded (R408). -/
def ringWrite (n va : Nat) (d : List Byte) (b : Blk) : Blk × Bool :=
  let x := b.q n
  let isRec := decide (va ≠ x.cqTailAddr.toNat)
  if masterOff n va b then (discardHost n isRec b, true)
  else match wr .front (.compl n) (clsOf b n) va (d.map (·, false)) b with
  | (b, .ok) => (b, true)
  | (b, .fail s) =>
    (if s = .hostLost then discardHost n isRec b
     else if refusedAt (clsOf b n) va d.length b then discardRecord n b
     else raise { cause := 0x0E, ctx := some x.ctx, queue := some n, unit := 0, detail := farAddr (clsOf b n) va b, detail2 := 1 }
       (discardRecord n b), true)
  | (b, .badMeta) => (discardRecord n b, true)
  | (b, _) => (b, false)

/-- The completion tail word (R41). -/
def writeTail (n : Nat) (b : Blk) : Blk :=
  let x := b.q n
  match ringWrite n x.cqTailAddr.toNat (toLe 4 x.written ++ toLe 4 0) b with
  | (b, true) => b.modQ n (fun x => { x with reported := x.written })
  | (b, false) => b

/-- The tail word is due: at once for a real-time queue or when nothing is in flight, else after 16 records or 64 CK_HALF
cycles (R41). -/
def tailDue (b : Blk) (n : Nat) : Bool :=
  let x := b.q n
  x.reported < x.written
    && (x.rt || decide (16 ≤ x.written - x.reported) || b.inflight n == 0 || decide (x.tailSince + 64 ≤ b.clk.half))

/-- Copy a record into the trace sack (R385). -/
def traceRecord (n : Nat) (rec_ : List Byte) (b : Blk) : Blk :=
  if b.obj Obj.diagEnable 0 = 1 then
    let full := decide (1024 ≤ b.err.trace.length)
    let e := rec_ ++ toLe 8 (b.q n).ctx ++ toLe 8 b.clk.aon
    let t := if full then b.err.trace.drop 1 else b.err.trace
    let b := { b with err := { b.err with trace := t ++ [e], traceLost := b.err.traceLost + (if full then 1 else 0) } }
    if full then bump Ctr.traceLost 0 1 b else b
  else b

/-- Write a record at the next place of the completion ring; `true` when it is over. -/
def writeRecord (n : Nat) (rec_ : List Byte) (b : Blk) : Blk × Bool :=
  let x := b.q n
  match ringWrite n (x.cqBase.toNat + 16 * (x.written % x.cqSize)) rec_ b with
  | (b, true) =>
    let now := b.clk.half
    let b := b.modQ n (fun x => { x with
      written := x.written + 1
      tailSince := if x.reported = x.written then now else x.tailSince })
    (traceRecord n rec_ b, true)
  | r => r

/-- A descriptor leaves the front end; a CANCEL's range no longer waits for it. -/
def retire (id : Nat) (b : Blk) : Blk :=
  { b with
    front := { b.front with descs := b.front.descs.filter (fun d => d.id ≠ id) }
    pitches := b.pitches.map (fun e => (e.1, { e.2 with ahead := e.2.ahead.filter (fun a => a.1 ≠ id) })) }

/-- A statistics record goes first (R41, R168, R201); `true` when there is none left to write. -/
def writeStats (d : Desc) (b : Blk) : Blk × Bool :=
  match d.stats with
  | none => (b, true)
  | some (va, l) =>
    match wr (.slice 0) (.desc d.id) (clsOf b d.q) va (l.map (·, false)) b with
    | (b, .ok) => (b.modDesc d.id (fun d => { d with stats := none }), true)
    | (b, .fail s) => (addStatus d.id s (b.modDesc d.id (fun d => { d with stats := none })), true)
    | (b, .badMeta) => (b.modDesc d.id (fun d => { d with stats := none }), true)
    | (b, _) => (b, false)

/-- COMPLETION_WRITE (R41, R42): the oldest completion of the queue. -/
def effCompletionWrite (n : Nat) (b : Blk) : Blk :=
  let x := b.q n
  if recordsBlocked b n then b
  else
    match x.recq with
    | [] => b
    | .event s dropped aux since by_ :: rest =>
      match writeRecord n (recordBytes 0xFFFF s n dropped aux (b.clk.half - since)) b with
      | (b, true) =>
        let b := b.modQ n (fun x => { x with recq := rest })
        let b := match by_ with
          | some id => completeWith id .ok dropped 0 b
          | none => b
        if tailDue b n then writeTail n b else b
      | (b, false) => b
    | .desc id :: rest =>
      match b.desc? id with
      | none => b.modQ n (fun x => { x with recq := rest })
      | some d0 =>
        if !(b.writesDone (.desc id)) then b
        else match writeStats d0 b with
        | (b, false) => b
        | (b, true) =>
          if !(b.writesDone (.desc id)) then b
          else
          let d := (b.desc? id).getD d0
          let b := if d.pegged then b else pegIncrements d (b.modDesc id (fun d => { d with pegged := true }))
          let ss := d.applying
          match writeRecord n (recordBytes d.seq (recordStatus ss) n d.dropped d.aux (b.clk.half - d.checkedAt)) b with
          | (b, true) =>
            let b := retire id (countStatuses n ss (b.modQ n (fun x => { x with recq := rest })))
            if tailDue b n then writeTail n b else b
          | (b, false) => b

/-- TAIL_WORD_TIMER (R41). -/
def effTailWordTimer (n : Nat) (b : Blk) : Blk :=
  if tailDue b n && !(b.isParked (.compl n)) then writeTail n b else b

/-- The marker of a cancelled range may be written (R47). -/
def markerReady (b : Blk) (r : CancelRange) : Bool :=
  r.reached && r.members.all (fun i => match b.desc? i with
    | some d => d.stage ≠ .complete && !(d.statuses.contains .cancelled)
    | none => true)

/-- CANCEL_MARKER (R47): the marker joins the completions, and the CANCEL that made it completes once it is written. A count of
skipped slots above 65,535 is cut to AUX's 16 bits (DESIGN CHOICE, log 82). -/
def effCancelMarker (n : Nat) (b : Blk) : Blk :=
  let x := b.q n
  match x.cancels.find? (markerReady b) with
  | none => b
  | some r =>
    let b := b.modQ n (fun x => { x with cancels := x.cancels.filter (fun c => c ≠ r) })
    b.modQ n (fun x => { x with recq := x.recq ++
      [.event .cancelled r.dropped (r.skipped % 65536 + 65536 * r.epoch) r.fixedAt r.byDesc] })

def execFetchBurst (q : Nat) (s : State) : Host.Outcome State Fault Refusal := fireReady (q < 256) (effFetchBurst q) s
def execSlotCheck (q : Nat) (s : State) : Host.Outcome State Fault Refusal := fireReady (q < 256) (effSlotCheck q) s
def execRepoll (q : Nat) (s : State) : Host.Outcome State Fault Refusal := fireReady (q < 256) (effRepoll q) s
def execStalledEarly (q : Nat) (s : State) : Host.Outcome State Fault Refusal := fireReady (q < 256) (effStalledEarly q) s
def execDispatch (q : Nat) (s : State) : Host.Outcome State Fault Refusal := fireReady (q < 256) (effDispatch q) s
def execTailWordTimer (q : Nat) (s : State) : Host.Outcome State Fault Refusal := fireReady (q < 256) (effTailWordTimer q) s
def execCancelMarker (q : Nat) (s : State) : Host.Outcome State Fault Refusal := fireReady (q < 256) (effCancelMarker q) s

end Sys2Proof.Machine
end

