-- ==== Sys2Proof/Machine/Power.lean ====
section
/-! DEFINITION. Power: the ramps of the arrays (R341, R342), droop (R343, R344), frequency changes (R345, R346), throttling
(R347), the heavy-phase request (R348), the energy pass (R350) and CORE_KHZ (R333). -/
namespace Sys2Proof.Machine

/-- Past the end of reset: the power inputs are honoured (R338). -/
def afterReset (b : Blk) : Bool := b.pw.phase == .initialise || b.pw.phase == .ready

/-- An event that a block past the end of its reset meets. -/
def fireLive (f : Blk → Blk) (s : State) : Host.Outcome State Fault Refusal :=
  fire true (fun b => if afterReset b then f b else b) s

/-- A power input takes a level: during reset it is ignored, but the level is there when reset ends (R338). -/
def firePin (level f : Blk → Blk) (s : State) : Host.Outcome State Fault Refusal :=
  fire true (fun b => if afterReset b then f b else level b) s

/-- RAMP_START (R341). -/
def effRampStart (p : Nat) (b : Blk) : Blk :=
  let x := b.pitch p
  match x.arr.startAt with
  | some t =>
    if t ≤ b.clk.core then
      b.setPitch p { x with arr := { x.arr with ramp := .quarter, rampAt := b.clk.pitch, startAt := none } }
    else b
  | none => b

/-- RAMP_STEP (R341): 64 ARRAY cycles at 25 %, 64 at 50 %, then full duty. -/
def effRampStep (p : Nat) (b : Blk) : Blk :=
  let x := b.pitch p
  match x.arr.ramp with
  | .quarter => if x.arr.rampAt + 64 ≤ b.clk.pitch then b.setPitch p { x with arr := { x.arr with ramp := .half } } else b
  | .half => if x.arr.rampAt + 128 ≤ b.clk.pitch then b.setPitch p { x with arr := { x.arr with ramp := .full } } else b
  | .full => b

/-- Duty of a ramp, in quarters. -/
def Ramp.duty : Ramp → Nat
  | .quarter => 1
  | .half => 2
  | .full => 4

/-- The duty in force, in quarters (R342). -/
def dutyOf (b : Blk) (p : Nat) : Nat :=
  let r := (b.pitch p).arr.ramp.duty
  let t := if b.pw.throttleAck then min 3 (b.obj Obj.throttleDuty 1 + 1) else 4
  let f := if b.pw.freqAck then 1 else 4
  min r (min t f)

/-- An ARRAY cycle in which pitch p's array may advance an operand slot (R342). -/
def permitted (b : Blk) (p : Nat) : Bool :=
  match dutyOf b p with
  | 1 => b.clk.pitch % 4 == 0
  | 2 => b.clk.pitch % 2 == 0
  | 3 => b.clk.pitch % 4 != 3
  | _ => true

/-- A hold of R346 applies. -/
def freqHold (b : Blk) : Bool :=
  b.pw.stretching || (match b.pw.released with
    | some t => decide (b.clk.core < t + 1800)
    | none => false)

/-- FREQ_ACK rises. -/
def freqGrant (b : Blk) : Blk :=
  bump Ctr.pwFreqChanges 0 1 { b with pw := { b.pw with freqAck := true, freqHeld := false } }

/-- DROOP_WARN_RISE (R343, R346). -/
def effDroopWarnRise (b : Blk) : Blk :=
  if b.pw.droop then b
  else
    bump Ctr.pwDroops 0 1
      { b with pw := { b.pw with droop := true, stretching := true, droopFell := none,
                                 freqHeld := b.pw.freqHeld || (b.pw.freqReq && !b.pw.freqAck) } }

/-- DROOP_WARN_FALL (R343). -/
def effDroopWarnFall (b : Blk) : Blk :=
  if b.pw.droop then { b with pw := { b.pw with droop := false, droopFell := some b.clk.core } } else b

/-- STRETCH_RELEASE: 256 CK_CORE cycles after the fall (R343). -/
def effStretchRelease (b : Blk) : Blk :=
  match b.pw.droopFell with
  | some t =>
    if b.pw.stretching && !b.pw.droop && t + 256 ≤ b.clk.core then
      { b with pw := { b.pw with stretching := false, droopFell := none, released := some b.clk.core } }
    else b
  | none => b

/-- FREQ_REQ_RISE (R345, R346). -/
def effFreqReqRise (b : Blk) : Blk :=
  if b.pw.freqReq then b
  else
    let b := { b with pw := { b.pw with freqReq := true } }
    if freqHold b then { b with pw := { b.pw with freqHeld := true } } else freqGrant b

/-- FREQ_HOLD_END: 1,800 CK_CORE cycles after the last release (R346). -/
def effFreqHoldEnd (b : Blk) : Blk :=
  if b.pw.freqReq && b.pw.freqHeld && !(freqHold b) then freqGrant b else b

/-- FREQ_REQ_FALL (R345): FREQ_ACK falls, a soft-start trigger; a request still held is withdrawn. -/
def effFreqReqFall (b : Blk) : Blk :=
  let ack := b.pw.freqAck
  let b := { b with pw := { b.pw with freqReq := false, freqHeld := false, freqAck := false } }
  if ack then blockRamp b else b

/-- THROTTLE_REQ_RISE (R347). -/
def effThrottleReqRise (b : Blk) : Blk := { b with pw := { b.pw with throttleReq := true, throttleAck := true } }

/-- THROTTLE_REQ_FALL (R347). -/
def effThrottleReqFall (b : Blk) : Blk :=
  let ack := b.pw.throttleAck
  let b := { b with pw := { b.pw with throttleReq := false, throttleAck := false } }
  if ack then blockRamp b else b

/-- HEAVY_REQUEST_END (R348): the shares whose end has passed leave the request. -/
def effHeavyRequestEnd (b : Blk) : Blk :=
  { b with front := { b.front with heavy := b.front.heavy.filter (fun h => b.clk.core < h.fin) } }

/-- Default coefficients of R350. -/
def energyDefault : List Nat :=
  [1064960, 266240, 2048000, 312500, 400000, 180000, 600000, 2500000, 1000000, 150000, 500000, 85840, 50570, 200000]

def energyCoef (b : Blk) (ev : Nat) : Nat := b.obj (Obj.energyCoef + ev) (energyDefault.getD ev 0)

/-- Femtojoules of one counter: the remainder grows by `fj`, and whole microjoules move out (R350). -/
def addEnergy (rem uj fj : Nat) : Nat × Nat := ((rem + fj) % 10 ^ 9, (uj + (rem + fj) / 10 ^ 9) % 2 ^ 64)

/-- Energy of the increases listed at 65536 × event + owner, added to each owner's counter. -/
def passOwners (b : Blk) : List (Nat × Nat) → Tbl Nat × Tbl Nat → Tbl Nat × Tbl Nat
  | [], r => r
  | (k, n) :: t, (rem, uj) =>
    let o := k % 65536
    let e := addEnergy (Tbl.get 0 rem o) (Tbl.get 0 uj o) (n * energyCoef b (k / 65536))
    passOwners b t (Tbl.set rem o e.1, Tbl.set uj o e.2)

/-- An object that an accepted write of ENERGY_COEF or STATIC_MW names. -/
def isEnergyKey (k : Nat) : Bool := decide (Obj.energyCoef ≤ k ∧ k < Obj.energyCoef + 14) || k == Obj.staticMw

/-- The accepted coefficients take effect at the start of a pass (R350). -/
def commitEnergy (b : Blk) : Blk :=
  let es := b.mg.rwc.filter (fun e => isEnergyKey e.1)
  { b with mg := { b.mg with
      val := es.foldl (fun t e => Tbl.set t e.1 e.2) b.mg.val
      rwc := b.mg.rwc.filter (fun e => !isEnergyKey e.1) } }

/-- A pass is due: 32 LANTERN cycles after the last one (R350). -/
def passDue (b : Blk) : Bool := decide (b.lan.lastPass + 32 ≤ b.clk.qtr)

/-- ENERGY_PASS: every 32 LANTERN cycles (R350). -/
def effEnergyPass (b : Blk) : Blk :=
  if passDue b then
    let b := commitEnergy b
    let l := b.lan
    let c := passOwners b l.evCtx (l.remCtx, l.ujCtx)
    let q := passOwners b l.evQ (l.remQ, l.ujQ)
    let fj := l.evBlk.foldl (fun a e => a + e.2 * energyCoef b e.1) 0
      + 10000 * b.obj Obj.staticMw 0 * (b.clk.aon - l.lastAon)
    let e := addEnergy l.remBlk l.ujBlk fj
    { b with lan := { l with
        evCtx := [], evQ := [], evBlk := [], remCtx := c.1, ujCtx := c.2, remQ := q.1, ujQ := q.2, remBlk := e.1,
        ujBlk := e.2, lastPass := l.lastPass + 32, lastAon := b.clk.aon } }
  else b

/-- CORE_KHZ_WINDOW: the end of a window of 100,000 CK_AON cycles (R333). -/
def effCoreKhzWindow (b : Blk) : Blk :=
  if b.pw.khzAon + 100000 ≤ b.clk.aon then
    let b := b.setObj Obj.coreKhz ((b.clk.core - b.pw.khzCore) % 2 ^ 32)
    { b with pw := { b.pw with khzCore := b.clk.core, khzAon := b.pw.khzAon + 100000 } }
  else b

def execRampStart (p : Nat) (s : State) : Host.Outcome State Fault Refusal :=
  fire (p < 32) (fun b => if afterReset b then effRampStart p b else b) s
def execRampStep (p : Nat) (s : State) : Host.Outcome State Fault Refusal :=
  fire (p < 32) (fun b => if afterReset b then effRampStep p b else b) s
def execDroopWarnRise (s : State) : Host.Outcome State Fault Refusal :=
  firePin (fun b => { b with pw := { b.pw with droop := true } }) effDroopWarnRise s
def execDroopWarnFall (s : State) : Host.Outcome State Fault Refusal :=
  firePin (fun b => { b with pw := { b.pw with droop := false } }) effDroopWarnFall s
def execStretchRelease (s : State) : Host.Outcome State Fault Refusal := fireLive effStretchRelease s
def execFreqReqRise (s : State) : Host.Outcome State Fault Refusal :=
  firePin (fun b => { b with pw := { b.pw with freqReq := true } }) effFreqReqRise s
def execFreqHoldEnd (s : State) : Host.Outcome State Fault Refusal := fireLive effFreqHoldEnd s
def execFreqReqFall (s : State) : Host.Outcome State Fault Refusal :=
  firePin (fun b => { b with pw := { b.pw with freqReq := false } }) effFreqReqFall s
def execThrottleReqRise (s : State) : Host.Outcome State Fault Refusal :=
  firePin (fun b => { b with pw := { b.pw with throttleReq := true } }) effThrottleReqRise s
def execThrottleReqFall (s : State) : Host.Outcome State Fault Refusal :=
  firePin (fun b => { b with pw := { b.pw with throttleReq := false } }) effThrottleReqFall s
def execHeavyRequestEnd (s : State) : Host.Outcome State Fault Refusal := fireReady true effHeavyRequestEnd s
def execEnergyPass (s : State) : Host.Outcome State Fault Refusal := fireLive effEnergyPass s
def execCoreKhzWindow (s : State) : Host.Outcome State Fault Refusal := fireLive effCoreKhzWindow s

end Sys2Proof.Machine
end

