-- ==== Sys2Proof/Machine/Control.lean ====
section
/-! DEFINITION. The front end's own operators: NOP (R406), PEG_LOCAL (R50), PERIOD and the deadlines (R54 to R57), KINDLE (R61),
REARM (R59, R60), CANCEL (R45) and MAINT (R62). -/
namespace Sys2Proof.Machine

/-- The descriptor's unit has taken it. -/
def startWork (id : Nat) (w : Work) (b : Blk) : Blk := b.modDesc id (fun d => { d with stage := .running, work := w })

/-- NOP (R406). -/
def effNop (n : Nat) (b : Blk) : Blk :=
  match handedOf b n [0x01] with
  | some d => completeWith d.id .ok 0 0 b
  | none => b

/-! ### Pegs -/

/-- Key of a context's peg counter (R49). -/
def pegKey (ctx n : Nat) : Nat := 64 * ctx + n

def Blk.peg (b : Blk) (ctx n : Nat) : W64 := b.front.pegs.get 0 (pegKey ctx n)

def Desc.target (d : Desc) : W64 := BitVec.ofNat 64 (d.f 16 8)

/-- A PEG_LOCAL completes: AUX is its counter (R50). -/
def pegDone (d : Desc) (b : Blk) : Blk :=
  completeWith d.id .ok ((b.peg (b.q d.q).ctx (d.f 9 1)).toNat % 2 ^ 32) 0 b

/-- PEG_LOCAL_WAIT_GE (R50). -/
def effPegLocalWaitGe (n : Nat) (b : Blk) : Blk :=
  match handedOf b n [0x02] with
  | some d =>
    if d.f 8 1 = 0 then
      if pegPasses (b.peg (b.q n).ctx (d.f 9 1)) d.target then pegDone d b else startWork d.id .pegWait b
    else b
  | none => b

/-- PEG_LOCAL_SET (R50). -/
def effPegLocalSet (n : Nat) (b : Blk) : Blk :=
  match handedOf b n [0x02] with
  | some d =>
    if d.f 8 1 = 1 then
      pegDone d { b with front := { b.front with pegs := b.front.pegs.set (pegKey (b.q n).ctx (d.f 9 1)) d.target } }
    else b
  | none => b

/-- PEG_WAIT_PASS: a waiting PEG_LOCAL's counter has passed its target (R50). -/
def effPegWaitPass (n : Nat) (b : Blk) : Blk :=
  match (b.descsOf n).find? (fun d => d.stage == .running && d.work == .pegWait
      && pegPasses (b.peg (b.q n).ctx (d.f 9 1)) d.target) with
  | some d => pegDone d b
  | none => b

/-! ### Periods -/

def Blk.stream (b : Blk) (st : Nat) : Stream := b.front.streams.get {} st

def Blk.setStream (b : Blk) (st : Nat) (x : Stream) : Blk :=
  { b with front := { b.front with streams := b.front.streams.set st x } }

/-- Drop every unfinished descriptor tagged with a stream's current period (R56). -/
def dropPeriod (st : Nat) (b : Blk) : Blk :=
  let num := (b.stream st).num
  let ids := (b.front.descs.filter (fun d => d.stage ≠ .complete && d.period = some num && (b.q d.q).stream = st)).map (·.id)
  ids.foldl (fun b i => stopDesc i .late b) b

/-- Close the open period of a stream: the boundary acts as its deadline (R57). -/
def closePeriod (st : Nat) (b : Blk) : Blk :=
  let b := if (b.stream st).open_ then dropPeriod st b else b
  b.setStream st { b.stream st with open_ := false, deadlineAt := none, auto := none }

/-- Open a period at a CK_CORE count. The first tagged descriptor dispatches 32 cycles later (R57). -/
def openPeriod (st start deadline : Nat) (auto : Option (Nat × Nat)) (b : Blk) : Blk :=
  b.setStream st { open_ := true, num := (b.stream st).num + 1, openedAt := start, deadlineAt := some (start + deadline),
                   passed := false, auto := auto, readyAt := start + 32 }

/-- Tagged descriptors behind a PERIOD take the period that it opens (R55). -/
def tagBehind (id num : Nat) (b : Blk) : Blk :=
  { b with front := { b.front with descs := b.front.descs.map (fun d =>
      if d.behind = some id then { d with behind := none, period := some num } else d) } }

/-- PERIOD_MANUAL and PERIOD_AUTO (R54). -/
def openBy (n mode : Nat) (b : Blk) : Blk :=
  match handedOf b n [0x04] with
  | some d =>
    if d.f 8 1 = mode then
      let st := (b.q n).stream
      let auto := if mode = 1 then some (d.f 12 4, d.f 16 4) else none
      let b := openPeriod st b.clk.core (d.f 16 4) auto (closePeriod st b)
      completeWith d.id .ok 0 0 (tagBehind d.id (b.stream st).num b)
    else b
  | none => b

def effPeriodManual (n : Nat) (b : Blk) : Blk := openBy n 0 b
def effPeriodAuto (n : Nat) (b : Blk) : Blk := openBy n 1 b

/-- PERIOD_STOP (R54): closes the period and opens none, so what waits behind it is LATE (R55). -/
def effPeriodStop (n : Nat) (b : Blk) : Blk :=
  match handedOf b n [0x04] with
  | some d => if d.f 8 1 = 2 then completeWith d.id .ok 0 0 (closePeriod (b.q n).stream b) else b
  | none => b

/-- PERIOD_AUTO_OPEN (R54): PERIOD_CYCLES after the last opening. -/
def effPeriodAutoOpen (st : Nat) (b : Blk) : Blk :=
  let x := b.stream st
  match x.auto with
  | some (p, dl) =>
    if x.openedAt + p ≤ b.clk.core then openPeriod st (x.openedAt + p) dl (some (p, dl)) (closePeriod st b) else b
  | none => b

/-- DEADLINE (R56). -/
def effDeadline (st : Nat) (b : Blk) : Blk :=
  let x := b.stream st
  match x.deadlineAt with
  | some t =>
    if x.open_ && t ≤ b.clk.core then
      let b := dropPeriod st b
      b.setStream st { b.stream st with deadlineAt := none, passed := true }
    else b
  | none => b

/-! ### KINDLE -/

/-- KINDLE (R61, R348): its share of the request stands from dispatch, and it completes at the end of its lead. -/
def effKindle (n : Nat) (b : Blk) : Blk :=
  match handedOf b n [0x05] with
  | some d =>
    let now := b.clk.core
    let b := { b with front := { b.front with
      heavy := b.front.heavy ++ [{ cls := d.f 8 1, fin := now + d.f 12 4 + d.f 16 4 }] } }
    startWork d.id (.kindle (now + d.f 12 4)) b
  | none => b

/-- KINDLE_LEAD_END (R61). -/
def effKindleLeadEnd (n : Nat) (b : Blk) : Blk :=
  match (b.descsOf n).find? (fun d => match d.work with
    | .kindle t => d.stage == .running && decide (t ≤ b.clk.core)
    | _ => false) with
  | some d => completeWith d.id .ok 0 0 b
  | none => b

/-! ### REARM -/

/-- An entry of the rearm table, as a patch of one replay (R59). -/
def patchOf (replay : Nat) (e : List Byte) : Patch :=
  { replay := replay, slot := field e 0 2, word := byteAt e 2, value := BitVec.ofNat 64 (field e 8 8) }

/-- The rules of the rearm table that do not depend on the target (R59). -/
def rearmTableOk (x : Queue) (d : Desc) (es : List (List Byte)) : Bool :=
  es.all (fun e => d.slot < field e 0 2 && field e 0 2 < x.span && decide (1 ≤ byteAt e 2 ∧ byteAt e 2 ≤ 31) && zeroAt e 3 5)

/-- Every descriptor of a replay that begins at or after a slot and is not yet dispatched completes with MALFORMED (R60). -/
def failReplay (n replay slot : Nat) (b : Blk) : Blk :=
  let b := b.modQ n (fun x => { x with rearmFail := some (replay, slot) })
  let ids := ((b.descsOf n).filter (fun d => d.stage == .held && d.replay == replay && slot ≤ d.slot)).map (·.id)
  ids.foldl (fun b i => endMalformed i ((b.desc? i).any (fun d => d.opcode == 0x22)) (dropWork i b)) b

/-- A REARM that cannot patch (R60). -/
def rearmFailed (d : Desc) (s : Status) (b : Blk) : Blk :=
  failReplay d.q d.replay (d.slot + 1) (completeWith d.id s 0 0 b)

/-- Keep the patches, and find an entry that a descriptor already fetched makes fail (R59, R60). -/
def takePatches (d : Desc) (ps : List Patch) (b : Blk) : Blk :=
  let b := b.modQ d.q (fun x => { x with patches := x.patches.filter (fun p => d.replay ≤ p.replay) ++ ps })
  let b := completeWith d.id .ok 0 0 b
  match (b.descsOf d.q).find? (fun e => e.stage == .held && e.replay == d.replay && patchBad ps d.replay e.slot e.slots e.len) with
  | some e => failReplay d.q d.replay e.slot b
  | none => b

/-- REARM (R59, R60). -/
def effRearm (n : Nat) (b : Blk) : Blk :=
  match handedOf b n [0x06] with
  | some d =>
    let k := d.f 8 2
    if k = 0 ∨ 1024 < k then rearmFailed d .malformed b
    else
      match rd .front (.desc d.id) (clsOf b n) (d.f 16 8) (16 * k) b with
      | (b, .ok l) =>
        if anyPoison l then rearmFailed d .cancelled (raise (d.err b 0x12 0 0 (d.f 16 8)) b)
        else
          let es := pieces 16 (plain l)
          if rearmTableOk (b.q n) d es then takePatches d (es.map (patchOf d.replay)) b else rearmFailed d .malformed b
      | (b, .fail s) => rearmFailed d s b
      | (b, .badMeta) => rearmFailed d .cancelled b
      | (b, .fault) => b
      | (b, .wait) => b
  | none => b

/-! ### CANCEL -/

/-- CANCEL (R45, R47). -/
def effCancel (n : Nat) (b : Blk) : Blk :=
  match handedOf b n [0x07] with
  | some d =>
    let t := d.f 8 1
    let x := b.q t
    match x.st with
    | .unbound | .bindErr => completeWith d.id .ok 0 0 b
    | _ =>
      if x.ctx ≠ (b.q n).ctx then completeWith d.id .malformed 0 0 b
      else cancelRange t (d.f 10 2) x.epoch (some d.id) (startWork d.id .cancel b)
  | none => b

/-! ### MAINT -/

/-- The line with this key holds an address of the range: some segment of the context maps it there (R62; DEDUCED, log 13). -/
def lineInRange (d : Desc) (b : Blk) (key : Nat) : Bool :=
  let host := decide (2 ^ 63 ≤ key)
  let pa := if host then key - 2 ^ 63 else key
  let lo := d.f 16 8
  let hi := lo + d.f 24 8
  let c := clsOf b d.q
  (List.range 16).any (fun n =>
    let s := parseSeg b (b.mem.bytes (ctxEntry b c.ctx + 64 + 32 * n) 32)
    let va := s.vbase + (pa - s.pbase)
    s.ok && s.host == host && s.pbase ≤ pa && pa < s.pbase + s.len * 2 ^ 21 && lo ≤ va && va < hi)

/-- The entry and line are selected by a MAINT (R62). -/
def maintSelects (d : Desc) (b : Blk) (entry : Nat) (l : Line) : Bool :=
  match d.f 9 1 with
  | 0 => lineInRange d b l.addr
  | 1 => entry == d.f 11 1
  | _ => true

/-- Write back the selected dirty lines of a list; the count is of the lines written. -/
def cleanLines (u : UnitRef) (p : Nat) (sel : Nat → Line → Bool) : List (Nat × Line) → Blk → Blk × List (Nat × Line) × Nat
  | [], b => (b, [], 0)
  | (e, l) :: t, b =>
    let dirty := l.dirty && sel e l
    let b := if dirty then writeLine u p l b else b
    let r := cleanLines u p sel t b
    (r.1, (e, if dirty then { l with dirty := false } else l) :: r.2.1, r.2.2 + (if dirty then 1 else 0))

/-- Drop the lines that an invalidation selects. -/
def dropLines (sel : Nat → Line → Bool) (ls : List (Nat × Line)) : List (Nat × Line) := ls.filter (fun e => !sel e.1 e.2)

/-- MAINT on one pitch's metadata cache: clean before invalidating. An invalidation empties the dedup window and the grid
buffer too (R99, R121), and one of ALL lets the cache be enabled (R235). -/
def maintPitch (d : Desc) (sel : Nat → Line → Bool) (p : Nat) (b : Blk) : Blk × Nat :=
  let op := d.f 8 1
  let r := if op.testBit 0 then cleanLines (.desc d.id) p sel (b.pitch p).mdc.lines b else (b, (b.pitch p).mdc.lines, 0)
  let b := r.1
  let x := b.pitch p
  let inv := op.testBit 1
  let c := { x.mdc with
    lines := if inv then dropLines sel r.2.1 else r.2.1
    fresh := x.mdc.fresh || (inv && d.f 9 1 == 2) }
  (b.setPitch p (if inv then { x with mdc := c, window := [], grid := [] } else { x with mdc := c }), r.2.2)

/-- MAINT on the selected pitches. -/
def maintPitches (d : Desc) (sel : Nat → Line → Bool) : List Nat → Blk → Blk × Nat
  | [], b => (b, 0)
  | p :: t, b =>
    let r := if (d.f 12 4).testBit p then maintPitch d sel p b else (b, 0)
    let s := maintPitches d sel t r.1
    (s.1, r.2 + s.2)

/-- MAINT on a read-only cache. -/
def maintClean1 (d : Desc) (sel : Nat → Line → Bool) (c : Cache) : Cache :=
  if (d.f 8 1).testBit 1 then { c with lines := dropLines sel c.lines, fresh := c.fresh || d.f 9 1 == 2 } else c

/-- The three MAINT rows (R62), by OP. -/
def maintBy (n op : Nat) (b : Blk) : Blk :=
  match handedOf b n [0x08] with
  | some d =>
    if d.f 8 1 = op then
      let sel := maintSelects d b
      let t := d.f 10 1
      let r := if t.testBit 0 then maintPitches d sel (List.range b.pitchCount) b else (b, 0)
      let b := r.1
      let b := if t.testBit 0 && op.testBit 1 then { b with gs := { b.gs with dbuf := [] } } else b
      let b := { b with xlat := { b.xlat with
        desc := if t.testBit 1 then maintClean1 d sel b.xlat.desc else b.xlat.desc
        fault := if t.testBit 2 then maintClean1 d sel b.xlat.fault else b.xlat.fault } }
      completeWith d.id .ok r.2 0 b
    else b
  | none => b

def effMaintClean (n : Nat) (b : Blk) : Blk := maintBy n 1 b
def effMaintInvalidate (n : Nat) (b : Blk) : Blk := maintBy n 2 b
def effMaintCleanInvalidate (n : Nat) (b : Blk) : Blk := maintBy n 3 b

def execNop (q : Nat) (s : State) : Host.Outcome State Fault Refusal := fireReady (q < 256) (effNop q) s
def execPegLocalWaitGe (q : Nat) (s : State) : Host.Outcome State Fault Refusal :=
  fireReady (q < 256) (effPegLocalWaitGe q) s
def execPegLocalSet (q : Nat) (s : State) : Host.Outcome State Fault Refusal := fireReady (q < 256) (effPegLocalSet q) s
def execPegWaitPass (q : Nat) (s : State) : Host.Outcome State Fault Refusal := fireReady (q < 256) (effPegWaitPass q) s
def execPeriodManual (q : Nat) (s : State) : Host.Outcome State Fault Refusal := fireReady (q < 256) (effPeriodManual q) s
def execPeriodAuto (q : Nat) (s : State) : Host.Outcome State Fault Refusal := fireReady (q < 256) (effPeriodAuto q) s
def execPeriodStop (q : Nat) (s : State) : Host.Outcome State Fault Refusal := fireReady (q < 256) (effPeriodStop q) s
def execPeriodAutoOpen (st : Nat) (s : State) : Host.Outcome State Fault Refusal :=
  fireReady (st < 8) (effPeriodAutoOpen st) s
def execDeadline (st : Nat) (s : State) : Host.Outcome State Fault Refusal := fireReady (st < 8) (effDeadline st) s
def execKindle (q : Nat) (s : State) : Host.Outcome State Fault Refusal := fireReady (q < 256) (effKindle q) s
def execKindleLeadEnd (q : Nat) (s : State) : Host.Outcome State Fault Refusal := fireReady (q < 256) (effKindleLeadEnd q) s
def execRearm (q : Nat) (s : State) : Host.Outcome State Fault Refusal := fireReady (q < 256) (effRearm q) s
def execCancel (q : Nat) (s : State) : Host.Outcome State Fault Refusal := fireReady (q < 256) (effCancel q) s
def execMaintClean (q : Nat) (s : State) : Host.Outcome State Fault Refusal := fireReady (q < 256) (effMaintClean q) s
def execMaintInvalidate (q : Nat) (s : State) : Host.Outcome State Fault Refusal :=
  fireReady (q < 256) (effMaintInvalidate q) s
def execMaintCleanInvalidate (q : Nat) (s : State) : Host.Outcome State Fault Refusal :=
  fireReady (q < 256) (effMaintCleanInvalidate q) s

end Sys2Proof.Machine
end

