-- ==== Sys2Proof/Machine/Barrier.lean ====
section
/-! DEFINITION. Global barriers: PEG_GLOBAL (R51 to R53), the combining die (R271) and the nodes of the combining tree (R321 to
R325). -/
namespace Sys2Proof.Machine

/-! ### A participant -/

/-- The wait of a descriptor for a barrier. -/
def Desc.barWait (d : Desc) : Option BarWait :=
  match d.work with
  | .peg w => some w
  | .step _ w => w
  | _ => none

/-- Change a descriptor's wait. -/
def modWait (id : Nat) (f : BarWait → BarWait) (b : Blk) : Blk :=
  b.modDesc id (fun d => match d.work with
    | .peg w => { d with work := .peg (f w) }
    | .step r w => { d with work := .step r (w.map f) }
    | _ => d)

/-- Another participant of this context and barrier must complete first: one whose arrival is out, or the generation
before, wherever its descriptor stands in the block (R51). Once a generation of the barrier has completed here, one further ahead
than the next waits for those between (DEDUCED, log 83). -/
def barrierHeld (b : Blk) (d : Desc) (w : BarWait) : Bool :=
  let ctx := (b.q d.q).ctx
  b.front.descs.any (fun e =>
    e.id ≠ d.id && (b.q e.q).ctx == ctx &&
      ((match e.barWait with
        | some v => v.barrier == w.barrier && v.sentAt.isSome
        | none => false)
      || (e.stage ≠ .complete && (match e.instance_ with
        | some (bar, gen) => bar == w.barrier && (gen + 1) % 2 ^ 32 == w.gen
        | none => false))))
    || (match List.find? (fun e => e.1 = 16 * ctx + w.barrier) b.front.barDone with
      | some (_, v) => decide (2 ≤ (w.gen + 2 ^ 32 - v) % 2 ^ 32 ∧ (w.gen + 2 ^ 32 - v) % 2 ^ 32 < 2 ^ 31)
      | none => false)

/-- Send an arrival to the chip's combining die (R271); none when its link is not UP. -/
def sendArrival (q : Nat) (w : BarWait) (vals : List W64) (abort : Bool) (b : Blk) : Option Blk :=
  let c := clsOf b q
  let parted := (b.ctxSlot c.ctx).isSome
  let m : PegArriveB := { part := b.ctxPartId c.ctx, barrier := w.barrier, reduce := w.reduce, count := vals.length,
                          mismatch := false, abort := abort, subtree := 1, gen := w.gen, vals := vals,
                          ctx := if parted then 0 else c.ctx + 1 }
  if b.ident.die = 0 ∨ b.linkUp 0 = true then some (sendMsg b.ident.chip 0 c (.pegArrive m) b) else none

/-- The descriptor's arrival goes out, or the combining die cannot be reached (R53, R271). -/
def arriveNow (id : Nat) (vals : List W64) (own : Option Status) (b : Blk) : Blk :=
  match b.desc? id with
  | none => b
  | some d =>
    match d.barWait with
    | none => b
    | some w =>
      let now := b.clk.core
      let b := (modWait id (fun w => { w with sentAt := some now, own := own }) b).modDesc id (fun d => { d with started := true })
      match sendArrival d.q w vals own.isSome b with
      | some b => b
      | none => modWait id (fun w => { w with result := some (3, 0, []) }) (noteHeld (b.q d.q).ctx 0 b)

/-- Operands as FP64 patterns. -/
def f64List (l : List Byte) : List W64 := (valuesAt l 0 8 (l.length / 8)).map (BitVec.ofNat 64)

/-- Read the operands of a PEG_GLOBAL and send its arrival (R51, R53). -/
def pegSend (id : Nat) (b : Blk) : Blk :=
  match b.desc? id with
  | none => b
  | some d =>
    match d.work with
    | .peg w =>
      if w.sentAt.isSome || barrierHeld b d w || b.isParked (.desc id) then b
      else
        match rd .front (.desc id) (clsOf b d.q) (d.f 24 8) (8 * w.count) b with
        | (b, .ok l) =>
          if anyPoison l then
            arriveNow id [] (some .cancelled) (raise (d.err b 0x12 0 0 (d.f 24 8)) b)
          else arriveNow id (f64List (plain l)) none b
        | (b, .fail s) => arriveNow id [] (some s) b
        | (b, .badMeta) => arriveNow id [] (some .cancelled) b
        | (b, .fault) => b
        | (b, .wait) => b
    | _ => b

/-- The status that a result code names: codes of R321 and, between dies, 3 for D2D_DOWN (DESIGN CHOICE, log 21). -/
def resultStatus (code : Nat) : Status :=
  match code with
  | 0 => .ok
  | 1 => .malformed
  | 2 => .unreachable
  | _ => .d2dDown

/-- A PEG_GLOBAL whose instance has completed here: DST is written before anything else (R52, R41). -/
def pegFinish (id : Nat) (b : Blk) : Blk :=
  match b.desc? id with
  | none => b
  | some d =>
    match d.work with
    | .peg w =>
      match w.own, w.result with
      | some s, some _ => completeWith id s 0xFFFFFFFF 0 b
      | none, some (code, rank, vals) =>
        if b.isParked (.desc id) then b
        else if code ≠ 0 then completeWith id (resultStatus code) 0xFFFFFFFF 0 b
        else
          match wr .front (.desc id) (clsOf b d.q) (d.f 32 8) ((vals.flatMap (fun v => toLe 8 v.toNat)).map (·, false)) b with
          | (b, .ok) => completeWith id .ok rank 0 b
          | (b, .fail s) => completeWith id s 0xFFFFFFFF 0 b
          | (b, .badMeta) => completeWith id .cancelled 0xFFFFFFFF 0 b
          | (b, .fault) => b
          | (b, .wait) => b
      | _, none => b
    | _ => b

/-- Finish every PEG_GLOBAL whose result has come. -/
def pegFinishAll (b : Blk) : Blk := (b.front.descs.map (·.id)).foldl (fun b i => pegFinish i b) b

/-- PEG_GLOBAL (R51): the queue's descriptor is taken, and the first that may arrive sends its arrival. -/
def effPegGlobal (n : Nat) (b : Blk) : Blk :=
  let b := match handedOf b n [0x03] with
    | some d => startWork d.id (.peg { barrier := d.f 10 1 % 16, gen := d.f 16 4, reduce := d.f 8 1, count := d.f 9 1,
                                       sentAt := none, own := none }) b
    | none => b
  match (b.descsOf n).find? (fun d => match d.work with
    | .peg w => w.sentAt.isNone && !(barrierHeld b d w) && !(b.isParked (.desc d.id))
    | _ => false) with
  | some d => pegFinishAll (pegSend d.id b)
  | none => b

/-- The result of an instance reaches this block (R52, R323): a STEP keeps it for its own row. -/
def deliver (ctx barrier gen code rank : Nat) (vals : List W64) (b : Blk) : Blk :=
  let ids := (b.front.descs.filter (fun d => (b.q d.q).ctx = ctx && (match d.barWait with
    | some w => w.barrier == barrier && w.gen == gen && w.sentAt.isSome && w.result.isNone
    | none => false))).map (·.id)
  ids.foldl (fun b i => modWait i (fun w => { w with result := some (code, rank, vals) }) b) b

/-! ### The node -/

/-- Children of a node, in CHILD order (R311). -/
def nodeKids (b : Blk) (slot : Option Nat) : List Nat :=
  match slot with
  | some n => (List.range (min 32 (byteAt (b.partRec n) 2))).map (fun i => field (b.partRec n) (8 + 2 * i) 2 % 16384)
  | none => []

/-- Parent of a node; none at the root. -/
def nodeParent (b : Blk) (slot : Option Nat) : Option Nat :=
  match slot with
  | some n => if (field (b.partRec n) 0 2).testBit 15 then none else some (field (b.partRec n) 0 2 % 16384)
  | none => none

def findNode (b : Blk) (ctx barrier : Nat) : Option Node := b.ridge.nodes.find? (fun x => x.ctx = ctx && x.barrier = barrier)

def putNode (x : Node) (b : Blk) : Blk :=
  { b with ridge := { b.ridge with
      nodes := b.ridge.nodes.filter (fun y => !(y.ctx = x.ctx && y.barrier = x.barrier)) ++ [x] } }

def dropNode (x : Node) (b : Blk) : Blk :=
  { b with ridge := { b.ridge with nodes := b.ridge.nodes.filter (fun y => !(y.ctx = x.ctx && y.barrier = x.barrier)) } }

/-- Remember generations that ended badly, the latest for each slot and barrier (R324). -/
def remember (ctx barrier : Nat) (gens : List (Nat × Nat)) (b : Blk) : Blk :=
  { b with ridge := { b.ridge with
      abandoned := b.ridge.abandoned.filter (fun a => !(a.ctx = ctx && a.barrier = barrier))
        ++ gens.map (fun g => { ctx := ctx, barrier := barrier, gen := g.1, status := g.2 }) } }

/-- A result to a die of this chip. -/
def resultToDie (x : Node) (die gen code rank : Nat) (vals : List W64) (b : Blk) : Blk :=
  if die = b.ident.die then deliver x.ctx x.barrier gen code rank vals b
  else if b.linkUp die then
    let m : PegResultB := { part := x.part, barrier := x.barrier, status := code, count := vals.length, rank := rank,
                            gen := gen, vals := vals, ctx := if x.slot.isSome then 0 else x.ctx + 1 }
    sendMsg b.ident.chip die { ctx := x.ctx } (.pegResult m) b
  else b

/-- A result to another chip, where it can be reached. -/
def resultToChip (x : Node) (chip gen code base : Nat) (vals : List W64) (b : Blk) : Blk :=
  match reachFail b x.ctx chip 0 with
  | some _ => b
  | none =>
    let m : PegResultB := { part := x.part, barrier := x.barrier, status := if code = 3 then 2 else code,
                            count := vals.length, rank := base, gen := gen, vals := vals, ctx := 0 }
    sendMsg chip 0 { ctx := x.ctx } (.pegResult m) b

/-- An arrival to the parent. -/
def arriveUp (x : Node) (reduce : Nat) (vals : List W64) (mismatch abort : Bool) (subtree : Nat) (b : Blk) : Blk :=
  match nodeParent b x.slot with
  | none => b
  | some p =>
    match reachFail b x.ctx p 0 with
    | some _ => b
    | none =>
      let m : PegArriveB := { part := x.part, barrier := x.barrier, reduce := reduce, count := vals.length,
                              mismatch := mismatch, abort := abort, subtree := subtree, gen := x.gen, vals := vals, ctx := 0 }
      sendMsg p 0 { ctx := x.ctx } (.pegArrive m) b

/-- The contributions of a node in the order in which they arrived, with their SUBTREE sizes: none is the chip's own, which
arrives with the last of its dies (R323). -/
def contributions (dies : Nat) : Nat → List Arrival → List (Option Nat × Nat)
  | _, [] => []
  | seen, a :: t =>
    if a.child then (some a.who, a.subtree) :: contributions dies seen t
    else if seen + 1 = dies then (none, dies) :: contributions dies (seen + 1) t
    else contributions dies (seen + 1) t

/-- Each contribution with its base (R323). -/
def withBases : Nat → List (Option Nat × Nat) → List (Option Nat × Nat)
  | _, [] => []
  | at_, (w, n) :: t => (w, at_) :: withBases (at_ + n) t

/-- Deliver the result of an instance to the node's dies and children, from a base rank (R323). -/
def spread (x : Node) (code base : Nat) (vals : List W64) (b : Blk) : Blk :=
  let bases := withBases base (contributions b.dies.length 0 x.arrivals)
  let baseOf (w : Option Nat) : Nat := ((bases.find? (fun e => e.1 = w)).map (·.2)).getD 0
  let dies := (x.arrivals.filter (fun a => !a.child)).map (·.who)
  let b := (nodeKids b x.slot).foldl (fun b k => resultToChip x k x.gen code (baseOf (some k)) vals b) (dropNode x b)
  (List.range dies.length).foldl (fun b i => resultToDie x (dies.getD i 0) x.gen code (baseOf none + i) vals b) b

/-- Abort an instance (R324): `code` 1 MALFORMED, 2 UNREACHABLE, 3 a lost die. -/
def abortNode (x : Node) (code : Nat) (up : Bool) (b : Blk) : Blk :=
  let b := if x.ctx < 64 then bump Ctr.rgPegAborts x.ctx 1 b else b
  let b := if code = 3 then b.dies.foldl (fun b d => noteHeld x.ctx d b) b else b
  let b := if up then arriveUp x 0 [] (code == 1) true 0 b else b
  spread x code 0 [] (remember x.ctx x.barrier [(x.gen, code)] b)

/-- FP64 reduction of R52. -/
def reduceVals (reduce : Nat) (a c : List W64) : List W64 :=
  match reduce with
  | 1 => List.zipWith f64add a c
  | 2 => List.zipWith f64max a c
  | 3 => List.zipWith f64min a c
  | _ => []

/-- The node's arrivals in the fixed order of R271 and R322: dies ascending, then children in CHILD order. -/
def inOrder (b : Blk) (x : Node) : List Arrival :=
  b.dies.filterMap (fun d => x.arrivals.find? (fun a => !a.child && a.who = d))
    ++ (nodeKids b x.slot).filterMap (fun k => x.arrivals.find? (fun a => a.child && a.who = k))

/-- Every arrival is there: combine them, and send the result up or down (R322). -/
def combineNode (x : Node) (b : Blk) : Blk :=
  let as := inOrder b x
  if as.length < b.dies.length + (nodeKids b x.slot).length then b
  else
    match as with
    | [] => b
    | a :: rest =>
      let mism := as.any (fun e => e.mismatch || e.reduce ≠ a.reduce || e.count ≠ a.count)
      let vals := if mism then [] else rest.foldl (fun v e => reduceVals a.reduce v e.vals) a.vals
      match nodeParent b x.slot with
      | none => spread x (if mism then 1 else 0) 0 vals (if mism then remember x.ctx x.barrier [(x.gen, 1)] b else b)
      | some p =>
        match reachFail b x.ctx p 0 with
        | some _ => abortNode x 2 false b
        | none =>
          let sub := as.foldl (fun n e => n + e.subtree) 0
          putNode x (watch p (arriveUp x a.reduce vals mism false sub b))

/-- A die of the chip, or a chip next to the node, cannot be reached: the code of the abort (R271, R324). -/
def nodeLost (b : Blk) (x : Node) : Option Nat :=
  if b.dies.any (fun d => d ≠ b.ident.die && !(b.linkUp d)) then some 3
  else if ((nodeKids b x.slot) ++ (nodeParent b x.slot).toList).any (fun c => b.ridge.declared.any (fun e => e.1 = c)) then some 2
  else none

/-- Answer an arrival's sender. -/
def replyTo (x : Node) (a : Arrival) (gen code : Nat) (b : Blk) : Blk :=
  if a.child then resultToChip x a.who gen code 0 [] b else resultToDie x a.who gen code 0 [] b

/-- An arrival at the node (R322, R324, R325). -/
def nodeArrive (ctx : Nat) (slot : Option Nat) (part barrier gen : Nat) (a : Arrival) (b : Blk) : Blk :=
  let fresh : Node := { ctx := ctx, slot := slot, part := part, barrier := barrier, gen := gen }
  match b.ridge.abandoned.find? (fun r => r.ctx = ctx && r.barrier = barrier && r.gen = gen) with
  | some r => replyTo fresh a gen r.status b
  | none =>
    let old := findNode b ctx barrier
    let x := old.getD fresh
    let b := if old.isNone then (nodeKids b slot ++ (nodeParent b slot).toList).foldl (fun b c => watch c b) b else b
    let stray := a.child && !((nodeKids b slot).contains a.who)
    if stray then replyTo fresh a gen 1 (abortNode x 1 true b)
    else if x.gen ≠ gen then
      let b := abortNode x 1 true b
      replyTo fresh a gen 1 (remember ctx barrier [(x.gen, 1), (gen, 1)] b)
    else
      let x := { x with arrivals := x.arrivals ++ [a] }
      if a.abort then abortNode x (if a.mismatch then 1 else 2) true b
      else
        match nodeLost b x with
        | some code => abortNode x code true b
        | none => combineNode x (putNode x b)

/-- The context and slot that a barrier packet names. -/
def barrierOf (b : Blk) (part ctx : Nat) : Nat × Option Nat :=
  if ctx ≠ 0 then (ctx - 1, none)
  else
    match b.slotOfPart part with
    | some n => ((b.ctxOfSlot n).getD (64 + n), some n)
    | none => (128, none)

/-- PEG_ARRIVE: the node takes the oldest arrival (R322). -/
def effPegArrive (b : Blk) : Blk :=
  match oldest b (fun r => match r.msg with
    | .pegArrive _ => true
    | _ => false) with
  | some (i, r) =>
    match r.msg with
    | .pegArrive m =>
      let b := takeRx i r b
      let k := barrierOf b m.part m.ctx
      let child := r.chip ≠ b.ident.chip
      pegFinishAll (nodeArrive k.1 k.2 m.part m.barrier m.gen
        { child := child, who := if child then r.chip else r.die, subtree := m.subtree, reduce := m.reduce, count := m.count,
          mismatch := m.mismatch, abort := m.abort, vals := m.vals } b)
    | _ => b
  | none => b

/-- A result from the parent (R323, R324), or from the combining die. -/
def takeResult (r : Rx) (m : PegResultB) (b : Blk) : Blk :=
  let k := barrierOf b m.part m.ctx
  if r.chip = b.ident.chip then deliver k.1 m.barrier m.gen m.status m.rank m.vals b
  else
    match findNode b k.1 m.barrier with
    | some x =>
      if x.gen ≠ m.gen then b
      else if m.status = 2 then abortNode x 2 false b
      else spread x m.status m.rank m.vals (if m.status = 0 then b else remember x.ctx x.barrier [(x.gen, m.status)] b)
    | none => b

/-- PEG_RESULT: the oldest result is taken, and what has its result completes (R52, R323). -/
def effPegResult (b : Blk) : Blk :=
  match oldest b (fun r => match r.msg with
    | .pegResult _ => true
    | _ => false) with
  | some (i, r) =>
    match r.msg with
    | .pegResult m => pegFinishAll (takeResult r m (takeRx i r b))
    | _ => b
  | none => pegFinishAll b

/-! ### Lost dies and chips -/

/-- A link of this die is not UP (R271): die 0 aborts every waiting instance of the chip, another die completes its own
waiting blocks. -/
def barriersLinkDown (b : Blk) : Blk :=
  if b.ident.die = 0 then
    pegFinishAll (b.ridge.nodes.foldl (fun b x => match nodeLost b x with
      | some 3 => abortNode x 3 true b
      | _ => b) b)
  else if b.linkUp 0 then b
  else
    let ids := (b.front.descs.filter (fun d => match d.barWait with
      | some w => w.sentAt.isSome && w.result.isNone
      | none => false)).map (·.id)
    pegFinishAll (ids.foldl (fun b i => modWait i (fun w => { w with result := some (3, 0, []) }) b) b)

/-- A chip has been declared unreachable (R316, R324). -/
def barriersChipLost (chip : Nat) (b : Blk) : Blk :=
  pegFinishAll (b.ridge.nodes.foldl (fun b x =>
    if (nodeKids b x.slot ++ (nodeParent b x.slot).toList).contains chip then abortNode x 2 true b else b) b)

def execPegGlobal (q : Nat) (s : State) : Host.Outcome State Fault Refusal := fireReady (q < 256) (effPegGlobal q) s
def execPegArrive (s : State) : Host.Outcome State Fault Refusal := fireReady true effPegArrive s
def execPegResult (s : State) : Host.Outcome State Fault Refusal := fireReady true effPegResult s

end Sys2Proof.Machine
end

