-- ==== Sys2Proof/Machine/Units.lean ====
section
/-! DEFINITION. Units of work on a pitch: handing them out, their input tiles (R221, R222), their output (R231), their failure
(R395), and the end of their operator. -/
namespace Sys2Proof.Machine

/-- The running state of an operator of units. -/
def Desc.run (d : Desc) : Option UnitsRun :=
  match d.work with
  | .units r => some r
  | .scatter r => some r.run
  | _ => none

/-- Change it. -/
def modRun (id : Nat) (f : UnitsRun → UnitsRun) (b : Blk) : Blk :=
  b.modDesc id (fun d => match d.work with
    | .units r => { d with work := .units (f r) }
    | .scatter r => { d with work := .scatter { r with run := f r.run } }
    | _ => d)

/-- The operator's units are all committed or ended: it completes with its count of committed units (R107, R130). -/
def finishOp (id : Nat) (b : Blk) : Blk :=
  match b.desc? id with
  | none => b
  | some d =>
    match d.work with
    | .units r => if b.units.any (fun u => u.op = id) then b else completeWith id .ok r.finished d.dropped b
    | _ => b

/-- A unit ends without committing: its operator notes a status (R108). -/
def endUnit (uid : Nat) (s : Status) (b : Blk) : Blk :=
  match b.unit? uid with
  | none => b
  | some u => finishOp u.op (dropUnits [uid] (addStatus u.op s b))

/-- A unit fails (R395). -/
def failUnit (uid : Nat) (b : Blk) : Blk :=
  match b.unit? uid with
  | none => b
  | some u =>
    match b.desc? u.op with
    | none => b
    | some d =>
      let ctx := (b.q d.q).ctx
      let b := bump Ctr.unitsFailed ctx 1 (raise { d.err b 0x14 2 u.no 0 with inst := u.pitch } b)
      endUnit uid (if d.opcode = 0x20 then .unreachable else .cancelled) b

/-- Where a poisoned byte came from, as R388 numbers the sources: memory, the host, a memory packet. -/
def poisonSource (c : Cls) (va : Nat) (b : Blk) : Nat :=
  match (translate .front (.fetch 0) c va false false b).2 with
  | .ok pa host _ _ _ => if host then 1 else if b.isSelf pa then 0 else 2
  | _ => 0

/-- A POISON record for a unit (R389). -/
def poisonRecord (d : Desc) (pitch va : Nat) (b : Blk) : Blk :=
  raise { d.err b 0x12 2 (poisonSource (clsOf b d.q) va b) va with inst := pitch } b

/-- `n` elements entered the arithmetic as the NaN. -/
def poisonNans (ctx n : Nat) (b : Blk) : Blk := if n = 0 then b else bump Ctr.poisonNan ctx n b

/-- 64-byte sectors that a run of bytes touches. -/
def sectorsOf (va n : Nat) : Nat := if n = 0 then 0 else (va + n - 1) / 64 + 1 - va / 64

/-- Sectors read by a pitch: the counter and its energy (R350, R354). -/
def pitchSectors (ctx q n : Nat) (b : Blk) : Blk :=
  charge 0x03 n (some ctx) (some q) (bump Ctr.pwPitchSectors ctx n b)

/-! ### Handing out -/

/-- The enabled pitch with the fewest units of this kind outstanding, bags for a LOOKUP; ties go to the lowest number (R91). -/
def leastPitch (kind : UKind) (b : Blk) : Nat :=
  let load (p : Nat) : Nat := (b.units.filter (fun u => u.pitch = p && u.kind = kind)).length
  (List.range b.pitchCount).foldl (fun best p => if load p < load best then p else best) 0

/-- A unit to hand out: its kind, number and input still to be fetched. -/
structure NewUnit where
  no : Nat
  need : List (Nat × Nat)
deriving DecidableEq, Repr, Inhabited

/-- Give a group of units to the least busy pitch. -/
def handGroup (op : Nat) (kind : UKind) (ns : List NewUnit) (b : Blk) : Blk :=
  let p := leastPitch kind b
  let new := (List.range ns.length).map (fun i =>
    let n := ns.getD i default
    ({ uid := b.nextUid + i, op := op, kind := kind, no := n.no, pitch := p, need := n.need } : Unit))
  let x := b.pitch p
  let b := b.setPitch p { x with units := x.units ++ new.map (·.uid) }
  { b with units := b.units ++ new, nextUid := b.nextUid + ns.length }

/-- Hand out groups in order. -/
def handAll (op : Nat) (kind : UKind) (gs : List (List NewUnit)) (b : Blk) : Blk :=
  gs.foldl (fun b g => handGroup op kind g b) b

/-! ### Input tiles -/

/-- Cut a stream of `n` elements of `e` bytes into tiles of at most 4 KiB. -/
def tilesOf (va e n : Nat) : List (Nat × Nat) :=
  let per := 4096 / e
  (List.range (ceilDiv n per)).map (fun i => (va + 4096 / e * e * i, e * min per (n - per * i)))

/-- Interleave two lists of tiles, so that both streams advance together. -/
def interleave : List (Nat × Nat) → List (Nat × Nat) → List (Nat × Nat)
  | [], l => l
  | x :: t, l => x :: (match l with
    | [] => t
    | y :: r => y :: interleave t r)

/-- Bytes of committed input, when they are all there. -/
def Unit.input (u : Unit) (va n : Nat) : Option (List PByte) :=
  match u.have_.find? (fun h => h.1 ≤ va && va + n ≤ h.1 + h.2.length) with
  | some h => some ((h.2.drop (va - h.1)).take n)
  | none => none

/-- The unit and its descriptor. -/
def unitOf (b : Blk) (uid : Nat) : Option (Unit × Desc) :=
  match b.unit? uid with
  | some u => (b.desc? u.op).map (fun d => (u, d))
  | none => none

/-- Bytes of the vectors of an INTERACT sample, once its offsets are there (R132). -/
def sampleRuns (d : Desc) (u : Unit) : List (Nat × Nat) :=
  let f := d.f 12 2
  let s := if d.f 8 1 = 0 then 4 else 2
  let offs := match u.input (d.f 32 8) (8 * f) with
    | some l => valuesAt (plain l) 0 8 f
    | none => []
  offs.map (fun o => ((d.f 24 8 + o + u.no * d.f 20 4) % 2 ^ 64, d.f 14 2 * s))

/-- An INTERACT sample has its offsets: its vectors are fetched next. Poisoned offsets fail the unit (DEDUCED, log 15). -/
def openSample (uid : Nat) (b : Blk) : Blk :=
  match unitOf b uid with
  | some (u, d) =>
    if u.kind = .sample ∧ u.need = [] ∧ u.opened = false then
      if u.have_.any (fun h => anyPoison h.2) then failUnit uid (poisonRecord d u.pitch (d.f 32 8) b)
      else b.modUnit uid (fun u => { u with opened := true, need := sampleRuns d u })
    else b
  | none => b

/-- The mask of a forward record, and whether a unit's bit in a mask word is set (R145, R147). -/
def forwardMask (d : Desc) : Nat := if byteAt d.forward 0 = 0x10 then field d.forward 72 8 else field d.forward 48 8
def maskWord (d : Desc) (no : Nat) : Nat := forwardMask d + 8 * (no / 64)
def maskBit (l : List PByte) (no : Nat) : Bool := (le (plain l)).testBit (no % 64)

/-- The input streams that stride detectors watch: reader (0 index, 1 weight, 2 coordinate), first address, bytes (R236). -/
def Desc.streams (d : Desc) : List (Nat × Nat × Nat) :=
  let l := d.unitBody
  let r := d.run.getD d.pre
  if d.unitOp = 0x10 then
    let n := if field l 12 4 = 1 then field l 16 4 else r.lens.foldl (· + ·) 0
    let ixB := ixBytes (((r.tabs.find? (fun t => !t.bad)).map Captured.ixFmt).getD 0)
    (0, field l 48 8, ixB * n)
      :: (if field l 56 8 = 0 then [] else [(1, field l 56 8, (if (byteAt l 10).testBit 0 then 2 else 4) * n)])
  else if d.unitOp = 0x12 then
    [(2, field l 24 8, (field l 12 4 - 1) * field l 16 4 + byteAt l 8 * (if byteAt l 9 = 0 then 4 else 2))]
  else []

/-- The stream that an address belongs to. -/
def Desc.streamAt (d : Desc) (va : Nat) : Option (Nat × Nat × Nat) :=
  d.streams.find? (fun s => s.2.1 ≤ va && va < s.2.1 + s.2.2)

/-- The detector of a pitch's reader sees the lines of a tile read (R236). -/
def feedTile (p : Nat) (d : Desc) (va n : Nat) (b : Blk) : Blk :=
  match d.streamAt va with
  | some (k, _, _) =>
    let x := b.pitch p
    let lines := (List.range ((va + n - 1) / 128 + 1 - va / 128)).map (fun i => va / 128 + i)
    b.setPitch p { x with det := x.det.set k (lines.foldl Detector.feed (x.det.get {} k)) }
  | none => b

/-- Lines that a stride detector has brought into the reader's sack take the place of what the read of the tile gave (R236). -/
def withPrefetched (x : Pitch) (op va : Nat) (l : List PByte) : List PByte :=
  let mine := x.ahead.filter (fun h => h.1 = op)
  if mine.isEmpty then l
  else
    (List.range l.length).map (fun i =>
      match mine.find? (fun h => h.2.1 ≤ va + i && va + i < h.2.1 + h.2.2.length) with
      | some h => h.2.2.getD (va + i - h.2.1) (0, false)
      | none => l.getD i (0, false))

/-- The prefetched lines that lie wholly before the end of a tile have been consumed. -/
def consumed (op hi : Nat) (p : Nat) (b : Blk) : Blk :=
  let x := b.pitch p
  b.setPitch p { x with ahead := x.ahead.filter (fun h => !(h.1 = op && h.2.1 + h.2.2.length ≤ hi)) }

/-- TILE_COMMIT: the next input tile of a unit is committed whole (R221, R222). -/
def effTileCommit (uid : Nat) (b : Blk) : Blk :=
  match unitOf b uid with
  | some (u, d) =>
    if b.isParked (.unit uid) then b
    else
      match u.need with
      | [] => b
      | (va, n) :: rest =>
        match rd (.pitch u.pitch) (.unit uid) (clsOf b d.q) va n b with
        | (b, .ok l) =>
          let b := pitchSectors (b.q d.q).ctx d.q (sectorsOf va n) b
          let l := withPrefetched (b.pitch u.pitch) d.id va l
          let b := consumed d.id (va + n) u.pitch (feedTile u.pitch d va n b)
          openSample uid (b.modUnit uid (fun u => { u with need := rest, have_ := u.have_ ++ [(va, l)] }))
        | (b, .fail s) => endUnit uid s b
        | (b, .badMeta) => failUnit uid b
        | (b, .fault) => b
        | (b, .wait) => b
  | none => b

/-! ### Output -/

/-- Cut a run of bytes at 128-byte lines. -/
def linePieces (off : Nat) (d : List PByte) : List (Nat × List PByte) :=
  let lead := (128 - off % 128) % 128
  let first : List (Nat × List PByte) := if lead = 0 ∨ d.isEmpty then [] else [(off, d.take lead)]
  let rest := pieces 128 (d.drop lead)
  first ++ (List.range rest.length).map (fun i => (off + lead + 128 * i, rest.getD i []))

/-- One whole piece of output goes to memory past the cache (R231). -/
def storeThrough (uid : Nat) (c : Cls) (pa : Nat) (host : Bool) (d : List PByte) (b : Blk) : Blk × Wr :=
  if !host && b.isSelf pa then
    match mustWait b (some (.unit uid)) (paOff pa) d.length with
    | none => (portWrite (.unit uid) (paOff pa) d b, .ok)
    | some ls => (sendSnoops ls b, .wait)
  else
    match writePhys (.unit uid) c pa d host b with
    | (b, .ok) => (b, .ok)
    | (b, .wait) => (b, .wait)
    | (b, .fail s) => (b, .fail s)

/-- A held line takes the bytes of a store. -/
def Line.store (l : Line) (off : Nat) (d : List PByte) (ctx : Nat) : Line :=
  { l with
    data := l.data.take off ++ d ++ l.data.drop (off + d.length)
    mask := (if l.dirty then l.mask else 0) ||| ((2 ^ d.length - 1) * 2 ^ off)
    dirty := true
    ecc := if d.length = 128 then 0 else l.ecc
    ctx := ctx }

/-- One store of pitch `p` through its metadata cache, within a line (R231). A unit's streaming detector counts its whole lines in
sequence, and after 8 of them they go straight to memory. A line that is not held is read first; a line that cannot be held, since
it is poisoned, is stored past the cache (DEDUCED, log 62). -/
def storeLine (p uid : Nat) (c : Cls) (pa : Nat) (host : Bool) (d : List PByte) (b : Blk) : Blk × Wr :=
  let key := lineKey (pa / 128 * 128) host
  let u := (b.unit? uid).getD default
  let run := if d.length ≠ 128 then 0 else if u.run = 0 ∨ key / 128 = u.runLine + 1 then u.run + 1 else 1
  let note (b : Blk) : Blk := b.modUnit uid (fun u => { u with run := run, runLine := key / 128 })
  if 8 < run then
    match storeThrough uid c pa host d b with
    | (b, .ok) =>
      let x := b.pitch p
      let b := match x.mdc.find key with
        | some (e, l) => b.setPitch p { x with mdc := { x.mdc with lines := Tbl.set x.mdc.lines e { l with data := d, dirty := false, ecc := 0 } } }
        | none => b
      (note (bump Ctr.mdStreamBypass c.ctx 1 b), .ok)
    | r => r
  else
    let b := mdcCheck p key b
    match (b.pitch p).mdc.find key with
    | some (_, l) =>
      let b := mdcInstall p (l.store (pa % 128) d c.ctx) b
      (note (b.modUnit uid (fun u => { u with dirty := if u.dirty.contains key then u.dirty else u.dirty ++ [key] })), .ok)
    | none =>
      match lineRead (.pitch p) (.unit uid) c (pa / 128 * 128) host false b with
      | (b, .ok _) => (b, .wait)
      | (b, .wait) => (b, .wait)
      | (b, .fail s) => (b, .fail s)
      | (b, .poisoned) =>
        match storeThrough uid c pa host d b with
        | (b, .ok) => (note b, .ok)
        | r => r

/-- Store pieces one after another: those already stored are passed over. -/
def storePieces (p uid : Nat) (c : Cls) : List (Nat × Bool × Bool × List PByte) → Blk → Blk × Wr
  | [], b => (b.modUnit uid (fun u => { u with stored := 0 }), .ok)
  | (pa, host, sh, d) :: t, b =>
    match (if b.obj Obj.mdcEn 0 = 0 then storeThrough uid (c.biased host sh) pa host d b
           else storeLine p uid (c.biased host sh) pa host d b) with
    | (b, .ok) => storePieces p uid c t (b.modUnit uid (fun u => { u with stored := u.stored + 1 }))
    | r => r

/-- Store the translated parts of a unit's output: through the metadata cache by lines, or, where it is disabled, to memory. -/
def storeParts (p uid : Nat) (c : Cls) (l : List ((Nat × Bool × Bool) × List PByte)) (b : Blk) : Blk × Wr :=
  let ps := if b.obj Obj.mdcEn 0 = 0 then l.map (fun e => (e.1.1, e.1.2.1, e.1.2.2, e.2))
    else l.flatMap (fun e => (linePieces e.1.1 e.2).map (fun x => (x.1, e.1.2.1, e.1.2.2, x.2)))
  storePieces p uid c (ps.drop (((b.unit? uid).map (·.stored)).getD 0)) b

/-- Write a unit's output from its pitch: no byte until every byte translates (R221). -/
def storeOut (p uid : Nat) (c : Cls) (va : Nat) (d : List PByte) (b : Blk) : Blk × Wr :=
  let ps := partsOf va d.length
  match wrTrans (.pitch p) (.unit uid) c ps b with
  | (b, .ok, l) => storeParts p uid c (l.zip (cutParts ps d)) b
  | (b, r, _) => (b, r)

/-- Several runs of output, all or none: a fault in any of them leaves every byte unwritten. -/
def storeAll (p uid : Nat) (c : Cls) (outs : List (Nat × List Byte)) (b : Blk) : Blk × Wr :=
  let ps := outs.map (fun o => (partsOf o.1 o.2.length, o.2.map (·, false)))
  match wrTrans (.pitch p) (.unit uid) c (ps.flatMap (·.1)) b with
  | (b, .ok, l) => storeParts p uid c (l.zip (ps.flatMap (fun e => cutParts e.1 e.2))) b
  | (b, r, _) => (b, r)

/-- Write back one dirty line of a unit's pitch, for the unit. -/
def writeBack (u : Unit) (key : Nat) (b : Blk) : Blk :=
  let x := b.pitch u.pitch
  match x.mdc.find key with
  | some (e, l) =>
    if l.dirty then
      let b := noteWriteback u.pitch l
        (b.setPitch u.pitch { x with mdc := { x.mdc with lines := Tbl.set x.mdc.lines e { l with dirty := false, ecc := if l.ecc = 1 then 0 else l.ecc } } })
      l.runs.foldl (fun b r =>
        if !keyHost key && b.isSelf (keyPa key) then portWrite (.unit u.uid) (paOff r.1) r.2 b
        else
          match writePhys (.unit u.uid) { ctx := l.ctx } r.1 r.2 (keyHost key) b with
          | (b, .fail s) => endUnit u.uid s b
          | (b, _) => b) b
    else b
  | none => b

/-- A line that a unit stored to is not in memory yet: it lies dirty in the cache or at the hint port, or a write of it is on its
way. -/
def linePending (b : Blk) (p key : Nat) : Bool :=
  let pa := keyPa key
  let meets (a n : Nat) : Bool := decide (a < pa + 128 ∧ pa < a + n)
  (match (b.pitch p).mdc.find key with
    | some (_, l) => l.dirty
    | none => false)
    || b.xlat.hints.any (fun h => h.dirty && h.addr == key)
    || (!keyHost key && b.isSelf pa && b.gs.writes.any (fun w => decide (w.2.1 < paOff pa + 128 ∧ paOff pa < w.2.1 + w.2.2.1.length)))
    || (!(!keyHost key && b.isSelf pa) && b.xlat.rwrites.any (fun w => meets w.addr 1))
    || (keyHost key && b.host.heldWrites.any (fun w => meets w.addr w.data.length))

/-- Write back the dirty lines that hold a unit's output, before it is committed (R231); the unit keeps those that are not yet in
memory, whoever wrote them back. -/
def flushUnit (u : Unit) (b : Blk) : Blk :=
  let b := u.dirty.foldl (fun b key => writeBack u key b) b
  b.modUnit u.uid (fun u => { u with dirty := u.dirty.filter (linePending b u.pitch) })

/-- Every byte of a unit's output is globally visible. -/
def outputVisible (b : Blk) (u : Unit) : Bool := u.dirty.isEmpty && b.writesDone (.unit u.uid)

/-- A pitch's cache takes the bytes of a store that goes straight to memory, in the lines it holds (R231). -/
def updateHeld (p : Nat) (c : Cls) (va : Nat) (d : List PByte) (b : Blk) : Blk :=
  if (b.pitch p).mdc.lines.isEmpty then b
  else
    ((partsOf va d.length).zip (cutParts (partsOf va d.length) d)).foldl (fun b e =>
      match (translate (.pitch p) (.mdc p) c e.1.1 false false b).2 with
      | .ok pa host _ _ _ =>
        (linePieces pa e.2).foldl (fun b x =>
          let m := (b.pitch p).mdc
          match m.find (lineKey (x.1 / 128 * 128) host) with
          | some (k, l) =>
            let off := x.1 % 128
            let l := { l with data := l.data.take off ++ x.2 ++ l.data.drop (off + x.2.length) }
            b.setPitch p { b.pitch p with mdc := { m with lines := Tbl.set m.lines k l } }
          | none => b) b
      | _ => b) b

/-- The writes of a unit that is about to leave count as its operator's. -/
def ownedBy (uid op : Nat) (b : Blk) : Blk :=
  { b with
    xlat := { b.xlat with rwrites := b.xlat.rwrites.map (fun w => if w.unit = .unit uid then { w with unit := .desc op } else w) }
    host := { b.host with heldWrites := b.host.heldWrites.map (fun w =>
      if w.unit = some (.unit uid) then { w with unit := some (.desc op) } else w) } }

/-- Set one bit of a mask of 64-bit words, written through at once (R106, R231). The descriptor zeroed the mask, so the byte that
holds the bit is made of the bits that it has set since. -/
def setMaskBit (p op uid : Nat) (c : Cls) (mask no : Nat) (b : Blk) : Blk × Wr :=
  let va := mask + no / 8
  let set := ((b.desc? op).bind Desc.run).elim [] (·.valid)
  let v := (no :: set).foldl (fun a k => if k / 8 = no / 8 then a ||| 2 ^ (k % 8) else a) 0
  let d : List PByte := [(BitVec.ofNat 8 v, false)]
  match wr (.pitch p) (.unit uid) c va d b with
  | (b, .ok) => (updateHeld p c va d (ownedBy uid op (modRun op (fun r => { r with valid := no :: r.valid }) b)), .ok)
  | r => r

/-- A unit is committed: it leaves the pitch, and its operator may be done. -/
def commitUnit (uid : Nat) (b : Blk) : Blk :=
  match b.unit? uid with
  | none => b
  | some u => finishOp u.op (modRun u.op (fun r => { r with finished := r.finished + 1 }) (dropUnits [uid] b))

/-- Answer a failed store. -/
def storeFailed (uid : Nat) (w : Wr) (b : Blk) : Blk :=
  match w with
  | .fail s => endUnit uid s b
  | .badMeta => failUnit uid b
  | .ok | .fault | .wait => b

/-- Write zero words over a mask, as the operator's first write (R106): the descriptor is then started. -/
def zeroMask (id mask units : Nat) (b : Blk) : Blk × Wr :=
  match b.desc? id with
  | none => (b, .wait)
  | some d =>
    if mask = 0 then (b, .ok)
    else
      let z : List PByte := List.replicate (8 * ceilDiv units 64) (0, false)
      match wr (.pitch 0) (.desc id) (clsOf b d.q) mask z b with
      | (b, .ok) => ((List.range b.pitchCount).foldl (fun b p => updateHeld p (clsOf b d.q) mask z b) b, .ok)
      | r => r

def execTileCommit (uid : Nat) (s : State) : Host.Outcome State Fault Refusal := fireReady true (effTileCommit uid) s

end Sys2Proof.Machine
end

