-- ==== Sys2Proof/Machine/Lookup.lean ====
section
/-! DEFINITION. LOOKUP: bags, fragments, homes and partials (R87 to R110). -/
namespace Sys2Proof.Machine

/-! ### The requester's state -/

/-- FP32 1.0. -/
def one32 : W32 := 0x3F800000#32

/-- The table of a bag: its segment's (R88). -/
def tabOfBag (r : UnitsRun) (no : Nat) : Captured :=
  let t := ((r.segs.find? (fun s => s.2.1 ≤ no && no < s.2.1 + s.2.2)).map (·.1)).getD 0
  (r.tabs.find? (fun c => c.table = t)).getD { table := t, bytes := [], slot := 0 }

/-- First index and length of a bag (R90). -/
def bagSpan (l : List Byte) (r : UnitsRun) (no : Nat) : Nat × Nat :=
  if field l 12 4 = 1 then (0, field l 16 4) else ((r.lens.take no).foldl (· + ·) 0, r.lens.getD no 0)

/-- Bytes of a weight element (R87). -/
def wtBytes (l : List Byte) : Nat := if (byteAt l 10).testBit 0 then 2 else 4

/-- Input tiles of the bags of a LOOKUP body, first index `start`. -/
def bagUnits (l : List Byte) (ixB : Nat) : Nat → Nat → List Nat → List NewUnit
  | _, _, [] => []
  | no, start, n :: t =>
    let ix := tilesOf (field l 48 8 + ixB * start) ixB n
    let wt := if field l 56 8 = 0 then [] else tilesOf (field l 56 8 + wtBytes l * start) (wtBytes l) n
    { no := no, need := interleave ix wt } :: bagUnits l ixB (no + 1) (start + n) t

/-- The bag lengths of a body. -/
def bagLens (l : List Byte) (r : UnitsRun) : List Nat := if field l 12 4 = 1 then [field l 16 4] else r.lens

/-- LOOKUP (R87, R91, R106): its mask is zeroed, which is its start, and its bags are handed out in groups of 64. -/
def effLookup (n : Nat) (b : Blk) : Blk :=
  match handedOf b n [0x10] with
  | none => b
  | some d =>
    match zeroMask d.id (d.f 72 8) (d.f 12 4) b with
    | (b, .ok) =>
      let r : UnitsRun := { d.pre with segs := d.segments, total := d.f 12 4 }
      let ixB := ixBytes (((r.tabs.find? (fun t => !t.bad)).map Captured.ixFmt).getD 0)
      let b := startWork d.id (.units r) (b.modDesc d.id (fun d => { d with started := true }))
      handAll d.id .bag (pieces 64 (bagUnits d.bytes ixB 0 0 (bagLens d.bytes r))) b
    | (b, .fail s) => completeWith d.id s 0 0 b
    | (b, .badMeta) => completeWith d.id .cancelled 0 0 b
    | (b, .fault) => b
    | (b, .wait) => b

/-! ### Fragments -/

/-- Remote fragments of a pitch that are out (R95). -/
def fragsOut (b : Blk) (p : Nat) : Nat :=
  (b.bags.filter (fun x => x.pitch = p)).foldl
    (fun a x => a + (x.frags.filter (fun f => f.vals.isNone && !(f.chip == b.ident.chip && f.die == b.ident.die))).length) 0

/-- Bags that a pitch has open (R95). -/
def bagsOpen (b : Blk) (p : Nat) : Nat := (b.bags.filter (fun x => x.pitch = p)).length

/-- Fragments waiting at a pitch. -/
def unsentCount (b : Blk) (p : Nat) : Nat :=
  (b.bags.filter (fun x => x.pitch = p)).foldl (fun a x => a + x.unsent.length) 0

/-- Either limit of R95 is reached: the pitch sends no further fragment and opens no further bag. -/
def pitchFull (b : Blk) (p : Nat) : Bool := decide (256 ≤ bagsOpen b p) || decide (2048 ≤ fragsOut b p)

/-- A pitch may open a bag: neither limit is reached, and no fragment of its open bags waits to be sent (R95). -/
def mayOpen (b : Blk) (p : Nat) : Bool := !(pitchFull b p) && unsentCount b p == 0

/-- The bag's class and the options that its requests carry: weighted, partial in BF16. -/
def bagOptions (d : Desc) : Bool × Bool :=
  if d.unitOp = 0x10 then (byteAt d.unitBody 8 == 2, (byteAt d.unitBody 10).testBit 1) else (true, false)

/-- The descriptor of a bag. -/
def bagDesc (b : Blk) (x : Bag) : Option Desc := b.desc? x.op

/-- The captured table of a bag. -/
def bagTab (d : Desc) (x : Bag) : Captured :=
  match d.run with
  | some r => (r.tabs.find? (fun c => c.table = x.tab)).getD { table := x.tab, bytes := [], slot := 0 }
  | none => { table := x.tab, bytes := [], slot := 0 }

/-- Send one remote fragment (R92, R93). -/
def sendFrag (x : Bag) (d : Desc) (chip die frag : Nat) (rows : List FragRow) (b : Blk) : Blk :=
  let c := clsOf b x.q
  let o := bagOptions d
  let t := bagTab d x
  let m : FragReqB := { ctx := c.ctx, weighted := o.1, bf16 := o.2, slot := t.slot, stream := if c.rt then c.stream else 0xFF,
                        table := x.tab, frag := frag, tag := x.tag % 2 ^ 32, srcChip := b.ident.chip, srcDie := b.ident.die,
                        srcPitch := x.pitch, rows := rows.map (·.row), weights := if o.1 then rows.map (·.w) else [] }
  let b := b.modBag x.tag (fun x => { x with frags := x.frags ++ [{ chip := chip, die := die, frag := frag }] })
  let b := if d.unitOp = 0x12 then bump Ctr.ltCornersRemote x.q rows.length b else b
  bump Ctr.lkFragsSent x.q 1 (watch chip (sendMsg chip die c (.fragReq m) b))

/-- Send the waiting fragments of a pitch while R95 allows. A home that cannot be reached ends the bag's unit (R108). -/
def sendUnsent (p : Nat) : Nat → Blk → Blk
  | 0, b => b
  | n + 1, b =>
    match bestBy (fun (x : Bag) => (b.q x.q).prio) (b.bags.filter (fun x => x.pitch = p && !x.unsent.isEmpty)) with
    | none => b
    | some x =>
      match x.unsent, bagDesc b x with
      | (chip, die, frag, rows) :: rest, some d =>
        match tryReach (b.q x.q).ctx chip die b with
        | (b, some s) => sendUnsent p n (endUnit x.unit s b)
        | (b, none) =>
          if pitchFull b p then b
          else sendUnsent p n (sendFrag x d chip die frag rows (b.modBag x.tag (fun x => { x with unsent := rest })))
      | _, _ => b

def sendAll (p : Nat) (b : Blk) : Blk := sendUnsent p (unsentCount b p + 1) b

/-- A fragment for the pitch itself to pool. -/
def localFrag (x : Bag) (d : Desc) (frag : Nat) (rows : List FragRow) (b : Blk) : Blk :=
  let c := clsOf b x.q
  let t := bagTab d x
  let f : Frag := { fid := b.nextUid, pitch := x.pitch, ctx := c.ctx, table := x.tab, slot := t.slot, fmt := t.fmt, dim := t.dim,
                    bf16 := (bagOptions d).2, rows := rows, acc := List.replicate t.dim 0, tag := x.tag, frag := frag, q := x.q,
                    rt := c.rt, stream := c.stream, corner := d.unitOp == 0x12 }
  let b := b.modBag x.tag (fun x =>
    { x with frags := x.frags ++ [{ chip := b.ident.chip, die := b.ident.die, frag := frag }] })
  { b with frags := b.frags ++ [f], nextUid := b.nextUid + 1 }

/-- Cut a part into the fragment that its rows make: the pitch's own, or one to send. -/
def cutPart (tag : Nat) (pt : Part) (b : Blk) : Blk :=
  match b.bags.find? (fun x => x.tag = tag) with
  | none => b
  | some x =>
    match bagDesc b x with
    | none => b
    | some d =>
      if pt.chip = b.ident.chip ∧ pt.die = b.ident.die then localFrag x d pt.nextFrag pt.rows b
      else b.modBag tag (fun x => { x with unsent := x.unsent ++ [(pt.chip, pt.die, pt.nextFrag, pt.rows)] })

/-- Add a row to the part of its home; a part of 64 rows is cut (R92). -/
def addRow (tag chip die : Nat) (r : FragRow) (b : Blk) : Blk :=
  match b.bags.find? (fun x => x.tag = tag) with
  | none => b
  | some x =>
    let old := (x.parts.find? (fun p => p.chip = chip && p.die = die)).getD { chip := chip, die := die, nextFrag := 0, rows := [] }
    let pt := { old with rows := old.rows ++ [r] }
    let full := pt.rows.length = 64
    let kept : Part := if full then { pt with nextFrag := pt.nextFrag + 1, rows := [] } else pt
    let parts := if x.parts.any (fun p => p.chip = chip && p.die = die)
      then x.parts.map (fun p => if p.chip = chip && p.die = die then kept else p)
      else x.parts ++ [kept]
    let b := b.modBag tag (fun x => { x with parts := parts })
    if full then cutPart tag pt b else b

/-- The bag's indices are exhausted: every part that holds rows is cut. -/
def closeBag (tag : Nat) (b : Blk) : Blk :=
  match b.bags.find? (fun x => x.tag = tag) with
  | none => b
  | some x =>
    let b := b.modBag tag (fun x => { x with parts := [], parsed := true })
    (x.parts.filter (fun p => !p.rows.isEmpty)).foldl (fun b p => cutPart tag p b) b

/-! ### Parsing -/

/-- How a valid row is served (R75, R79). -/
inductive Serve where
  | here (va : Nat) (src : RowSrc)
  | away (chip die : Nat)
  | wait
  | fault
  | fail (s : Status)
  | badMeta
deriving DecidableEq, Repr

/-- Resolve a row: this die's shard, a replica, or its home. -/
def serveRow (p uid : Nat) (c : Cls) (t : Captured) (row : Nat) (b : Blk) : Blk × Serve :=
  let h := homeOf t row
  match readChip (.pitch p) (.unit uid) c t h.pos b with
  | (b, .ok e) =>
    let chip := field (plain e) 0 2 % 16384
    if chip = b.ident.chip ∧ h.die = b.ident.die then (b, .here (rowAddr t t.slot h.lrow) .shard)
    else
      match probeReplica (.pitch p) (.unit uid) c t t.slot row b with
      | (b, .hit _, va) => (b, .here va .replica)
      | (b, .miss, _) => (b, .away chip h.die)
      | (b, .wait, _) => (b, .wait)
      | (b, .fault, _) => (b, .fault)
      | (b, .fail s, _) => (b, .fail s)
      | (b, .badMeta, _) => (b, .badMeta)
  | (b, .wait) => (b, .wait)
  | (b, .fault) => (b, .fault)
  | (b, .fail s) => (b, .fail s)
  | (b, .badMeta) => (b, .badMeta)

/-- Count a dropped index (R77). -/
def dropIndex (id q ctr : Nat) (b : Blk) : Blk :=
  bump ctr q 1 (b.modDesc id (fun d => { d with dropped := d.dropped + 1 }))

/-- The counter of a class that is dropped. -/
def IxClass.counter : IxClass → Option Nat
  | .missing => some Ctr.lkDropMissing
  | .negative => some Ctr.lkDropNegative
  | .range => some Ctr.lkDropRange
  | .valid _ => none

/-- Open the bag of a unit. -/
def openBag (u : Unit) (d : Desc) (tab : Nat) (b : Blk) : Blk :=
  if b.bags.any (fun x => x.tag = u.uid) then b
  else { b with bags := b.bags ++ [{ tag := u.uid, op := u.op, unit := u.uid, cell := 0, pitch := u.pitch, q := d.q, tab := tab }] }

/-- Priority of a descriptor's work: streams in ascending order, then batch (R38). -/
def opPrio (b : Blk) (op : Nat) : Nat :=
  match b.desc? op with
  | some d => (b.q d.q).prio
  | none => 8

/-- The queue of a descriptor. -/
def opQueue (b : Blk) (op : Nat) : Nat := ((b.desc? op).map (·.q)).getD 0

/-- A batch queue has its share of the round at an arbiter of a pitch still to come (R38). -/
def shareLeft (b : Blk) (p arb q : Nat) : Bool := decide ((b.pitch p).share.get 0 (256 * arb + q) < (b.q q).weight)

/-- The unit that an arbiter of a pitch serves (R38): streams in ascending order, then batch queues by weighted round robin, the
oldest unit first. -/
def nextUnit (b : Blk) (p arb : Nat) (l : List Unit) : Option Unit :=
  match bestBy (fun (u : Unit) => opPrio b u.op) l with
  | none => none
  | some u =>
    if opPrio b u.op < 8 then some u else some ((l.find? (fun v => shareLeft b p arb (opQueue b v.op))).getD u)

/-- A queue has been served at an arbiter of a pitch; a new round begins where its share was spent. -/
def serveQueue (p arb q : Nat) (b : Blk) : Blk :=
  let x := b.pitch p
  let k := 256 * arb + q
  if (b.q q).rt then b
  else if shareLeft b p arb q then b.setPitch p { x with share := addAt x.share k 1 }
  else b.setPitch p { x with share := Tbl.set (x.share.filter (fun e => e.1 / 256 ≠ arb)) k 1 }

/-- The next index of a bag moves on; after the last the bag is closed. -/
def advanceIndex (u : Unit) (len : Nat) (valid : Bool) (b : Blk) : Blk :=
  let b := serveQueue u.pitch 0 (opQueue b u.op) b
  let b := b.modUnit u.uid (fun u => { u with next := u.next + 1, nValid := u.nValid + boolNat valid })
  if u.next + 1 = len then closeBag u.uid b else b

/-- Take the next index of a bag, with its weight (R92). -/
def parseOne (u : Unit) (d : Desc) (r : UnitsRun) (b : Blk) : Blk :=
  let l := d.bytes
  let t := tabOfBag r u.no
  let sp := bagSpan l r u.no
  let ixB := ixBytes t.ixFmt
  let va := field l 48 8 + ixB * (sp.1 + u.next)
  let wB := wtBytes l
  let wva := field l 56 8 + wB * (sp.1 + u.next)
  let weighted := field l 56 8 ≠ 0
  if t.bad then failUnit u.uid b
  else
  match u.input va ixB, (if weighted then u.input wva wB else some []) with
  | some ix, some wt =>
    if anyPoison ix then failUnit u.uid (poisonRecord d u.pitch va b)
    else
      let ctx := (b.q d.q).ctx
      let b := openBag u d t.table b
      let cls := classify t (le (plain ix))
      match cls with
      | .valid row =>
        let wPoison := weighted && anyPoison wt
        let w : W32 := if !weighted then one32 else if wPoison then poisonNan
          else if wB = 2 then b16to32 (le (plain wt)) else BitVec.ofNat 32 (le (plain wt))
        match serveRow u.pitch u.uid (clsOf b d.q) t row b with
        | (b, .wait) => b
        | (b, .fault) => b
        | (b, .fail s) => endUnit u.uid s b
        | (b, .badMeta) => failUnit u.uid b
        | (b, .here va' src) =>
          let b := bump (match src with
            | .replica => Ctr.lkReplicaHits
            | _ => Ctr.lkLocalRows) d.q 1 (bump Ctr.lkIndices d.q 1 b)
          let b := if wPoison then poisonNans ctx 1 (poisonRecord d u.pitch wva b) else b
          let b := if t.sketch then sketchCount u.pitch t.table row b else b
          let b := addRow u.uid b.ident.chip b.ident.die { row := row, va := va', src := src, w := w } b
          sendAll u.pitch (advanceIndex u sp.2 true b)
        | (b, .away chip die) =>
          let b := bump Ctr.lkIndices d.q 1 b
          let b := if wPoison then poisonNans ctx 1 (poisonRecord d u.pitch wva b) else b
          let b := if t.sketch then sketchCount u.pitch t.table row b else b
          let b := addRow u.uid chip die { row := row, va := 0, src := .shard, w := w } b
          sendAll u.pitch (advanceIndex u sp.2 true b)
      | .missing => sendAll u.pitch (advanceIndex u sp.2 false (dropIndex d.id d.q Ctr.lkDropMissing (bump Ctr.lkIndices d.q 1 b)))
      | .negative => sendAll u.pitch (advanceIndex u sp.2 false (dropIndex d.id d.q Ctr.lkDropNegative (bump Ctr.lkIndices d.q 1 b)))
      | .range => sendAll u.pitch (advanceIndex u sp.2 false (dropIndex d.id d.q Ctr.lkDropRange (bump Ctr.lkIndices d.q 1 b)))
  | _, _ => b

/-- A bag of a LOOKUP whose next index is there to be taken. -/
def parseReady (b : Blk) (p : Nat) (u : Unit) : Bool :=
  match b.desc? u.op with
  | none => false
  | some d =>
    match d.work with
    | .units r =>
      let l := d.bytes
      let t := tabOfBag r u.no
      let sp := bagSpan l r u.no
      let ixB := ixBytes t.ixFmt
      d.opcode == 0x10 && u.pitch == p && !(b.isParked (.unit u.uid))
        && (t.bad || (decide (u.next < sp.2)
          && (u.input (field l 48 8 + ixB * (sp.1 + u.next)) ixB).isSome
          && (field l 56 8 == 0 || (u.input (field l 56 8 + wtBytes l * (sp.1 + u.next)) (wtBytes l)).isSome)
          && (b.bags.any (fun x => x.tag == u.uid) || mayOpen b p)))
    | _ => false

/-- INDEX_PARSE (R92). -/
def effIndexParse (p : Nat) (b : Blk) : Blk :=
  match nextUnit b p 0 (b.units.filter (parseReady b p)) with
  | none => sendAll p b
  | some u =>
    match b.desc? u.op with
    | some d =>
      match d.work with
      | .units r => parseOne u d r b
      | _ => b
    | none => b

/-! ### At the home -/

/-- Priority of a fragment. -/
def Frag.prio (f : Frag) : Nat := if f.rt then f.stream else 8

/-- Fragments in service at a pitch (R96): every one that the pitch holds, of its own bags too, and those whose descriptor is still
to be read (DESIGN CHOICE, log 84). -/
def inService (b : Blk) (p : Nat) : Nat := (b.frags.filter (fun f => f.pitch = p)).length

/-- The enabled pitch with the fewest fragments in service. -/
def leastServing (b : Blk) : Nat :=
  (List.range b.pitchCount).foldl (fun best p => if inService b p < inService b best then p else best) 0

/-- Send a partial to its requester, in the request's class (R94, R301). -/
def sendPartial (f : Frag) (q : FragReqB) (part status : Nat) (vals : List W32) (b : Blk) : Blk :=
  let m : PartialB := { status := status, bf16 := f.bf16, tag := q.tag, frag := q.frag, chip := b.ident.chip, die := b.ident.die,
                        vals := vals }
  let r : Rx := { msg := .partialV m, chip := q.srcChip, die := q.srcDie, via := .local, rt := f.rt, stream := f.stream, part := part }
  let b := bump Ctr.homeFrags f.ctx 1 b
  answer r (.partialV m) (if status = 0 then b else bump Ctr.homeFragsFailed f.ctx 1 b)

def dropFrag (fid : Nat) (b : Blk) : Blk := { b with frags := b.frags.filter (fun f => f.fid ≠ fid) }

/-- Class of a fragment's accesses. -/
def Frag.cls (f : Frag) : Cls := { rt := f.rt, stream := f.stream, ctx := f.ctx }

/-- Read the home's descriptor and resolve the fragment's rows (R96). -/
def resolveFrag (f : Frag) (b : Blk) : Blk :=
  match f.req with
  | none => b
  | some (q, part) =>
    let va := (ctxHdr b f.ctx).tableDir + 256 * f.table
    let gone (cause : Nat) (b : Blk) : Blk :=
      dropFrag f.fid (sendPartial f q part 2 []
        (raise { cause := cause, ctx := some f.ctx, unit := 2, inst := f.pitch,
                 detail := if cause = 0x12 then poisonSource f.cls va b else farAddr f.cls va b,
                 detail2 := if cause = 0x12 then va else 0 } b))
    match readTable (.pitch f.pitch) (.frag f.fid) f.cls f.table b with
    | (b, .ok l) =>
      let t : Captured := { table := f.table, bytes := plain l, slot := f.slot }
      if !t.shapeOk then dropFrag f.fid (sendPartial f q part 2 [] b)
      else if t.rowBase f.slot = 0 then dropFrag f.fid (sendPartial f q part 1 [] b)
      else
        let rows := (List.range q.rows.length).map (fun i =>
          let row := q.rows.getD i 0
          ({ row := row, va := rowAddr t f.slot (homeOf t row).lrow, src := .shard,
             w := if q.weighted then q.weights.getD i 0 else one32 } : FragRow))
        { b with frags := b.frags.map (fun g =>
            if g.fid = f.fid then { g with resolved := true, fmt := t.fmt, dim := t.dim, rows := rows,
                                           acc := List.replicate t.dim 0 } else g) }
    | (b, .badMeta) => gone 0x12 b
    | (b, .fail _) => gone 0x0E b
    | (b, .wait) => b
    | (b, .fault) => b

/-- A request leaves the port sack for the pitch with the fewest fragments in service. -/
def takeFrag (i : Nat) (r : Rx) (b : Blk) : Blk :=
  match r.msg with
  | .fragReq q =>
    let f : Frag := { fid := b.nextUid, pitch := leastServing b, ctx := q.ctx, table := q.table, slot := q.slot, fmt := 0,
                      dim := 0, bf16 := q.bf16, rows := [], acc := [], req := some (q, r.part), resolved := false,
                      tag := q.tag, frag := q.frag, rt := r.rt, stream := r.stream }
    let b := takeRx i r b
    resolveFrag f { b with frags := b.frags ++ [f], nextUid := b.nextUid + 1 }
  | _ => b

/-- FRAG_REQ (R96): the fragment of the best class (R38), one that still waits for its descriptor or the next of the port sack, is
given to a pitch and resolved. -/
def effFragReq (b : Blk) : Blk :=
  let wait := bestBy Frag.prio (b.frags.filter (fun f => !f.resolved && !(b.isParked (.frag f.fid))))
  let next := oldest b (fun r => match r.msg with
    | .fragReq _ => true
    | _ => false)
  match wait, next with
  | some f, none => resolveFrag f b
  | some f, some (i, r) => if r.prio < f.prio then takeFrag i r b else resolveFrag f b
  | none, some (i, r) => takeFrag i r b
  | none, none => b

/-! ### Rows -/

/-- Entries of the reuse buffer that a row takes (R98). -/
def winEnts (sectors : Nat) : Nat := ceilDiv sectors 4

/-- Drop the least recently used rows until the reuse buffer holds at most 512 entries; the window is kept newest first. -/
def trimWindow : Nat → List WinEnt → List WinEnt
  | _, [] => []
  | room, w :: t => if w.ents ≤ room then w :: trimWindow (room - w.ents) t else []

/-- What reading a row gives. -/
inductive RowRd where
  | ok (d : List PByte)
  | later
  | unit (s : Option Status)
  | far
deriving DecidableEq, Repr

/-- A row of a buffered level in the grid buffer (R117, R121). -/
def gridRow (x : Pitch) (f : Frag) (r : FragRow) (n : Nat) : Option (List PByte) :=
  (x.grid.find? (fun g => g.ctx = f.ctx && g.table = f.table && g.slot = f.slot && g.va ≤ r.va
      && r.va + n ≤ g.va + g.data.length)).map (fun g => (g.data.drop (r.va - g.va)).take n)

/-- A row through the dedup window (R98), or from the grid buffer. A row of a COPY region has the key of its address: the spec says
only that it is not the table's own (DESIGN CHOICE, log 85). A buffered level that has been invalidated since is loaded again
first (R121). -/
def readRow (f : Frag) (r : FragRow) (b : Blk) : Blk × RowRd :=
  let p := f.pitch
  let x := b.pitch p
  let n := rowBytes f.fmt f.dim
  let cp := if r.src == .copy then some r.va else none
  let hit (w : WinEnt) : Bool := w.ctx = f.ctx && w.table = f.table && w.slot = f.slot && w.row = r.row && w.copy = cp
  let corner (b : Blk) : Blk := if f.corner then bump Ctr.ltCornersLocal f.q 1 b else b
  if r.src == .grid then
    match gridRow x f r n with
    | some d => (bump Ctr.ltCornersBuffer f.q 1 b, .ok d)
    | none => (b, .later)
  else
  match x.window.find? hit with
  | some w =>
    let b := b.setPitch p { x with window := w :: x.window.filter (fun v => !hit v) }
    (corner (bump Ctr.lkDedupHits f.ctx 1 b), .ok w.data)
  | none =>
    let sp := sectorSpan 0 r.va n
    match rd (.pitch p) (.frag f.fid) f.cls sp.1 sp.2 b with
    | (b, .ok d) =>
      let k := sp.2 / 64
      let data := (d.drop (r.va - sp.1)).take n
      -- a poisoned sector poisons the whole row's elements (R389)
      let data := if anyPoison d then data.map (fun e => (e.1, true)) else data
      let b := charge 0x03 k (some f.ctx) (if f.req.isSome then none else some f.q)
        (bump Ctr.pwPitchSectors f.ctx k (if f.corner then corner b else bump Ctr.lkSectors f.ctx k b))
      let x := b.pitch p
      let w : WinEnt :=
        { ctx := f.ctx, table := f.table, slot := f.slot, row := r.row, copy := cp, data := data, ents := winEnts k }
      (b.setPitch p { x with window := trimWindow 512 (w :: x.window) }, .ok data)
    | (b, .fault) => (b, .later)
    | (b, .wait) => (b, .later)
    | (b, .fail _) => (b, .far)
    | (b, .badMeta) => (b, .unit none)

/-- Ascending (chip, die, fragment) (R102). -/
def FragOut.before (a c : FragOut) : Bool :=
  a.chip < c.chip || (a.chip == c.chip && (a.die < c.die || (a.die == c.die && a.frag ≤ c.frag)))

def insertFrag (x : FragOut) : List FragOut → List FragOut
  | [] => [x]
  | y :: t => if x.before y then x :: y :: t else y :: insertFrag x t

def sortFrags (l : List FragOut) : List FragOut := l.foldl (fun a x => insertFrag x a) []

/-- Combine the partials of a bag (R102). -/
def combineFrags (dim : Nat) (l : List FragOut) : List W32 :=
  (sortFrags l).foldl (fun v f => List.zipWith f32add v (f.vals.getD [])) (List.replicate dim 0)

/-- Points of a LATTICE group (R138). -/
def groupPoints (d : Desc) (u : Unit) : Nat := min 64 (field d.unitBody 12 4 - 64 * u.no)

/-- FP32 rounded to the BF16 or FP16 that a decoder works in, as FP32 (R136). -/
def decRound (fmt : Nat) (x : W32) : W32 := if fmt = 0 then b16to32 (f32toB16 x) else f16to32 (f32toF16 x)

/-- The encoding of one point: its levels' features in order (R119). -/
def encodingOf (levels : Nat) (u : Unit) (p : Nat) : List W32 :=
  (List.range levels).flatMap (fun l => ((u.cells.find? (fun c => c.1 = p * levels + l)).map (·.2)).getD [])

/-- Points of a group that were not dropped. -/
def livePoints (d : Desc) (u : Unit) : List Nat := (List.range (groupPoints d u)).filter (fun p => !u.drops.contains p)

/-- Every point of a group is encoded: it goes to its decoder, or to be written (R119, R136). -/
def groupDone (uid : Nat) (b : Blk) : Blk :=
  match b.unit? uid with
  | none => b
  | some u =>
    match b.desc? u.op with
    | none => b
    | some d =>
      match d.work with
      | .units r =>
        let n := r.levels.length
        if u.kind = .group ∧ u.stage = .input ∧ groupPoints d u * n ≤ u.next ∧ b.bags.any (fun x => x.unit = uid) = false then
          b.modUnit uid (fun u =>
            if r.decoder = [] then { u with stage := .combine }
            else { u with stage := .pass, next := 0,
                          cells := (livePoints d u).map (fun p =>
                            (p, (encodingOf n u p).map (decRound (byteAt r.decoder 1)))) })
        else b
      | _ => b

/-- A bag of a LATTICE whose fragments are all answered is blended (R118). -/
def cellDone (tag : Nat) (b : Blk) : Blk :=
  match b.bags.find? (fun x => x.tag = tag) with
  | none => b
  | some x =>
    match bagDesc b x with
    | none => b
    | some d =>
      if d.opcode = 0x12 ∧ x.parsed = true ∧ x.unsent = [] ∧ x.frags.all (fun f => f.vals.isSome) = true then
        let v := combineFrags (bagTab d x).dim x.frags
        let b := { b with bags := b.bags.filter (fun y => y.tag ≠ tag) }
        groupDone x.unit (b.modUnit x.unit (fun u => { u with cells := u.cells ++ [(x.cell, v)] }))
      else b

/-- Put the pooled values of a fragment where they belong: its bag, or a partial (R96, R102). -/
def fragDone (f : Frag) (vals : List W32) (b : Blk) : Blk :=
  let b := dropFrag f.fid b
  match f.req with
  | some (q, part) => sendPartial f q part 0 vals b
  | none =>
    cellDone f.tag (b.modBag f.tag (fun x => { x with frags := x.frags.map (fun g =>
      if g.chip = b.ident.chip && g.die = b.ident.die && g.frag = f.frag then { g with vals := some vals } else g) }))

/-- One row enters its fragment; the last one ends it (R100). -/
def poolInto (f : Frag) (r : FragRow) (v : RowVals) (b : Blk) : Blk :=
  let a := poolRow f.acc f.off r.w v
  if f.next + 1 = f.rows.length then fragDone f (poolEnd v.codes f.bf16 a.1 a.2) b
  else { b with frags := b.frags.map (fun g =>
    if g.fid = f.fid then { g with next := f.next + 1, acc := a.1, off := a.2 } else g) }

/-- POISON records of a row: against the requester's descriptor, or the request's context. -/
def rowPoison (f : Frag) (va : Nat) (cause : Nat) (b : Blk) : Blk :=
  let seq := match b.bags.find? (fun x => f.req.isNone && x.tag = f.tag) with
    | some x => ((b.desc? x.op).map Desc.seq).getD 0xFFFF
    | none => 0xFFFF
  raise { cause := cause, ctx := some f.ctx, queue := if f.req.isNone then some f.q else none, seq := seq, unit := 2,
          inst := f.pitch, detail := if cause = 0x12 then poisonSource f.cls va b else farAddr f.cls va b,
          detail2 := if cause = 0x12 then va else 0 } b

/-- SECTOR_RETURN (R98, R100): the next row of the pitch's first fragment. A fragment that parks is pooled again from its first
row (R97). -/
def effSectorReturn (p : Nat) (b : Blk) : Blk :=
  match bestBy Frag.prio (b.frags.filter (fun f => f.pitch = p && f.resolved && !(b.isParked (.frag f.fid)))) with
  | none => b
  | some f =>
    match f.rows[f.next]? with
    | none => fragDone f (poolEnd (f.fmt == 2 || f.fmt == 3) f.bf16 f.acc f.off) b
    | some r =>
      match readRow f r b with
      | (b, .ok d) =>
        let v := rowVals f.fmt f.dim d
        if anyPoison d then poolInto f r v (poisonNans f.ctx f.dim (rowPoison f r.va 0x12 b)) else poolInto f r v b
      | (b, .far) =>
        -- a row that cannot be reached enters as a poisoned one does (R96)
        poolInto f r (rowVals f.fmt f.dim [(0, true)]) (poisonNans f.ctx f.dim (rowPoison f r.va 0x0E b))
      | (b, .unit _) =>
        match f.req with
        | some _ => poolInto f r (rowVals f.fmt f.dim [(0, true)]) (poisonNans f.ctx f.dim (rowPoison f r.va 0x12 b))
        | none =>
          match b.bags.find? (fun x => x.tag = f.tag) with
          | some x => failUnit x.unit b
          | none => dropFrag f.fid b
      | (b, .later) =>
        if b.isParked (.frag f.fid) then
          { b with frags := b.frags.map (fun g =>
              if g.fid = f.fid then { g with next := 0, acc := List.replicate f.dim 0, off := 0 } else g) }
        else b

/-- PARTIAL (R102, R108): a partial of a failed, cancelled or late bag is discarded and counted; a second one for the same
fragment is discarded (R387). -/
def effPartialIn (b : Blk) : Blk :=
  match oldest b (fun r => match r.msg with
    | .partialV _ => true
    | _ => false) with
  | none => b
  | some (i, r) =>
    match r.msg with
    | .partialV m =>
      let b := heard r.chip (takeRx i r b)
      match b.bags.find? (fun x => x.tag % 2 ^ 32 = m.tag
          && x.frags.any (fun f => f.chip = m.chip && f.die = m.die && f.frag = m.frag && f.vals.isNone)) with
      | some x =>
        if m.status = 0 then
          sendAll x.pitch (cellDone x.tag (b.modBag x.tag (fun x => { x with frags := x.frags.map (fun f =>
            if f.chip = m.chip && f.die = m.die && f.frag = m.frag then { f with vals := some m.vals } else f) })))
        else
          -- the fragment has been answered: it is no orphan
          let b := b.modBag x.tag (fun x => { x with frags := x.frags.filter (fun f =>
            !(f.chip = m.chip && f.die = m.die && f.frag = m.frag)) })
          sendAll x.pitch (endUnit x.unit (if m.status = 1 then .tableBusy else .malformed) b)
      | none =>
        let mine (o : Orphan) : Bool := o.tag % 2 ^ 32 = m.tag && o.chip = m.chip && o.die = m.die && o.frag = m.frag
        match b.orphans.find? mine with
        | some o => bump Ctr.lkPartialsDiscarded o.q 1 { b with orphans := b.orphans.filter (fun o => !mine o) }
        | none => bump Ctr.sackItemsReplayed 0 1 b
    | _ => b

/-! ### Combining and output -/

/-- FP32 of a count, exact below 2^24. -/
def natTo32 (n : Nat) : W32 := intTo32 n

/-- E4M3 output of a vector: its scale and bytes (R105). -/
def e4m3Out (v : List W32) : W32 × List Byte :=
  let e := e4m3Exp v
  (pow2 e, v.map (fun x => e4m3Byte x e))

/-- Output bytes of a vector: FP32, BF16 or FP16 (R104, R119, R129). -/
def outVec (fmt : Nat) (v : List W32) : List Byte :=
  match fmt with
  | 0 => v.flatMap (fun x => toLe 4 x.toNat)
  | 1 => v.flatMap (fun x => toLe 2 (f32toB16 x))
  | _ => v.flatMap (fun x => toLe 2 (f32toF16 x))

/-- The output of a bag: address and bytes of its vector, and of its scale with FP8 (R103 to R106). -/
def bagOutput (d : Desc) (u : Unit) (dim : Nat) (fs : List FragOut) : List (Nat × List Byte) :=
  let l := d.bytes
  let v0 := if u.nValid = 0 then List.replicate dim 0 else combineFrags dim fs
  let v := if byteAt l 8 = 1 ∧ u.nValid ≠ 0 then v0.map (fun x => f32div x (natTo32 u.nValid)) else v0
  let va := field l 64 8 + u.no * field l 24 4
  if byteAt l 9 = 2 then
    let o := e4m3Out v
    [(va, o.2), (field l 80 8 + 4 * u.no, toLe 4 o.1.toNat)]
  else [(va, outVec (byteAt l 9) v)]

/-- Every index of the bag has been parsed and every fragment answered. -/
def bagReady (b : Blk) (d : Desc) (r : UnitsRun) (u : Unit) : Bool :=
  !(tabOfBag r u.no).bad && u.next == (bagSpan d.bytes r u.no).2
    && (match b.bags.find? (fun x => x.tag = u.uid) with
        | some x => x.unsent.isEmpty && x.frags.all (fun f => f.vals.isSome)
        | none => u.next == 0)

/-- BAG_COMMIT (R106): the bag's output is written, and once it is globally visible its valid bit is set. -/
def effBagCommit (uid : Nat) (b : Blk) : Blk :=
  match unitOf b uid with
  | none => b
  | some (u, d) =>
    match d.work with
    | .units r =>
      if d.opcode ≠ 0x10 ∨ b.isParked (.unit uid) = true then b
      else if u.stage = .write then
        let b := flushUnit u b
        let u := (b.unit? uid).getD u
        if outputVisible b u then
          match setMaskBit u.pitch u.op uid (clsOf b d.q) (d.f 72 8) u.no b with
          | (b, .ok) =>
            let b := bump Ctr.lkBagsValid d.q 1 b
            commitUnit uid (if u.nValid = 0 then bump Ctr.lkEmpty d.q 1 b else b)
          | (b, w) => storeFailed uid w b
        else b
      else if bagReady b d r u then
        let t := tabOfBag r u.no
        let fs := ((b.bags.find? (fun x => x.tag = uid)).map (·.frags)).getD []
        match storeAll u.pitch uid (clsOf b d.q) (bagOutput d u t.dim fs) b with
        | (b, .ok) => b.modUnit uid (fun u => { u with stage := .write })
        | (b, w) => storeFailed uid w b
      else b
    | _ => b

def execLookup (q : Nat) (s : State) : Host.Outcome State Fault Refusal := fireReady (q < 256) (effLookup q) s
def execIndexParse (p : Nat) (s : State) : Host.Outcome State Fault Refusal := fireReady (p < 32) (effIndexParse p) s
def execFragReq (s : State) : Host.Outcome State Fault Refusal := fireReady true effFragReq s
def execSectorReturn (p : Nat) (s : State) : Host.Outcome State Fault Refusal := fireReady (p < 32) (effSectorReturn p) s
def execPartialIn (s : State) : Host.Outcome State Fault Refusal := fireReady true effPartialIn s
def execBagCommit (uid : Nat) (s : State) : Host.Outcome State Fault Refusal := fireReady true (effBagCommit uid) s

end Sys2Proof.Machine
end

