-- ==== Sys2Proof/Machine/Lattice.lean ====
section
/-! DEFINITION. LATTICE: points, corners and weights (R111 to R119), and the grid buffers (R120, R121). -/
namespace Sys2Proof.Machine

/-! ### From a point to its corners (R114) -/

/-- Cell index and fraction on one axis. -/
def axisCell (c lo inv : W32) (res : Nat) : Nat × W32 :=
  let u0 := f32mul (f32sub c lo) inv
  let x := rd32 u0
  let u : W32 := if x.isNan then Config.clampNan [c, lo, inv]
    else if x.lt (Fp.ofInt 0) || x.isZero then 0 else if (Fp.ofInt 1).lt x then one32 else u0
  let p := f32mul u (intTo32 res)
  let i := min (rd32 p).floorInt.toNat (res - 1)
  (i, f32sub p (intTo32 i))

/-- The constants P1 to P4. -/
def hashP : List Nat := [1, 0x9B0F5A3D, 0x4E6A27C9, 0xC3D1E8B5]

/-- Entry of a DENSE level from its vertex. -/
def denseEntry (res : Nat) (v : List Nat) : Nat := v.foldr (fun x a => x + (res + 1) * a) 0

/-- Entry of a HASH level. -/
def hashEntry (t : Nat) (v : List Nat) : Nat :=
  (List.zipWith (fun x k => x * k % 2 ^ 32) v hashP).foldl (fun a x => a ^^^ x) 0 % 2 ^ 32 % t

/-- Corners of a point on a level, in ascending order: entry and weight. `l` is the LATTICE body, `e` the level entry, `rows`
its table's ROWS (R116). -/
def cornersOf (l e : List Byte) (rows : Nat) (c : List W32) : List (Nat × W32) :=
  let dims := byteAt l 8
  let res := field e 4 4
  let ax := (List.range dims).map (fun a =>
    axisCell (c.getD a 0) (BitVec.ofNat 32 (field l (64 + 4 * a) 4)) (BitVec.ofNat 32 (field l (80 + 4 * a) 4)) res)
  (List.range (2 ^ dims)).map (fun k =>
    let v := (List.range dims).map (fun a => (ax.getD a (0, 0)).1 + boolNat (k.testBit a))
    let g := (List.range dims).map (fun a =>
      let f := (ax.getD a (0, 0)).2
      if k.testBit a then f else f32sub one32 f)
    let w := (g.drop 1).foldl f32mul (g.headD 0)
    (if byteAt e 2 = 0 then denseEntry res v else hashEntry rows v, w))

/-- Weight of a corner: times LSCALE for an INT8 table (R118). -/
def cornerWeight (fmt : Nat) (e : List Byte) (w : W32) : W32 :=
  if fmt = 4 then w else f32mul w (BitVec.ofNat 32 (field e 8 4))

/-- Bytes of a coordinate (R111). -/
def coordBytes (l : List Byte) : Nat := if byteAt l 9 = 0 then 4 else 2

/-- Address of point p's coordinates. -/
def coordAddr (l : List Byte) (p : Nat) : Nat := field l 24 8 + p * field l 16 4

/-- Coordinates from their bytes; a poisoned one is the quiet NaN (R389). -/
def coordsOf (l : List Byte) (d : List PByte) : List W32 :=
  let s := coordBytes l
  (pieces s d).map (fun x =>
    if anyPoison x then poisonNan
    else if s = 4 then BitVec.ofNat 32 (le (plain x)) else f16to32 (le (plain x)))

/-- Input tiles of the coordinates of `n` points from point `p`. -/
def coordTiles (l : List Byte) (p n : Nat) : List (Nat × Nat) :=
  let w := byteAt l 8 * coordBytes l
  if field l 16 4 = w then tilesOf (coordAddr l p) w n
  else (List.range n).map (fun i => (coordAddr l (p + i), w))

/-- LATTICE (R111, R138): its mask is zeroed, and its groups of 64 points are handed out. -/
def effLattice (n : Nat) (b : Blk) : Blk :=
  match handedOf b n [0x12] with
  | none => b
  | some d =>
    let points := d.f 12 4
    let groups := ceilDiv points 64
    match zeroMask d.id (d.f 48 8) groups b with
    | (b, .ok) =>
      let b := startWork d.id (.units { d.pre with total := groups }) (b.modDesc d.id (fun d => { d with started := true }))
      handAll d.id .group ((List.range groups).map (fun g =>
        [{ no := g, need := coordTiles d.bytes (64 * g) (min 64 (points - 64 * g)) }])) b
    | (b, .fail s) => completeWith d.id s 0 0 b
    | (b, .badMeta) => completeWith d.id .cancelled 0 0 b
    | (b, .fault) => b
    | (b, .wait) => b

/-! ### The grid buffer -/

/-- The captured table of a level. -/
def levelTab (r : UnitsRun) (e : List Byte) : Captured :=
  (r.tabs.find? (fun c => c.table = field e 0 2 % 4096)).getD { table := field e 0 2 % 4096, bytes := [], slot := 0 }

/-- Where a level's entries lie: its COPY region, or the table's rows. -/
def levelBase (e : List Byte) (t : Captured) : Nat := if field e 16 8 = 0 then t.rowBase t.slot else field e 16 8

/-- The buffered levels of a LATTICE: context, table, slot, address and bytes identify each. -/
def bufferedLevels (ctx : Nat) (r : UnitsRun) : List (GridLevel × Nat) :=
  (r.levels.filter (fun e => (byteAt e 3).testBit 0)).map (fun e =>
    let t := levelTab r e
    ({ ctx := ctx, table := t.table, slot := t.slot, va := levelBase e t, data := [] }, t.rows * t.stride))

/-- The same contents. -/
def GridLevel.same (g h : GridLevel) : Bool := g.ctx = h.ctx && g.table = h.table && g.slot = h.slot && g.va = h.va

/-- Buffered levels that a pitch does not hold. -/
def missingLevels (b : Blk) (p ctx : Nat) (r : UnitsRun) : List (GridLevel × Nat) :=
  (bufferedLevels ctx r).filter (fun g => !((b.pitch p).grid.any (fun h => h.same g.1 && h.data.length == g.2)))

/-- A LATTICE group of pitch p that still has points to encode. -/
def encoding (b : Blk) (p : Nat) (u : Unit) : Bool :=
  match b.desc? u.op with
  | none => false
  | some d =>
    match d.work with
    | .units r => u.kind == .group && u.pitch == p && u.stage == .input && !(b.isParked (.unit u.uid))
        && decide (u.next < groupPoints d u * r.levels.length)
    | _ => false

/-- The group that the pitch's lattice unit serves (R38). -/
def latticeUnit (b : Blk) (p : Nat) : Option Unit :=
  nextUnit b p 1 (b.units.filter (encoding b p))

/-- The group whose levels the pitch's grid buffer is to hold: as `latticeUnit`, but a group goes on to need them until its last
point is blended (R121). -/
def gridUnit (b : Blk) (p : Nat) : Option Unit :=
  nextUnit b p 1 (b.units.filter (fun u =>
    u.kind == .group && u.pitch == p && u.stage == .input && !(b.isParked (.unit u.uid))))

/-- Load levels one after another; a level that cannot be read yet stops the load. -/
def loadLevels (p uid : Nat) (c : Cls) (d : Desc) : List (GridLevel × Nat) → Blk → Blk
  | [], b => b
  | (g, n) :: t, b =>
    match rd (.pitch p) (.unit uid) c g.va n b with
    | (b, .ok l) =>
      let i := takeInject 5 b
      let b := i.1
      let x := b.pitch p
      let b := b.setPitch p { x with grid := x.grid ++ [{ g with data := l, ecc := i.2 }] }
      let b := pitchSectors c.ctx d.q (sectorsOf g.va n) (bump Ctr.ltBufferLoads c.ctx 1 b)
      loadLevels p uid c d t b
    | (b, .fail s) => endUnit uid s b
    | (b, .badMeta) => failUnit uid b
    | (b, .fault) => b
    | (b, .wait) => b

/-- The levels that a pitch holds are read: a single-bit error is corrected, a level with a double-bit one is invalidated and
loaded again (R382). -/
def scrubGrid (p : Nat) (b : Blk) : Blk :=
  let x := b.pitch p
  let b := b.setPitch p { x with grid := (x.grid.filter (fun g => g.ecc ≠ 2)).map (fun g => { g with ecc := 0 }) }
  x.grid.foldl (fun b g =>
    if g.ecc = 2 then eccRecord 2 p 5 0 (some g.ctx) true b
    else if g.ecc = 1 then bump Ctr.eccCorrected 0 1 b else b) b

/-- GRID_BUFFER_LOAD (R121): only the levels that differ are loaded; those that the descriptor does not name make room. -/
def effGridBufferLoad (p : Nat) (b : Blk) : Blk :=
  let b := scrubGrid p b
  match gridUnit b p with
  | none => b
  | some u =>
    match b.desc? u.op with
    | none => b
    | some d =>
      match d.work with
      | .units r =>
        let c := clsOf b d.q
        let want := bufferedLevels c.ctx r
        if r.tabs.any (·.bad) then failUnit u.uid b
        else
        match missingLevels b p c.ctx r with
        | [] => b
        | miss =>
          let x := b.pitch p
          let b := b.setPitch p { x with grid := x.grid.filter (fun h => want.any (fun g => h.same g.1 && h.data.length == g.2)) }
          loadLevels p u.uid c d miss b
      | _ => b

/-! ### Points -/

/-- Where one corner is read (R117). -/
def serveCorner (p uid : Nat) (c : Cls) (e : List Byte) (t : Captured) (k : Nat) (b : Blk) : Blk × Serve :=
  if (byteAt e 3).testBit 0 then (b, .here (levelBase e t + k * t.stride) .grid)
  else if field e 16 8 ≠ 0 then (b, .here (field e 16 8 + k * t.stride) .copy)
  else serveRow p uid c t k b

/-- Resolve every corner before any of them is used. -/
def serveCorners (p uid : Nat) (c : Cls) (e : List Byte) (t : Captured) :
    List (Nat × W32) → Blk → Blk × Serve × List (Serve × Nat × W32)
  | [], b => (b, .here 0 .shard, [])
  | (k, w) :: rest, b =>
    match serveCorner p uid c e t k b with
    | (b, .here va src) =>
      match serveCorners p uid c e t rest b with
      | (b, r, l) => (b, r, (.here va src, k, w) :: l)
    | (b, .away chip die) =>
      match serveCorners p uid c e t rest b with
      | (b, r, l) => (b, r, (.away chip die, k, w) :: l)
    | (b, r) => (b, r, [])

/-- Put the corners of a (point, level) into its bag, in ascending order. -/
def takeCorners (tag : Nat) : List (Serve × Nat × W32) → Blk → Blk
  | [], b => b
  | (s, k, w) :: t, b =>
    takeCorners tag t (match s with
      | .here va src =>
        addRow tag b.ident.chip b.ident.die { row := k, va := va, src := src, w := w } b
      | .away chip die => addRow tag chip die { row := k, va := 0, src := .shard, w := w } b
      | .wait | .fault | .fail _ | .badMeta => b)

/-- A point with a NaN coordinate is dropped (R115). -/
def dropPoint (u : Unit) (d : Desc) (levels pt : Nat) (b : Blk) : Blk :=
  let b := b.modDesc d.id (fun d => { d with dropped := d.dropped + 1 })
  let b := serveQueue u.pitch 1 d.q (bump Ctr.ltPoints d.q 1 (bump Ctr.ltPointsDropped d.q 1 b))
  groupDone u.uid (b.modUnit u.uid (fun u => { u with next := u.next + levels, drops := u.drops ++ [pt] }))

/-- One (point, level): its corners are generated and sent to be read and blended (R114 to R118). -/
def encodeOne (u : Unit) (d : Desc) (r : UnitsRun) (b : Blk) : Blk :=
  let l := d.bytes
  let n := r.levels.length
  let pt := u.next / n
  let lev := u.next % n
  let w := byteAt l 8 * coordBytes l
  let va := coordAddr l (64 * u.no + pt)
  match u.input va w with
  | none => b
  | some bytes =>
    let cs := coordsOf l bytes
    let ctx := (b.q d.q).ctx
    if cs.any (fun c => (rd32 c).isNan) then
      let bad := (pieces (coordBytes l) bytes).filter (fun x => anyPoison x)
      let b := if bad.isEmpty then b else poisonNans ctx bad.length (poisonRecord d u.pitch va b)
      dropPoint u d n pt b
    else
      let e := r.levels.getD lev []
      let t := levelTab r e
      match serveCorners u.pitch u.uid (clsOf b d.q) e t (cornersOf l e t.rows cs) b with
      | (b, .here _ _, rows) =>
        let tag := b.nextUid
        let rows := rows.map (fun x => (x.1, x.2.1, cornerWeight t.fmt e x.2.2))
        let b := { b with
          nextUid := b.nextUid + 1
          bags := b.bags ++ [{ tag := tag, op := u.op, unit := u.uid, cell := u.next, pitch := u.pitch, q := d.q, tab := t.table }] }
        let b := takeCorners tag rows b
        let b := b.modUnit u.uid (fun u => { u with next := u.next + 1 })
        let b := serveQueue u.pitch 1 d.q (if lev + 1 = n then bump Ctr.ltPoints d.q 1 b else b)
        sendAll u.pitch (closeBag tag b)
      | (b, .fail s, _) => endUnit u.uid s b
      | (b, .badMeta, _) => failUnit u.uid b
      | (b, .away _ _, _) => b
      | (b, .wait, _) => b
      | (b, .fault, _) => b

/-- LATTICE_POINT (R114): the next (point, level) of the pitch's group, once its grid buffer holds the levels. -/
def effLatticePoint (p : Nat) (b : Blk) : Blk :=
  let b := scrubGrid p b
  match latticeUnit b p with
  | none => sendAll p b
  | some u =>
    match b.desc? u.op with
    | none => b
    | some d =>
      match d.work with
      | .units r =>
        if r.tabs.any (·.bad) then failUnit u.uid b
        else if mayOpen b p = true ∧ missingLevels b p (b.q d.q).ctx r = [] then encodeOne u d r b else sendAll p b
      | _ => b

def execLattice (q : Nat) (s : State) : Host.Outcome State Fault Refusal := fireReady (q < 256) (effLattice q) s
def execGridBufferLoad (p : Nat) (s : State) : Host.Outcome State Fault Refusal := fireReady (p < 32) (effGridBufferLoad p) s
def execLatticePoint (p : Nat) (s : State) : Host.Outcome State Fault Refusal := fireReady (p < 32) (effLatticePoint p) s

end Sys2Proof.Machine
end

