-- ==== Sys2Proof/Machine/Array.lean ====
section
/-! DEFINITION. The matrix array: ARRAY_RUN (R127 to R130), INTERACT (R131 to R133), decoders (R134 to R136), passes (R123 to
R126, R139) and the commit of their units (R130, R138). -/
namespace Sys2Proof.Machine

/-! ### Arithmetic of a column (R125) -/

/-- One level of the adder tree. -/
def pairUp : List W32 → List W32
  | a :: b :: t => f32add a b :: pairUp t
  | l => l

/-- Seven levels over 128 products. -/
def treeSum (l : List W32) : W32 := (pairUp (pairUp (pairUp (pairUp (pairUp (pairUp (pairUp l))))))).headD 0

/-- Fill an operand to 128 rows with +0. -/
def pad128 (l : List W32) : List W32 := (l ++ List.replicate 128 0).take 128

/-- The dot product of an operand row and a column of weights, in floating point. A product of a narrow format is exact
wherever FP32 can hold it (DEDUCED, log 16). -/
def dotF (a w : List W32) : W32 := treeSum (List.zipWith f32mul (pad128 a) (pad128 w))

/-- The same for INT8: exact. -/
def dotI (a w : List W32) : Int := (List.zipWith (fun (x y : W32) => x.toInt * y.toInt) a w).foldl (· + ·) 0

/-- One element of an input format, as FP32 or as a 32-bit integer; a poisoned one is the quiet NaN (R389). -/
def arrayElem (fmt : Nat) (x : List PByte) : W32 :=
  let v := le (plain x)
  if anyPoison x then poisonNan
  else match fmt with
    | 0 => e4m3to32 v
    | 1 => BitVec.ofInt 32 (signedOf 8 v)
    | 2 => b16to32 v
    | 3 => f16to32 v
    | _ => BitVec.ofNat 32 v

/-- The elements of a run of input. -/
def arrayElems (fmt : Nat) (d : List PByte) : List W32 := (pieces (inBytes fmt) d).map (arrayElem fmt)

/-- The elements of a run of a unit's input; none there reads as nothing. -/
def Unit.elems (u : Unit) (fmt : Nat) (r : Nat × Nat) : List W32 := arrayElems fmt ((u.input r.1 r.2).getD [])

/-- Turn `n` lists over. -/
def transposed (n : Nat) (l : List (List W32)) : List (List W32) := (List.range n).map (fun i => l.map (fun r => r.getD i 0))

/-! ### ARRAY_RUN -/

/-- An ARRAY_RUN body's fields. -/
structure RunB where
  inf : Nat
  out : Nat
  flags : Nat
  m : Nat
  n : Nat
  k : Nat
  a : Nat
  b : Nat
  c : Nat
  lda : Nat
  ldb : Nat
  ldc : Nat
  scale : W32
  bias : Nat
  mask : Nat
deriving DecidableEq, Repr, Inhabited

def runBody (l : List Byte) : RunB :=
  { inf := byteAt l 8, out := byteAt l 9, flags := byteAt l 10, m := field l 12 4, n := field l 16 4, k := field l 20 4,
    a := field l 24 8, b := field l 32 8, c := field l 40 8, lda := field l 48 4, ldb := field l 52 4, ldc := field l 56 4,
    scale := BitVec.ofNat 32 (field l 60 4), bias := field l 64 8, mask := field l 72 8 }

def RunB.aTrans (r : RunB) : Bool := r.flags.testBit 0
def RunB.bTrans (r : RunB) : Bool := r.flags.testBit 1
def RunB.cTrans (r : RunB) : Bool := r.flags.testBit 2
def RunB.accum (r : RunB) : Bool := r.flags.testBit 3
def RunB.relu (r : RunB) : Bool := r.flags.testBit 4
def RunB.outSize (r : RunB) : Nat := if r.out = 0 ∨ r.out = 3 then 4 else 2
/-- Blocks across C, and units in all (R130). -/
def RunB.across (r : RunB) : Nat := ceilDiv r.n 64
def RunB.units (r : RunB) : Nat := ceilDiv r.m 128 * r.across
/-- First row, rows, first column and columns of a unit. -/
def RunB.row0 (r : RunB) (u : Nat) : Nat := 128 * (u / r.across)
def RunB.nRows (r : RunB) (u : Nat) : Nat := min 128 (r.m - r.row0 u)
def RunB.col0 (r : RunB) (u : Nat) : Nat := 64 * (u % r.across)
def RunB.nCols (r : RunB) (u : Nat) : Nat := min 64 (r.n - r.col0 u)
/-- Depth of K panel i, and passes. -/
def RunB.depth (r : RunB) (i : Nat) : Nat := min 128 (r.k - 128 * i)
def RunB.passes (r : RunB) : Nat := ceilDiv r.k 128

/-- `n` runs of `len` elements of `s` bytes, `ld` bytes apart. -/
def runsOf (base ld s n len : Nat) : List (Nat × Nat) := (List.range n).map (fun i => (base + i * ld, len * s))

/-- The operand rows of a pass: contiguous runs of A. -/
def RunB.aRuns (r : RunB) (u i : Nat) : List (Nat × Nat) :=
  let s := inBytes r.inf
  if r.aTrans then runsOf (r.a + 128 * i * r.lda + r.row0 u * s) r.lda s (r.depth i) (r.nRows u)
  else runsOf (r.a + r.row0 u * r.lda + 128 * i * s) r.lda s (r.nRows u) (r.depth i)

/-- The weights of a pass: contiguous runs of B. -/
def RunB.bRuns (r : RunB) (u i : Nat) : List (Nat × Nat) :=
  let s := inBytes r.inf
  if r.bTrans then runsOf (r.b + r.col0 u * r.ldb + 128 * i * s) r.ldb s (r.nCols u) (r.depth i)
  else runsOf (r.b + 128 * i * r.ldb + r.col0 u * s) r.ldb s (r.depth i) (r.nCols u)

/-- A unit's place in C, as contiguous runs. -/
def RunB.cRuns (r : RunB) (u : Nat) : List (Nat × Nat) :=
  let s := r.outSize
  if r.cTrans then runsOf (r.c + r.col0 u * r.ldc + r.row0 u * s) r.ldc s (r.nCols u) (r.nRows u)
  else runsOf (r.c + r.row0 u * r.ldc + r.col0 u * s) r.ldc s (r.nRows u) (r.nCols u)

/-- The biases of a unit's columns. -/
def RunB.biasRun (r : RunB) (u : Nat) : List (Nat × Nat) :=
  if r.bias = 0 then [] else [(r.bias + 4 * r.col0 u, 4 * r.nCols u)]

/-- What a unit reads for pass i: C with the first when it accumulates, the biases with the last. -/
def RunB.passNeed (r : RunB) (u i : Nat) : List (Nat × Nat) :=
  interleave (r.aRuns u i) (r.bRuns u i) ++ (if i = 0 ∧ r.accum = true then r.cRuns u else [])
    ++ (if i + 1 = r.passes then r.biasRun u else [])

/-- C's elements as FP32, or as INT32. -/
def outElem (out : Nat) (x : List PByte) : W32 :=
  let v := le (plain x)
  if anyPoison x then poisonNan
  else match out with
    | 1 => b16to32 v
    | 2 => f16to32 v
    | _ => BitVec.ofNat 32 v

/-- Accumulators at the start, row by row (R129). -/
def RunB.startAcc (r : RunB) (u : Unit) : List W32 :=
  if r.accum then
    let ls := (r.cRuns u.no).map (fun x => (pieces r.outSize ((u.input x.1 x.2).getD [])).map (outElem r.out))
    (if r.cTrans then transposed (r.nRows u.no) ls else ls).flatten
  else List.replicate (r.nRows u.no * r.nCols u.no) 0

/-- Operand rows of a pass. -/
def RunB.operands (r : RunB) (u : Unit) (i : Nat) : List (List W32) :=
  let ls := (r.aRuns u.no i).map (u.elems r.inf)
  if r.aTrans then transposed (r.nRows u.no) ls else ls

/-- Weight columns of a pass, one after another: what the shadow holds. -/
def RunB.panel (r : RunB) (u : Unit) (i : Nat) : List W32 :=
  let ls := (r.bRuns u.no i).map (u.elems r.inf)
  (if r.bTrans then ls else transposed (r.nCols u.no) ls).flatten

/-- ARRAY_RUN (R127, R130): its mask is zeroed, and its units are handed out in groups of 8. -/
def effArrayRun (n : Nat) (b : Blk) : Blk :=
  match handedOf b n [0x13] with
  | none => b
  | some d =>
    let r := runBody d.bytes
    match zeroMask d.id r.mask r.units b with
    | (b, .ok) =>
      let b := startWork d.id (.units { d.pre with total := r.units }) (b.modDesc d.id (fun d => { d with started := true }))
      handAll d.id .block (pieces 8 ((List.range r.units).map (fun u =>
        { no := u, need := (List.range r.passes).flatMap (r.passNeed u) }))) b
    | (b, .fail s) => completeWith d.id s 0 0 b
    | (b, .badMeta) => completeWith d.id .cancelled 0 0 b
    | (b, .fault) => b
    | (b, .wait) => b

/-! ### INTERACT -/

/-- INTERACT (R131, R133): a unit is one sample; its offsets are its first input. Samples are handed out in groups of 8 as
R130's units are (DEDUCED, log 17). -/
def effInteract (n : Nat) (b : Blk) : Blk :=
  match handedOf b n [0x11] with
  | none => b
  | some d =>
    let samples := d.f 16 4
    match zeroMask d.id (d.f 56 8) samples b with
    | (b, .ok) =>
      let b := startWork d.id (.units { d.pre with total := samples }) (b.modDesc d.id (fun d => { d with started := true }))
      handAll d.id .sample (pieces 8 ((List.range samples).map (fun s =>
        { no := s, need := [(d.f 32 8, 8 * d.f 12 2)] }))) b
    | (b, .fail s) => completeWith d.id s 0 0 b
    | (b, .badMeta) => completeWith d.id .cancelled 0 0 b
    | (b, .fault) => b
    | (b, .wait) => b

/-- The array's input format of an INTERACT: BF16 or FP32. -/
def sampleFmt (d : Desc) : Nat := if d.f 8 1 = 0 then 4 else 2

/-- The sample's vectors. -/
def sampleVecs (d : Desc) (u : Unit) : List (List W32) := (sampleRuns d u).map (u.elems (sampleFmt d))

/-- Halves of 64 columns, and passes (R133). -/
def sampleHalves (d : Desc) : Nat := ceilDiv (d.f 12 2) 64
def samplePasses (d : Desc) : Nat := ceilDiv (d.f 14 2) 128 * sampleHalves d

/-- Elements of K panel k of a vector. -/
def panelPart (k : Nat) (v : List W32) : List W32 := (v.drop (128 * k)).take 128

/-! ### Passes -/

/-- Passes of a block or sample. -/
def unitPasses (d : Desc) (u : Unit) : Nat := if u.kind = .block then (runBody d.bytes).passes else samplePasses d

/-- The tiles of a block's pass i are all there. -/
def RunB.here (r : RunB) (u : Unit) (i : Nat) : Bool := (r.passNeed u.no i).all (fun x => (u.input x.1 x.2).isSome)

/-- A unit of pitch p whose next pass has its operands. -/
def passReady (b : Blk) (p : Nat) (u : Unit) : Bool :=
  match b.desc? u.op with
  | none => false
  | some d =>
    u.pitch == p && !(b.isParked (.unit u.uid))
      && (match u.kind with
          | .block => u.stage == .input && decide (u.next < unitPasses d u) && (runBody d.bytes).here u u.next
          | .sample => u.stage == .input && u.need == [] && u.opened && decide (u.next < unitPasses d u)
          | .group => u.stage == .pass
          | .bag | .scatter => false)

/-- Poisoned input of a sample, or of the next pass of a block, by run: address and elements (R389). -/
def badInput (d : Desc) (u : Unit) : List (Nat × Nat) :=
  let r := runBody d.bytes
  let now (h : Nat × List PByte) : Bool := u.kind = .sample || (r.passNeed u.no u.next).any (fun x => x.1 = h.1 && x.2 = h.2.length)
  (u.have_.filter (fun h => anyPoison h.2 && now h)).map (fun h =>
    let s := if u.kind = .sample then inBytes (sampleFmt d)
      else if (r.cRuns u.no).any (fun x => x.1 = h.1) then r.outSize
      else if (r.biasRun u.no).any (fun x => x.1 = h.1) then 4 else inBytes r.inf
    (h.1, ((pieces s h.2).filter anyPoison).length))

/-- Note poisoned operands, once each: they enter as NaNs. -/
def notePoison (d : Desc) (u : Unit) (b : Blk) : Blk :=
  (badInput d u).foldl (fun b e => poisonNans (b.q d.q).ctx e.2 (poisonRecord d u.pitch e.1 b)) b

/-- Rounded INT32 addition (R129): the sum, and whether it saturated. -/
def satAdd (a : W32) (x : Int) : W32 × Bool :=
  let s := a.toInt + x
  (BitVec.ofInt 32 (clampTo 32 s), !(fitsIn 32 s))

/-- Accumulators after a pass over columns c0 to c0 + n − 1 of `width`, and the elements that saturated. -/
def passAcc (int : Bool) (rows : List (List W32)) (panel : List W32) (depth c0 n width : Nat) (acc : List W32) :
    List W32 × List Nat :=
  let cols := (List.range n).map (fun j => (panel.drop (j * depth)).take depth)
  let es := (acc.zip (List.range acc.length)).map (fun (e : W32 × Nat) =>
    let j := e.2 % width
    if c0 ≤ j ∧ j < c0 + n then
      let a := rows.getD (e.2 / width) []
      let w := cols.getD (j - c0) []
      if int then
        let s := satAdd e.1 (dotI a w)
        (s.1, if s.2 then [e.2] else [])
      else (f32add e.1 (dotF a w), [])
    else (e.1, []))
  (es.map (·.1), es.flatMap (·.2))

/-- ARRAY cycles that `rows` operand rows of a format take (R123). -/
def slotCycles (fmt rows : Nat) : Nat := rows * (if fmt < 2 then 1 else if fmt < 4 then 2 else 8)

/-- A pass is complete: its cycles, its count and their energy (R141, R350, R354). -/
def passDone (p ctx q cycles : Nat) (b : Blk) : Blk :=
  let b := serveQueue p 2 q b
  let x := b.pitch p
  let b := b.setPitch p { x with arr := { x.arr with lastPass := b.clk.pitch } }
  charge 0 cycles (some ctx) (some q) (charge 2 1 (some ctx) (some q)
    (bump Ctr.pwArrayCycles ctx cycles (bump Ctr.arPasses ctx 1 b)))

/-- `n` passes of `rows` FP32 rows each for a STEP or a PRECOND, one after another from pitch `p`: each array that serves one holds no
other operator's weights any more (R134, R139, R141). How a Gram matrix, a solve or a factorisation falls into passes, and on
which pitches, is not stated (DESIGN CHOICE, log 87). -/
def ownPasses (ctx q p n rows : Nat) (b : Blk) : Blk :=
  (List.range n).foldl (fun b i =>
    let k := (p + i) % max 1 b.pitchCount
    let x := b.pitch k
    let b := b.setPitch k { x with arr := { x.arr with active := none, shadow := none, filling := none, decoder := none } }
    passDone k ctx q (slotCycles 4 rows) b) b

/-- A unit goes back to its first operand row or first point: what it has fetched stays in its sack, and what it has under way is
dropped (R140, R223). -/
def restartUnit (uid : Nat) (b : Blk) : Blk :=
  match b.unit? uid with
  | none => b
  | some u =>
    if u.kind = .bag ∨ u.kind = .scatter ∨ u.stage = .combine ∨ u.stage = .write ∨ u.stage = .done then b
    else
      let tags := (b.bags.filter (fun x => x.unit = uid)).map (·.tag)
      let gone (k : UnitRef) : Bool :=
        match k with
        | .frag fid => b.frags.any (fun f => f.fid = fid && f.req.isNone && tags.contains f.tag)
        | _ => false
      let back (x : Unit) : Unit :=
        { x with next := 0, cells := [], acc := [], drops := [], sat := false, stage := .input }
      let b := if u.kind = .group then b.modDesc u.op (fun d => { d with dropped := d.dropped - u.drops.length }) else b
      { b.modUnit uid back with
        bags := b.bags.filter (fun x => x.unit ≠ uid)
        frags := b.frags.filter (fun f => !(f.req.isNone && tags.contains f.tag))
        orphans := b.orphans ++ (b.bags.filter (fun x => x.unit = uid)).flatMap (bagOrphans b)
        xlat := { b.xlat with
          parked := b.xlat.parked.filter (fun k => !(gone k.unit))
          held := b.xlat.held.filter (fun h => !(gone h.1))
          rreads := b.xlat.rreads.filter (fun r => !(gone r.unit)) } }

/-- Another operator's pass goes before queue `q`'s work on a pitch's array (R38, R139). -/
def arrayYields (b : Blk) (p q : Nat) : Bool :=
  let l := b.units.filter (passReady b p)
  l.any (fun u => opPrio b u.op < (b.q q).prio)
    || (!((b.q q).rt) && !(shareLeft b p 2 q) && l.any (fun u => shareLeft b p 2 (opQueue b u.op)))

/-- Weights in the active buffer. -/
def activePanel (b : Blk) (p : Nat) (k : PanelKey) : Option (List W32) :=
  match (b.pitch p).arr.active with
  | some (key, w) => if key = k then some w else none
  | none => none

/-- One pass of a block (R125, R129). -/
def blockPass (u : Unit) (d : Desc) (w : List W32) (b : Blk) : Blk :=
  let r := runBody d.bytes
  let i := u.next
  let acc := if i = 0 then r.startAcc u else u.acc
  let a := passAcc (r.inf == 1) (r.operands u i) w (r.depth i) 0 (r.nCols u.no) (r.nCols u.no) acc
  let last := i + 1 = r.passes
  let b := b.modUnit u.uid (fun u =>
    { u with acc := a.1, drops := (u.drops ++ a.2).eraseDups, next := i + 1, stage := if last then .combine else .input })
  passDone u.pitch (b.q d.q).ctx d.q (slotCycles r.inf (r.nRows u.no)) b

/-- One pass of a sample: every feature against half of them, over one K panel (R133). -/
def samplePass (u : Unit) (d : Desc) (w : List W32) (b : Blk) : Blk :=
  let f := d.f 12 2
  let i := u.next
  let k := i / sampleHalves d
  let c0 := 64 * (i % sampleHalves d)
  let n := min 64 (f - c0)
  let acc := if i = 0 then List.replicate (f * f) 0 else u.acc
  let a := passAcc false ((sampleVecs d u).map (panelPart k)) w (min 128 (d.f 14 2 - 128 * k)) c0 n f acc
  let b := b.modUnit u.uid (fun u =>
    { u with acc := a.1, next := i + 1, stage := if i + 1 = samplePasses d then .combine else .input })
  passDone u.pitch (b.q d.q).ctx d.q (slotCycles (sampleFmt d) f) b

/-- The weights of a sample's pass. -/
def samplePanel (d : Desc) (u : Unit) : List W32 :=
  let f := d.f 12 2
  let k := u.next / sampleHalves d
  let c0 := 64 * (u.next % sampleHalves d)
  ((((sampleVecs d u).drop c0).take (min 64 (f - c0))).map (panelPart k)).flatten

/-! ### Decoders -/

/-- Input width of layer l of a decoder record; E is the encoding's (R135). -/
def layerIn (r : List Byte) (e l : Nat) : Nat := if l = 0 then e else byteAt r (3 + l)
def layerOut (r : List Byte) (l : Nat) : Nat := byteAt r (4 + l)

/-- Bytes of a layer's weights, up to the biases, and of its whole block. -/
def layerWeightBytes (r : List Byte) (e l : Nat) : Nat := up16 (2 * (layerIn r e l * layerOut r l))
def layerBytes (r : List Byte) (e l : Nat) : Nat := layerWeightBytes r e l + 4 * layerOut r l

/-- A layer's weights, column by column, and its biases. -/
def layerValues (r : List Byte) (e l : Nat) (d : List PByte) : List W32 :=
  let w := layerOut r l
  let rows := (pieces w (arrayElems (if byteAt r 1 = 0 then 2 else 3) (d.take (2 * (layerIn r e l * w)))))
  (transposed w rows).flatten ++ arrayElems 4 ((d.drop (layerWeightBytes r e l)).take (4 * w))

/-- Elements of a layer that touch poison (R389). -/
def layerPoison (r : List Byte) (e l : Nat) (d : List PByte) : Nat :=
  ((pieces 2 (d.take (2 * (layerIn r e l * layerOut r l)))).filter anyPoison).length
    + ((pieces 4 ((d.drop (layerWeightBytes r e l)).take (4 * layerOut r l))).filter anyPoison).length

/-- Read the layers of a decoder, in order. -/
def loadLayers (u : Unit) (d : Desc) (r : List Byte) (e : Nat) : Nat → Blk → Blk × Rd × List W32
  | 0, b => (b, .ok [], [])
  | n + 1, b =>
    let l := byteAt r 0 - (n + 1)
    match rd (.pitch u.pitch) (.unit u.uid) (clsOf b d.q) (field r (16 + 8 * l) 8) (layerBytes r e l) b with
    | (b, .ok x) =>
      let b := if anyPoison x then
          poisonNans (b.q d.q).ctx (layerPoison r e l x) (poisonRecord d u.pitch (field r (16 + 8 * l) 8) b) else b
      let b := pitchSectors (b.q d.q).ctx d.q (sectorsOf (field r (16 + 8 * l) 8) (layerBytes r e l)) b
      match loadLayers u d r e n b with
      | (b, y, w) => (b, y, layerValues r e l x ++ w)
    | (b, y) => (b, y, [])

/-- Key of a decoder's weights. -/
def decoderKey (op : Nat) : PanelKey := { op := op, unit := 0, pass := 0 }

/-- Load a decoder into both weight buffers (R134); the cycles that its pass waited for it are bubbles (R124). -/
def decoderLoad (u : Unit) (d : Desc) (r : List Byte) (e : Nat) (b : Blk) : Blk :=
  match loadLayers u d r e (byteAt r 0) b with
  | (b, .ok _, w) =>
    let x := b.pitch u.pitch
    let ctx := (b.q d.q).ctx
    let n := b.clk.pitch - x.arr.fillAsked
    charge 1 n (some ctx) (some d.q) (bump Ctr.arBubbles ctx n
      (bump Ctr.arDecoderLoads ctx 1 (b.setPitch u.pitch
        { x with arr := { x.arr with active := some (decoderKey d.id, w), shadow := none, filling := none,
                                     decoder := some d.id } })))
  | (b, .fail s, _) => endUnit u.uid s b
  | (b, .badMeta, _) => failUnit u.uid b
  | (b, .fault, _) => b
  | (b, .wait, _) => b

/-- RELU (R129): +0 unless greater than zero; a NaN stays. -/
def relu (x : W32) : W32 := if (rd32 x).isNan || (Fp.ofInt 0).lt (rd32 x) then x else 0

/-- One layer on one point (R136). -/
def layerPoint (r : List Byte) (l kIn out : Nat) (ws : List W32) (a : List W32) : List W32 :=
  let w := layerOut r l
  (List.range w).map (fun j =>
    let v := f32add (f32add 0 (dotF a ((ws.drop (j * kIn)).take kIn))) (ws.getD (w * kIn + j) 0)
    let v := if (byteAt r 2).testBit l then relu v else v
    if l + 1 < byteAt r 0 then decRound (byteAt r 1) v
    else match out with
      | 0 => v
      | 1 => decRound 0 v
      | _ => decRound 1 v)

/-- A decoder pass: one layer over one group (R139). A point that R115 drops takes no slot (DESIGN CHOICE, log 88). -/
def decoderPass (u : Unit) (d : Desc) (r : List Byte) (e : Nat) (w : List W32) (b : Blk) : Blk :=
  let l := u.next
  let skip := (List.range l).foldl (fun a i => a + (layerIn r e i + 1) * layerOut r i) 0
  let b := b.modUnit u.uid (fun u =>
    { u with cells := u.cells.map (fun c => (c.1, layerPoint r l (layerIn r e l) (d.f 10 1) (w.drop skip) c.2)),
             next := l + 1, stage := if l + 1 = byteAt r 0 then .combine else .pass })
  passDone u.pitch (b.q d.q).ctx d.q (slotCycles 2 (livePoints d u).length) b

/-! ### The events -/

/-- The array's own ramp restarts when it has been idle for 256 ARRAY cycles (R341). -/
def idleRamp (p : Nat) (b : Blk) : Blk :=
  let x := b.pitch p
  if x.arr.ramp == .full && decide (x.arr.lastPass + 256 ≤ b.clk.pitch) then
    bump Ctr.pwSoftStarts 0 1 (b.setPitch p { x with arr := { x.arr with ramp := .quarter, rampAt := b.clk.pitch } })
  else b

/-- A pass asks for its panel, or for its decoder's weights: active, or in the shadow, or to be filled (R124, R134, R139). -/
def seatPanel (p : Nat) (k : PanelKey) (b : Blk) : Blk :=
  let x := b.pitch p
  match x.arr.active, x.arr.shadow with
  | some (a, _), none => if a = k then b else fillPanel x b
  | some (a, _), some (s, w) =>
    if a = k then b
    else if s = k then b.setPitch p { x with arr := { x.arr with active := some (s, w), shadow := none, decoder := none } }
    else fillPanel x b
  | none, some (s, w) =>
    if s = k then b.setPitch p { x with arr := { x.arr with active := some (s, w), shadow := none, decoder := none } }
    else fillPanel x b
  | none, none => fillPanel x b
where
  fillPanel (x : Pitch) (b : Blk) : Blk :=
    if x.arr.filling = some k then b
    else b.setPitch p { x with arr := { x.arr with filling := some k, fillAsked := b.clk.pitch, shadow := none, decoder := none } }

/-- The unit whose pass comes next on a pitch's array (R139). -/
def passUnit (b : Blk) (p : Nat) : Option Unit := nextUnit b p 2 (b.units.filter (passReady b p))

/-- ARRAY_PASS (R139): the next pass of the operator that R38 ranks first, in an ARRAY cycle that the duty permits. -/
def effArrayPass (p : Nat) (b : Blk) : Blk :=
  match passUnit b p with
  | none => b
  | some u =>
    match b.desc? u.op with
    | none => b
    | some d =>
      let b := idleRamp p b
      if !(permitted b p) then b
      else if u.kind = .group then
        match d.run with
        | none => b
        | some r =>
          let b := if (b.pitch p).arr.decoder = some d.id then b else seatPanel p (decoderKey d.id) b
          if (b.pitch p).arr.decoder = some d.id then
            match activePanel b p (decoderKey d.id) with
            | some w => decoderPass u d r.decoder d.encWidth w b
            | none => b
          else b
      else
        let k : PanelKey := { op := d.id, unit := u.uid, pass := u.next }
        let b := seatPanel p k b
        match activePanel b p k with
        | none => b
        | some w =>
          if u.kind = .block then
            let r := runBody d.bytes
            if r.inf = 1 ∧ badInput d u ≠ [] then
              failUnit u.uid ((badInput d u).foldl (fun b e => poisonRecord d u.pitch e.1 b) b)
            else blockPass u d w (notePoison d u b)
          else samplePass u d w (if u.next = 0 then notePoison d u b else b)

/-- The panel of a pass of a block or sample. -/
def panelOf (d : Desc) (u : Unit) (pass : Nat) : List W32 :=
  if u.kind = .block then (runBody d.bytes).panel u pass else samplePanel d u

/-- A block or sample of pitch p whose operands are there and whose panel neither buffer holds: the shadow may fill for it while
another pass goes on (R124). -/
def aheadPanel (b : Blk) (p : Nat) : Option (PanelKey × List W32) :=
  let a := (b.pitch p).arr
  let key (u : Unit) : PanelKey := { op := u.op, unit := u.uid, pass := u.next }
  let held (k : PanelKey) : Bool := (a.active.map (·.1)) == some k
  if a.shadow.isSome || a.decoder.isSome then none
  else
    match nextUnit b p 2 (b.units.filter (fun u => passReady b p u && u.kind != .group && !(held (key u)))) with
    | none => none
    | some u => (b.desc? u.op).map (fun d => (key u, panelOf d u u.next))

/-- SHADOW_FILL (R124, R134): the shadow is full; the cycles that a pass waited for it are bubbles. A decoder's weights fill both
buffers. -/
def effShadowFill (p : Nat) (b : Blk) : Blk :=
  let x := b.pitch p
  match x.arr.filling with
  | none =>
    match aheadPanel b p with
    | some s => b.setPitch p { x with arr := { x.arr with shadow := some s } }
    | none => b
  | some k =>
    if k = decoderKey k.op then
      match b.units.find? (fun u => u.op = k.op && u.kind = .group && passReady b p u) with
      | none => b.setPitch p { x with arr := { x.arr with filling := none } }
      | some u =>
        match b.desc? u.op with
        | none => b
        | some d =>
          match d.run with
          | some r => decoderLoad u d r.decoder d.encWidth b
          | none => b
    else
    match unitOf b k.unit with
    | none => b.setPitch p { x with arr := { x.arr with filling := none } }
    | some (u, d) =>
      let n := b.clk.pitch - x.arr.fillAsked
      let ctx := (b.q d.q).ctx
      let b := b.setPitch p { x with arr := { x.arr with shadow := some (k, panelOf d u k.pass), filling := none } }
      charge 1 n (some ctx) (some d.q) (bump Ctr.arBubbles ctx n b)

/-! ### Commit -/

/-- The epilogue of R129. -/
def epilogue (r : RunB) (bias : Option W32) (acc : W32) : W32 :=
  if r.out = 3 then (if r.relu && acc.msb then 0 else acc)
  else
    let v := f32mul acc r.scale
    let v := match bias with
      | some x => f32add v x
      | none => v
    if r.relu then relu v else v

/-- Output bytes of an ARRAY_RUN element list. -/
def runVec (out : Nat) (v : List W32) : List Byte := outVec (if out = 3 then 0 else out) v

/-- A block's output, run by run (R126, R129). -/
def blockOutput (d : Desc) (u : Unit) : List (Nat × List Byte) :=
  let r := runBody d.bytes
  let n := r.nCols u.no
  let bias := (r.biasRun u.no).flatMap (u.elems 4)
  let rows := (pieces n u.acc).map (fun row =>
    (row.zip (List.range n)).map (fun e => epilogue r (if r.bias = 0 then none else some (bias.getD e.2 0)) e.1))
  let vecs := if r.cTrans then transposed n rows else rows
  (r.cRuns u.no).zip vecs |>.map (fun e => (e.1.1, runVec r.out e.2))

/-- A sample's output: the lower triangle, row by row (R132). -/
def sampleOutput (d : Desc) (u : Unit) : List (Nat × List Byte) :=
  let f := d.f 12 2
  let diag := boolNat ((d.f 10 1).testBit 0)
  let rows := pieces f u.acc
  let v := ((rows.zip (List.range f)).map (fun e => e.1.take (e.2 + diag))).flatten
  [(d.f 40 8 + u.no * d.f 48 4, outVec (d.f 9 1) v)]

/-- A group's output: each point's encoding, or its decoder's last layer; a dropped point is the quiet NaN (R115, R119,
R136). -/
def groupOutput (d : Desc) (r : UnitsRun) (u : Unit) : List (Nat × List Byte) :=
  let n := r.levels.length
  let fmt := d.f 10 1
  let nan : List Byte := match fmt with
    | 0 => toLe 4 0x7FC00000
    | 1 => toLe 2 0x7FC0
    | _ => toLe 2 0x7E00
  (List.range (groupPoints d u)).map (fun p =>
    (d.f 40 8 + (64 * u.no + p) * d.f 20 4,
     if u.drops.contains p then (List.replicate d.latticeOutWidth nan).flatten
     else outVec fmt (if r.decoder = [] then encodingOf n u p
                      else ((u.cells.find? (fun c => c.1 = p)).map (·.2)).getD [])))

/-- The mask of an operator of units. -/
def unitMask (d : Desc) : Nat :=
  match d.opcode with
  | 0x11 => d.f 56 8
  | 0x12 => d.f 48 8
  | _ => d.f 72 8

/-- Output of a unit. -/
def unitOutput (d : Desc) (r : UnitsRun) (u : Unit) : List (Nat × List Byte) :=
  match u.kind with
  | .block => blockOutput d u
  | .sample => sampleOutput d u
  | .group => groupOutput d r u
  | .bag | .scatter => []

/-- What a committed unit counts: saturated outputs (R129), samples (R141). -/
def unitCounts (d : Desc) (u : Unit) (b : Blk) : Blk :=
  match u.kind with
  | .block => if u.drops.isEmpty then b else addStatus d.id .overrange (bump Ctr.arSaturated d.q u.drops.length b)
  | .sample => bump Ctr.ixSamples d.q 1 b
  | .bag | .group | .scatter => b

/-- UNIT_COMMIT (R130, R138): the unit's output is written; once it is visible its mask bit is set, if there is a mask. -/
def effUnitCommit (uid : Nat) (b : Blk) : Blk :=
  match unitOf b uid with
  | none => b
  | some (u, d) =>
    match d.work with
    | .units r =>
      if u.kind = .bag ∨ b.isParked (.unit uid) = true then b
      else if u.stage = .write then
        let b := flushUnit u b
        let u := (b.unit? uid).getD u
        if outputVisible b u then
          let m := unitMask d
          match (if m = 0 then (b, Wr.ok) else setMaskBit u.pitch u.op uid (clsOf b d.q) m u.no b) with
          | (b, .ok) => commitUnit uid (unitCounts d u b)
          | (b, w) => storeFailed uid w b
        else b
      else if u.stage = .combine then
        match storeAll u.pitch uid (clsOf b d.q) (unitOutput d r u) b with
        | (b, .ok) => b.modUnit uid (fun u => { u with stage := .write })
        | (b, w) => storeFailed uid w b
      else b
    | _ => b

def execArrayRun (q : Nat) (s : State) : Host.Outcome State Fault Refusal := fireReady (q < 256) (effArrayRun q) s
def execInteract (q : Nat) (s : State) : Host.Outcome State Fault Refusal := fireReady (q < 256) (effInteract q) s
def execArrayPass (p : Nat) (s : State) : Host.Outcome State Fault Refusal := fireReady (p < 32) (effArrayPass p) s
def execShadowFill (p : Nat) (s : State) : Host.Outcome State Fault Refusal := fireReady (p < 32) (effShadowFill p) s
def execUnitCommit (uid : Nat) (s : State) : Host.Outcome State Fault Refusal := fireReady true (effUnitCommit uid) s

end Sys2Proof.Machine
end

