-- ==== Sys2Proof/Machine/Scatter.lean ====
section
/-! DEFINITION. SCATTER at the requester: occurrences (R143, R148, R149), combiners (R151 to R153), messages (R154, R155) and
completion (R168, R169). -/
namespace Sys2Proof.Machine

/-! ### The exact format -/

/-- Divide and round to the nearest integer, ties to even. -/
def roundDiv (a d : Nat) : Nat :=
  let q := a / d
  let r := a % d
  if d < 2 * r ∨ (2 * r = d ∧ q % 2 = 1) then q + 1 else q

/-- The bounds of R142. -/
def exactMax : Int := 2 ^ 95 - 1
def exactMin : Int := -(2 ^ 95 : Int)

/-- A value divided by `n`, in the exact format with ACC_EXP `q`, and whether it saturated; none for a NaN (R143). -/
def toExact (q : Int) (n : Nat) : Fp → Option (Int × Bool)
  | .nan => none
  | .inf neg => some (if neg then exactMin else exactMax, true)
  | .fin neg m e =>
    let k := e - q
    let a := if 0 ≤ k then roundDiv (m * 2 ^ k.toNat) n else roundDiv m (n * 2 ^ (-k).toNat)
    let x : Int := if neg then -(a : Int) else a
    some (clampTo 96 x, !(fitsIn 96 x))

/-- Exact addition (R144): an element that has reached a bound in a saturated accumulator stays there (DEDUCED, log 18). The Bool says
that this addition saturated. -/
def exactAdd (sat : Bool) (a x : Int) : Int × Bool :=
  if sat && (a == exactMax || a == exactMin) then (a, false)
  else (clampTo 96 (a + x), !(fitsIn 96 (a + x)))

/-- Element by element. -/
def exactAddAll (sat : Bool) (a x : List Int) : List Int × Nat :=
  let r := List.zipWith (exactAdd sat) a x
  (r.map (·.1), (r.filter (·.2)).length)

/-! ### The operator -/

def modScatter (id : Nat) (f : ScatterRun → ScatterRun) (b : Blk) : Blk :=
  b.modDesc id (fun d => match d.work with
    | .scatter r => { d with work := .scatter (f r) }
    | _ => d)

def Desc.scatter? (d : Desc) : Option ScatterRun :=
  match d.work with
  | .scatter r => some r
  | _ => none

/-- Bytes of a gradient element, and units of the forward record (R148, R149). -/
def gradBytes (d : Desc) : Nat := if d.f 8 1 = 0 then 4 else 2
def forwardUnits (d : Desc) : Nat :=
  if d.unitOp = 0x10 then field d.forward 12 4 else ceilDiv (field d.forward 12 4) 64

/-- Address of a unit's or point's gradient. -/
def gradAddr (d : Desc) (no : Nat) : Nat := d.f 24 8 + no * d.f 12 4

/-- Input of a unit behind its mask bit (R150). An empty bag reads nothing. -/
def scatterTiles (d : Desc) (r : UnitsRun) (no : Nat) : List (Nat × Nat) :=
  let l := d.forward
  let g := gradBytes d
  if d.unitOp = 0x10 then
    let t := tabOfBag r no
    let sp := bagSpan l r no
    if sp.2 = 0 then []
    else
      let ix := tilesOf (field l 48 8 + ixBytes t.ixFmt * sp.1) (ixBytes t.ixFmt) sp.2
      let wt := if field l 56 8 = 0 then [] else tilesOf (field l 56 8 + wtBytes l * sp.1) (wtBytes l) sp.2
      interleave ix wt ++ tilesOf (gradAddr d no) g t.dim
  else
    let n := min 64 (field l 12 4 - 64 * no)
    coordTiles l (64 * no) n ++ (List.range n).map (fun i => (gradAddr d (64 * no + i), d.encWidth * g))

/-- USE_MASK (R145). -/
def useMask (d : Desc) : Bool := (d.f 9 1).testBit 0

/-- SCATTER (R145): its units are handed out as the forward operator's are. -/
def effScatter (n : Nat) (b : Blk) : Blk :=
  match handedOf b n [0x20] with
  | none => b
  | some d =>
    let run : UnitsRun := { d.pre with segs := d.segments, total := forwardUnits d }
    let us := (List.range run.total).map (fun no =>
      ({ no := no, need := if useMask d then [(maskWord d no, 8)] else scatterTiles d run no } : NewUnit))
    let groups := if d.unitOp = 0x10 then pieces 64 us else pieces 1 us
    let b := startWork d.id (.scatter { run := run, forward := d.forward }) b
    let b := handAll d.id .scatter groups b
    modScatter d.id (fun r => { r with open_ := ((b.units.filter (fun u => u.op = d.id)).map (·.pitch)).eraseDups }) b

/-! ### Messages -/

/-- The requester's tag of a SCATTER on a pitch. -/
def scatterTag (id p : Nat) : Nat := (32 * id + p) % 2 ^ 32

/-- The narrowest width that holds every element (R153). -/
def widthOf (l : List Int) : Nat := if l.all (fitsIn 32) then 0 else if l.all (fitsIn 64) then 1 else 2

/-- Count a message that R169 calls undeliverable. -/
def undelivered (d : Desc) (s : Status) (b : Blk) : Blk := bump Ctr.scUndelivered d.q 1 (addStatus d.id s b)

/-- Note one more message out to a home. -/
def addOut (p chip die : Nat) (l : List (Nat × Nat × Nat × Nat)) : List (Nat × Nat × Nat × Nat) :=
  if l.any (fun o => o.1 = p && o.2.1 = chip && o.2.2.1 = die)
  then l.map (fun o => if o.1 = p && o.2.1 = chip && o.2.2.1 = die then (p, chip, die, o.2.2.2 + 1) else o)
  else l ++ [(p, chip, die, 1)]

/-- Send a combiner entry as a message (R153, R155). One whose home cannot be reached is undeliverable. -/
def sendContrib (p : Nat) (d : Desc) (t : Captured) (e : CombEnt) (b : Blk) : Blk :=
  let c := clsOf b d.q
  let occ := if e.chunk = 0 then e.occ else 0
  let b := modScatter d.id (fun r => { r with occ := r.occ + occ }) b
  let w := widthOf e.elems
  let b := modScatter d.id (fun r => { r with msgs := r.msgs + 1 }) b
  let b := bump Ctr.scMessages d.q 1 (if w = 2 then bump Ctr.scMsg96 d.q 1 b else b)
  match tryReach c.ctx e.chip e.die b with
  | (b, some s) => undelivered d s (modScatter d.id (fun r => { r with acked := r.acked + 1 }) b)
  | (b, none) =>
    let m : ContribB := { ctx := c.ctx, width := w, sat := e.sat, slot := t.slot, table := e.table, chunk := e.chunk, row := e.row,
                          tag := scatterTag d.id p, occ := occ, srcChip := b.ident.chip, srcDie := b.ident.die, srcPitch := p,
                          elems := e.elems }
    let b := modScatter d.id (fun r => { r with out := addOut p e.chip e.die r.out }) b
    let b := b.modDesc d.id (fun d => { d with started := true })
    let b := b.setPitch p { b.pitch p with unacked := (b.pitch p).unacked + 1 }
    watch e.chip (sendMsg e.chip e.die c (.contrib m) b)

/-- The captured table of a combiner entry. -/
def tabNamed (r : UnitsRun) (t : Nat) : Captured :=
  (r.tabs.find? (fun c => c.table = t)).getD { table := t, bytes := [], slot := 0 }

/-- A combiner entry is read out: a single-bit error is corrected, a double-bit one loses the entry, which its SCATTER counts
as undelivered (R382, R395). -/
def sendEntry (p : Nat) (d : Desc) (t : Captured) (e : CombEnt) (b : Blk) : Blk :=
  if e.ecc = 2 then
    undelivered d .unreachable (eccRecord 2 p 4 (4 * e.set + e.way) (some (b.q d.q).ctx) false b)
  else sendContrib p d t e (if e.ecc = 1 then bump Ctr.eccCorrected 0 1 b else b)

/-- Take an entry out of a combiner and send it (R153). -/
def evictEntry (p : Nat) (e : CombEnt) (b : Blk) : Blk :=
  let x := b.pitch p
  let b := b.setPitch p { x with comb := x.comb.filter (fun f => !(f.set = e.set && f.way = e.way)) }
  match b.desc? e.op with
  | none => b
  | some d =>
    match d.scatter? with
    | some r => sendEntry p d (tabNamed r.run e.table) e b
    | none => b

/-- The first entry of a SCATTER in way order, set 0 first. -/
def firstEntry (l : List CombEnt) (op : Nat) : Option CombEnt :=
  bestBy (fun (e : CombEnt) => 4 * e.set + e.way) (l.filter (fun e => e.op = op))

/-- Flush a SCATTER's entries while messages may be sent (R152, R153). -/
def flushComb (p op : Nat) : Nat → Blk → Blk
  | 0, b => b
  | n + 1, b =>
    let x := b.pitch p
    if x.unacked < 4096 then
      match firstEntry x.comb op with
      | some e => flushComb p op n (evictEntry p e b)
      | none => modScatter op (fun r => { r with open_ := r.open_.filter (· ≠ p) }) b
    else b

/-- The statistics record (R168). -/
def scatterStats (r : ScatterRun) : List Byte :=
  let c (n : Nat) : List Byte := toLe 4 (min n 0xFFFFFFFF)
  toLe 8 r.occ ++ c r.dropIndex ++ c r.dropNan ++ c r.dropFrozen ++ c r.msgs ++ c r.saturated ++ toLe 4 0

/-- A SCATTER whose units are done, whose combiners are flushed and whose messages are all accounted for completes (R168). -/
def scatterDone (id : Nat) (b : Blk) : Blk :=
  match b.desc? id with
  | none => b
  | some d =>
    match d.scatter? with
    | none => b
    | some r =>
      if r.open_ = [] ∧ r.acked = r.msgs ∧ b.units.any (fun u => u.op = id) = false then
        let b := b.modDesc id (fun d => { d with stats := if d.f 32 8 = 0 then none else some (d.f 32 8, scatterStats r) })
        completeWith id (if 0 < r.saturated then .overrange else .ok) (r.msgs % 2 ^ 32)
          (min (r.dropIndex + r.dropNan + r.dropFrozen) 0xFFFFFFFF) b
      else b

/-- A pitch on which a SCATTER has no unit left flushes its entries (R152). -/
def flushIfLast (p op : Nat) (b : Blk) : Blk :=
  if b.units.any (fun u => u.op = op && u.pitch = p) then b
  else
    match (b.desc? op).bind Desc.scatter? with
    | some r => if r.open_.contains p then scatterDone op (flushComb p op ((b.pitch p).comb.length + 1) b) else scatterDone op b
    | none => b

/-! ### The combiner -/

/-- The set of a key (R151). -/
def combSet (row table chunk : Nat) : Nat :=
  bitsOf (mix64 (BitVec.ofNat 64 row ^^^ BitVec.ofNat 64 (table * 2 ^ 48) ^^^ BitVec.ofNat 64 (chunk * 2 ^ 60))).toNat 63 56

/-- Offer one chunk of an occurrence (R152). -/
def offerChunk (p : Nat) (d : Desc) (table row chunk chip die : Nat) (elems : List Int) (sat : Bool) (b : Blk) : Blk :=
  let i := takeInject 4 b
  let b := i.1
  let x := b.pitch p
  let use := x.combUse + 1
  let set := combSet row table chunk
  let mine (e : CombEnt) : Bool := e.op = d.id && e.table = table && e.row = row && e.chunk = chunk
  match x.comb.find? mine with
  | some e =>
    let r := exactAddAll (e.sat || sat) e.elems elems
    let e' := { e with elems := r.1, occ := min (e.occ + 1) 0xFFFFFFFF, sat := e.sat || sat || decide (0 < r.2), used := use, ecc := if i.2 = 0 then e.ecc else i.2 }
    let b := b.setPitch p { x with comb := x.comb.map (fun f => if mine f then e' else f), combUse := use }
    let b := if r.2 = 0 then b else bump Ctr.scSaturated d.q r.2 (modScatter d.id (fun s => { s with saturated := s.saturated + r.2 }) b)
    bump Ctr.scCombineHits d.q 1 b
  | none =>
    let inSet := x.comb.filter (fun e => e.set = set)
    let put (way : Nat) (b : Blk) : Blk :=
      let x := b.pitch p
      b.setPitch p { x with
        comb := x.comb ++ [{ set := set, way := way, op := d.id, table := table, row := row, chunk := chunk, elems := elems,
                             occ := 1, sat := sat, used := use, chip := chip, die := die, ecc := i.2 }]
        combUse := use }
    match (List.range 4).find? (fun w => !(inSet.any (fun e => e.way = w))) with
    | some w => put w b
    | none =>
      match bestBy CombEnt.used inSet with
      | some v =>
        let b := match b.desc? v.op with
          | some o => bump Ctr.scEvictions o.q 1 b
          | none => b
        put v.way (evictEntry p v b)
      | none => b

/-- Chunks of a row (R151). -/
def chunkCount (dim : Nat) : Nat := ceilDiv dim 64

/-- An occurrence: every element is converted, and every chunk offered (R143, R152). -/
def occur (u : Unit) (d : Desc) (t : Captured) (row chip die n : Nat) (vals : List Fp) (b : Blk) : Blk :=
  let xs := vals.map (toExact t.accExp n)
  if xs.any Option.isNone then
    bump Ctr.scDropNan d.q 1 (modScatter d.id (fun r => { r with dropNan := r.dropNan + 1 }) b)
  else
    let ys := xs.map (fun x => x.getD (0, false))
    let k := (ys.filter (·.2)).length
    let b := bump Ctr.scOccurrences d.q 1 b
    let b := if k = 0 then b else bump Ctr.scSaturated d.q k (modScatter d.id (fun r => { r with saturated := r.saturated + k }) b)
    (List.range (chunkCount t.dim)).foldl (fun b c =>
      let es := (ys.drop (64 * c)).take 64
      offerChunk u.pitch d t.table row c chip die (es.map (·.1)) (es.any (·.2)) b) b

/-! ### Occurrences -/

/-- A gradient of `n` elements; a poisoned one is the quiet NaN (R389). -/
def gradVec (d : Desc) (u : Unit) (va n : Nat) : List W32 :=
  let g := gradBytes d
  (List.range n).map (fun i =>
    match u.input (va + g * i) g with
    | some x => if anyPoison x then poisonNan else if g = 4 then BitVec.ofNat 32 (le (plain x)) else b16to32 (le (plain x))
    | none => 0)

/-- Poisoned bytes among a unit's input at an address range. -/
def poisonIn (u : Unit) (va n : Nat) : Bool :=
  u.have_.any (fun h => (h.1 < va + n && va < h.1 + h.2.length)
    && (((h.2.drop (va - h.1)).take (va + n - max h.1 va)).any (·.2)))

/-- How many of `n` elements of `g` bytes at an address are poisoned. -/
def poisonedElems (u : Unit) (va g n : Nat) : Nat := ((List.range n).filter (fun i => poisonIn u (va + g * i) g)).length

/-- The unit has formed its last occurrence. -/
def endScatterUnit (u : Unit) (b : Blk) : Blk :=
  flushIfLast u.pitch u.op (modRun u.op (fun r => { r with finished := r.finished + 1 }) (dropUnits [u.uid] b))

/-- The unit moves on; past its last item it ends. -/
def nextItem (u : Unit) (step total : Nat) (b : Blk) : Blk :=
  let b := serveQueue u.pitch 3 (opQueue b u.op) b
  if total ≤ u.next + step then endScatterUnit u b else b.modUnit u.uid (fun u => { u with next := u.next + step })

/-- Index i of a bag and its class. -/
def bagIndex (u : Unit) (t : Captured) (va : Nat) : IxClass :=
  classify t (le (plain ((u.input va (ixBytes t.ixFmt)).getD [])))

/-- Count a drop at the requester (R148, R149). -/
def scatterDrop (d : Desc) (b : Blk) : Blk :=
  bump Ctr.scDropIndex d.q 1 (modScatter d.id (fun r => { r with dropIndex := r.dropIndex + 1 }) b)

/-- An index dropped by its class is counted in the counter of that class too (R77). -/
def scatterDropIndex (d : Desc) (cls : IxClass) (b : Blk) : Blk :=
  scatterDrop d (match cls.counter with
    | some k => bump k d.q 1 b
    | none => b)

/-- A unit's next item, once its mask has been looked at and its tiles are there: the home of its row must be known first. -/
def homeFor (u : Unit) (d : Desc) (t : Captured) (row : Nat) (b : Blk) : Blk × Serve :=
  let h := homeOf t row
  match readChip (.pitch u.pitch) (.unit u.uid) (clsOf b d.q) t h.pos b with
  | (b, .ok e) => (b, .away (field (plain e) 0 2 % 16384) h.die)
  | (b, .wait) => (b, .wait)
  | (b, .fault) => (b, .fault)
  | (b, .fail s) => (b, .fail s)
  | (b, .badMeta) => (b, .badMeta)

/-- Room for the messages that an occurrence may evict (R153). -/
def mayOccur (b : Blk) (p : Nat) (t : Captured) : Bool := decide ((b.pitch p).unacked + chunkCount t.dim ≤ 4096)

/-- The next index of a bag (R148). -/
def bagOccurrence (u : Unit) (d : Desc) (r : UnitsRun) (b : Blk) : Blk :=
  let l := d.forward
  let t := tabOfBag r u.no
  let sp := bagSpan l r u.no
  let ixB := ixBytes t.ixFmt
  let ixVa := field l 48 8 + ixB * sp.1
  if t.bad then flushIfLast u.pitch u.op (failUnit u.uid b)
  else if sp.2 = 0 then endScatterUnit u b
  else if u.next = 0 ∧ poisonIn u ixVa (ixB * sp.2) = true then flushIfLast u.pitch u.op (failUnit u.uid (poisonRecord d u.pitch ixVa b))
  else
    let cls := bagIndex u t (ixVa + ixB * u.next)
    match cls with
    | .valid row =>
      if !(mayOccur b u.pitch t) then b
      else
        match homeFor u d t row b with
        | (b, .away chip die) =>
          let ctx := (b.q d.q).ctx
          let pool := byteAt l 8
          let wB := wtBytes l
          let wVa := field l 56 8 + wB * (sp.1 + u.next)
          let wt := (u.input wVa wB).getD []
          let w : W32 := if anyPoison wt then poisonNan else if wB = 2 then b16to32 (le (plain wt)) else BitVec.ofNat 32 (le (plain wt))
          let gVa := gradAddr d u.no
          let g := (gradVec d u gVa t.dim).map rd32
          let n := if pool = 1 then
              ((List.range sp.2).filter (fun i => match bagIndex u t (ixVa + ixB * i) with
                | .valid _ => true
                | _ => false)).length
            else 1
          let b := if t.sketch then sketchCount u.pitch t.table row b else b
          let b := if u.next = 0 ∧ poisonIn u gVa (gradBytes d * t.dim) = true then
              poisonNans ctx (poisonedElems u gVa (gradBytes d) t.dim) (poisonRecord d u.pitch gVa b) else b
          let b := if pool = 2 ∧ anyPoison wt = true then poisonNans ctx 1 (poisonRecord d u.pitch wVa b) else b
          nextItem u 1 sp.2 (occur u d t row chip die n (if pool = 2 then g.map ((rd32 w).mul) else g) b)
        | (b, .fail s) => flushIfLast u.pitch u.op (endUnit u.uid s b)
        | (b, .badMeta) => flushIfLast u.pitch u.op (failUnit u.uid b)
        | (b, .here _ _) => b
        | (b, .wait) => b
        | (b, .fault) => b
    | .missing | .negative | .range => nextItem u 1 sp.2 (scatterDropIndex d cls b)

/-- The next corner of a group of points (R149): its items are point, level, corner. -/
def cornerOccurrence (u : Unit) (d : Desc) (r : UnitsRun) (b : Blk) : Blk :=
  let l := d.forward
  let dims := byteAt l 8
  let lv := r.levels.length
  let per := lv * 2 ^ dims
  let points := min 64 (field l 12 4 - 64 * u.no)
  let pt := u.next / per
  let lev := u.next / 2 ^ dims % lv
  let k := u.next % 2 ^ dims
  let va := coordAddr l (64 * u.no + pt)
  let bytes := (u.input va (dims * coordBytes l)).getD []
  let cs := coordsOf l bytes
  let ctx := (b.q d.q).ctx
  let fresh := u.next % per = 0
  if r.tabs.any (·.bad) then flushIfLast u.pitch u.op (failUnit u.uid b)
  else
  let b := if fresh ∧ anyPoison bytes = true then
      poisonNans ctx (poisonedElems u va (coordBytes l) dims) (poisonRecord d u.pitch va b) else b
  if cs.any (fun c => (rd32 c).isNan) then nextItem u per (points * per) (scatterDrop d b)
  else
    let e := r.levels.getD lev []
    let t := levelTab r e
    let c := (cornersOf l e t.rows cs).getD k (0, 0)
    if !(mayOccur b u.pitch t) then b
    else
      match homeFor u d t c.1 b with
      | (b, .away chip die) =>
        let gVa := gradAddr d (64 * u.no + pt)
        let off := ((r.levels.take lev).map (fun e => (levelTab r e).dim)).foldl (· + ·) 0
        let g := (gradVec d u (gVa + gradBytes d * off) t.dim).map rd32
        let b := if fresh ∧ poisonIn u gVa (gradBytes d * d.encWidth) = true then
            poisonNans ctx (poisonedElems u gVa (gradBytes d) d.encWidth) (poisonRecord d u.pitch gVa b) else b
        nextItem u 1 (points * per) (occur u d t c.1 chip die 1 (g.map ((rd32 c.2).mul)) b)
      | (b, .fail s) => flushIfLast u.pitch u.op (endUnit u.uid s b)
      | (b, .badMeta) => flushIfLast u.pitch u.op (failUnit u.uid b)
      | (b, .here _ _) => b
      | (b, .wait) => b
      | (b, .fault) => b

/-- A SCATTER unit looks at its mask bit (R145): it ends, or its other input is fetched. A poisoned mask fails it (DEDUCED, log 15). -/
def openScatter (u : Unit) (d : Desc) (r : UnitsRun) (b : Blk) : Blk :=
  match u.input (maskWord d u.no) 8 with
  | none => b
  | some w =>
    if anyPoison w then flushIfLast u.pitch u.op (failUnit u.uid (poisonRecord d u.pitch (maskWord d u.no) b))
    else if maskBit w u.no then b.modUnit u.uid (fun u => { u with opened := true, need := scatterTiles d r u.no, have_ := [] })
    else endScatterUnit u b

/-- A SCATTER unit of pitch p whose tiles are all there. -/
def scatterReady (b : Blk) (p : Nat) (u : Unit) : Bool :=
  u.kind == .scatter && u.pitch == p && u.need == [] && !(b.isParked (.unit u.uid))

/-- A SCATTER that has no unit left on a pitch but has not flushed it. -/
def unflushed (b : Blk) (p : Nat) : Option Nat :=
  (b.front.descs.find? (fun d => match d.scatter? with
    | some r => r.open_.contains p && !(b.units.any (fun u => u.op = d.id && u.pitch = p))
    | none => false)).map (·.id)

/-- SCATTER_OCCURRENCE (R152). -/
def effScatterOccurrence (p : Nat) (b : Blk) : Blk :=
  match nextUnit b p 3 (b.units.filter (scatterReady b p)) with
  | none =>
    match unflushed b p with
    | some id => flushIfLast p id b
    | none => b
  | some u =>
    match b.desc? u.op with
    | none => b
    | some d =>
      match d.scatter? with
      | none => b
      | some r =>
        if useMask d && !u.opened then openScatter u d r.run b
        else if d.unitOp = 0x10 then bagOccurrence u d r.run b
        else cornerOccurrence u d r.run b

/-! ### Acknowledgements -/

/-- The SCATTER and pitch of a tag. -/
def tagOwner (b : Blk) (tag : Nat) : Option (Desc × ScatterRun) :=
  (b.front.descs.findSome? (fun d => match d.scatter? with
    | some r => if (32 * d.id) % 2 ^ 32 = tag / 32 * 32 then some (d, r) else none
    | none => none))

/-- Take messages off the account of a home; the answer says how many there were. -/
def settleOut (p chip die n : Nat) (l : List (Nat × Nat × Nat × Nat)) : List (Nat × Nat × Nat × Nat) × Nat :=
  match l.find? (fun o => o.1 = p && o.2.1 = chip && o.2.2.1 = die) with
  | some o =>
    let k := min n o.2.2.2
    (l.filterMap (fun x => if x = o then (if k = o.2.2.2 then none else some (p, chip, die, o.2.2.2 - k)) else some x), k)
  | none => (l, 0)

/-- `n` messages of a SCATTER on pitch p to a home are accounted for; flushing goes on and the SCATTER may complete. -/
def accounted (id p chip die n : Nat) (b : Blk) : Blk :=
  match (b.desc? id).bind Desc.scatter? with
  | none => b
  | some r =>
    let s := settleOut p chip die n r.out
    let b := modScatter id (fun r => { r with out := s.1, acked := r.acked + s.2 }) b
    let b := b.setPitch p { b.pitch p with unacked := (b.pitch p).unacked - s.2 }
    flushIfLast p id b

/-- GRAD_ACK (R166, R168, R22). Status 1, which R166 leaves out, is the TABLE_BUSY of R86 (DEDUCED, log 86). -/
def effGradAck (b : Blk) : Blk :=
  match oldest b (fun r => match r.msg with
    | .gradAck _ => true
    | _ => false) with
  | none => b
  | some (i, r) =>
    match r.msg with
    | .gradAck m =>
      let b := heard r.chip (takeRx i r b)
      match tagOwner b m.tag with
      | none => bump Ctr.sackItemsReplayed 0 1 b
      | some (d, x) =>
        let p := m.tag % 32
        if (settleOut p m.chip m.die m.msgs x.out).2 = 0 then bump Ctr.sackItemsReplayed 0 1 b
        else
          let b := modScatter d.id (fun x => { x with dropFrozen := x.dropFrozen + m.occFrozen }) b
          let b := if m.overrange then addStatus d.id .overrange b else b
          let b := match m.status with
            | 1 => addStatus d.id .tableBusy b
            | 2 => addStatus d.id .malformed b
            | 3 => addStatus d.id .unreachable b
            | _ => b
          accounted d.id p m.chip m.die m.msgs b
    | _ => b

/-- Messages of a SCATTER that R169 calls undeliverable after they were sent. -/
def contribLost (id p chip die n : Nat) (s : Status) (b : Blk) : Blk :=
  match b.desc? id with
  | none => b
  | some d =>
    match d.scatter? with
    | none => b
    | some r =>
      let k := (settleOut p chip die n r.out).2
      if k = 0 then b
      else accounted id p chip die n (bump Ctr.scUndelivered d.q k (addStatus id s b))

/-- Every message out to a home that satisfies a test is undeliverable (R169). -/
def contribsLost (f : Nat → Nat → Bool) (s : Status) (b : Blk) : Blk :=
  b.front.descs.foldl (fun b d =>
    match d.scatter? with
    | some r => (r.out.filter (fun o => f o.2.1 o.2.2.1)).foldl (fun b o => contribLost d.id o.1 o.2.1 o.2.2.1 o.2.2.2 s b) b
    | none => b) b

def execScatter (q : Nat) (s : State) : Host.Outcome State Fault Refusal := fireReady (q < 256) (effScatter q) s
def execScatterOccurrence (p : Nat) (s : State) : Host.Outcome State Fault Refusal :=
  fireReady (p < 32) (effScatterOccurrence p) s
def execGradAck (s : State) : Host.Outcome State Fault Refusal := fireReady true effGradAck s

end Sys2Proof.Machine
end

