-- ==== Sys2Proof/Machine/Slices.lean ====
section
/-! DEFINITION. The groundsheet slices on arrival: the dispatcher (R156), the freeze check (R157), the arena (R159 to R161),
the overflow log (R162, R163), the run buffers (R164) and acknowledgements (R166, R167). -/
namespace Sys2Proof.Machine

/-! ### Several writes, all or none -/

/-- A translated part of local memory that snoops must clear first, or a remote one that cannot be reached. -/
def partBlocked (u : UnitRef) (c : Cls) (b : Blk) (x : (Nat × Bool × Bool) × List PByte) : Option (List Nat) × Option Status :=
  let pa := x.1.1
  if x.1.2.1 then (none, if b.straps.lead && b.host.state == 2 then some .hostLost else none)
  else if b.isSelf pa then (mustWait b (some u) (paOff pa) x.2.length, none)
  else (none, reachFail b c.ctx (paChip pa) (paDie pa))

/-- Write several runs of bytes together: none is written until every one can be (R161, R221). -/
def wrAll (rq : Rq) (u : UnitRef) (c : Cls) (outs : List (Nat × List PByte)) (b : Blk) : Blk × Wr :=
  let ps := outs.map (fun o => (partsOf o.1 o.2.length, o.2))
  match wrTrans rq u c (ps.flatMap (·.1)) b with
  | (b, .ok, l) =>
    let parts := l.zip (ps.flatMap (fun e => cutParts e.1 e.2))
    let bl := parts.map (partBlocked u c b)
    match bl.findSome? (·.2) with
    | some s =>
      (parts.foldl (fun b x => if x.1.2.1 || b.isSelf x.1.1 then b else (tryReach c.ctx (paChip x.1.1) (paDie x.1.1) b).1) b, .fail s)
    | none =>
      let ws := bl.filterMap (·.1)
      if ws.isEmpty then wrPut u c parts b else (sendSnoops (ws.flatMap id).eraseDups b, .wait)
  | (b, r, _) => (b, r)

/-- Clean bytes. -/
def clean (l : List Byte) : List PByte := l.map (·, false)

/-! ### Guards -/

/-- A STEP on the table is past its wait on this die (R176). One that failed its check captured nothing. -/
def stepRunning (b : Blk) (ctx table : Nat) : Bool :=
  b.front.descs.any (fun d => (b.q d.q).ctx == ctx && (match d.work with
    | .step r _ => r.cap.table == table && r.phase != .wait && !r.cap.bytes.isEmpty
    | _ => false))

def Blk.log (b : Blk) (ctx table : Nat) : LogSt := b.gs.logs.get {} (tabKey ctx table)

def Blk.setLog (b : Blk) (ctx table : Nat) (x : LogSt) : Blk :=
  { b with gs := { b.gs with logs := b.gs.logs.set (tabKey ctx table) x } }

/-- A slice's run buffer is full, and cannot be written out while a record of its runs waits for a full log (R164). -/
def runBlocked (b : Blk) (n : Nat) : Bool :=
  decide (128 ≤ (b.slice n).run.length) && b.gs.logq.any (fun r => r.slice = n && (b.log r.ctx r.table).full)

/-- Messages that a slice's park buffer holds: parked on a fault, late for a STEP, or waiting for a full log, in either mode (R163,
R164, R176, R220). -/
def heldCount (b : Blk) (n : Nat) : Nat :=
  ((b.slice n).inbox.filter (fun m => b.isParked (.msg m.mid) || (m.late && stepRunning b m.b.ctx m.b.table)
      || (runBlocked b n && m.usable && isVisit b m.b.ctx))).length
    + (b.gs.logq.filter (fun r => r.slice == n && r.msg.isSome && (b.log r.ctx r.table).full)).length

/-- The slice withholds GRAD credits (R163). -/
def withholds (b : Blk) (n : Nat) : Bool := decide (64 ≤ heldCount b n)

/-- A table's sticky OVERRANGE bit is set; each setting makes a record (R167). -/
def setSticky (n ctx table : Nat) (b : Blk) : Blk :=
  if b.gs.sticky.get false (tabKey ctx table) then b
  else
    raise { cause := 0x04, ctx := some ctx, unit := 3, inst := n, detail := table }
      { b with gs := { b.gs with sticky := b.gs.sticky.set (tabKey ctx table) true } }

/-! ### Acknowledgements -/

/-- Send an acknowledgement (R166). -/
def sendAck (a : AckAcc) (b : Blk) : Blk :=
  let c : Cls := { rt := a.rt, stream := a.stream, ctx := a.ctx }
  match reachFail b a.ctx a.chip a.die with
  | some _ => b
  | none =>
    sendMsg a.chip a.die c (.gradAck { status := a.status, overrange := a.tables.any (fun t => b.gs.sticky.get false (tabKey a.ctx t.1)),
                                       msgs := a.msgs, tag := a.tag, occFrozen := min a.occFrozen 0xFFFFFFFF,
                                       chip := b.ident.chip, die := b.ident.die }) b

/-- Account for one message of slice n: the 64th of a requester and status is acknowledged with the rest (R166). -/
def ackMsg (n : Nat) (m : SMsg) (status occFrozen : Nat) (b : Blk) : Blk :=
  let x := b.slice n
  let mine (a : AckAcc) : Bool := a.chip = m.b.srcChip && a.die = m.b.srcDie && a.pitch = m.b.srcPitch && a.tag = m.b.tag
    && a.status = status && a.ctx = m.b.ctx
  let old := (x.acks.find? mine).getD { chip := m.b.srcChip, die := m.b.srcDie, pitch := m.b.srcPitch, tag := m.b.tag, status := status,
                                        ctx := m.b.ctx, tables := [], msgs := 0, occFrozen := 0, since := b.clk.gs, rt := m.rt,
                                        stream := m.stream }
  let a := { old with msgs := old.msgs + 1, occFrozen := old.occFrozen + occFrozen,
                      tables := if old.tables.contains (m.b.table, m.b.slot) then old.tables else old.tables ++ [(m.b.table, m.b.slot)] }
  let rest := x.acks.filter (fun a => !mine a)
  if a.msgs = 64 then sendAck a (b.setSlice n { x with acks := rest })
  else b.setSlice n { x with acks := rest ++ [a] }

/-- ACK_TIMER (R166): 1,024 GS cycles after the first message that has not been acknowledged. -/
def effAckTimer (n : Nat) (b : Blk) : Blk :=
  let x := b.slice n
  let due := x.acks.filter (fun a => a.since + 1024 ≤ b.clk.gs)
  due.foldl (fun b a => sendAck a b) (b.setSlice n { x with acks := x.acks.filter (fun a => !(a.since + 1024 ≤ b.clk.gs)) })

/-! ### The dispatcher -/

/-- What the home's descriptor must hold (R157). -/
def homeUsable (visit : Bool) (t : Captured) : Bool :=
  t.ok && t.overBase != 0 && decide (4096 ≤ t.overBytes) && t.overBytes % 64 == 0
    && (visit || (t.arenaBase != 0 && decide (6 ≤ t.arenaLog2 ∧ t.arenaLog2 ≤ 30)))

/-- What reading the home's descriptor gives. -/
inductive HomeRd where
  | ok (t : Captured)
  | bad
  | wait
deriving DecidableEq, Repr

/-- Read a table's descriptor through a descriptor buffer (R156, R157), which keeps it until a MAINT that invalidates pitch metadata
caches, or a TABLE_SWAP, completes (R68; DEDUCED, log 22). -/
def bufTable (buf n : Nat) (u : UnitRef) (c : Cls) (table : Nat) (b : Blk) : Blk × Rd :=
  match b.gs.dbuf.find? (fun e => e.1 = buf && e.2.1 = c.ctx && e.2.2.1 = table) with
  | some e => (b, .ok e.2.2.2)
  | none =>
    match readTable (.slice n) u c table b with
    | (b, .ok l) => ({ b with gs := { b.gs with dbuf := b.gs.dbuf ++ [(buf, c.ctx, table, l)] } }, .ok l)
    | r => r

/-- Read the home's descriptor; a poisoned or unreachable line makes a record (R157). -/
def readHome (buf n : Nat) (u : UnitRef) (c : Cls) (table : Nat) (b : Blk) : Blk × HomeRd :=
  let va := (ctxHdr b c.ctx).tableDir + 256 * table
  match bufTable buf n u c table b with
  | (b, .ok l) =>
    let t : Captured := { table := table, bytes := plain l, slot := byteAt (plain l) 19 % 4 }
    if homeUsable (isVisit b c.ctx) t then (b, .ok t) else (b, .bad)
  | (b, .badMeta) =>
    (raise { cause := 0x12, ctx := some c.ctx, unit := 3, inst := n, detail := poisonSource c va b, detail2 := va } b, .bad)
  | (b, .fail _) =>
    (raise { cause := 0x0E, ctx := some c.ctx, unit := 3, inst := n, detail := farAddr c va b } b, .bad)
  | (b, .wait) => (b, .wait)
  | (b, .fault) => (b, .wait)

/-- The owner slice of a die-local row (R156). -/
def ownerSlice (b : Blk) (lrow : Nat) : Nat := ((mix64 (BitVec.ofNat 64 lrow)).toNat / 2 ^ 32) % b.sliceCount

/-- The dispatcher's read of a table's descriptor, as a unit of work. -/
def dispatchRef (ctx table : Nat) : UnitRef := .msg (2 ^ 40 + tabKey ctx table)

def isContrib (r : Rx) : Bool :=
  match r.msg with
  | .contrib _ => true
  | _ => false

/-- Records for the contexts that a withholding slice holds up (R394). -/
def withheldRecords (n : Nat) (b : Blk) : Blk :=
  let ctxs := ((b.slice n).inbox.map (·.b.ctx) ++ (b.gs.logq.filter (fun r => r.slice = n)).map (·.ctx)).eraseDups
  if withholds b n && b.gs.logq.any (fun r => (b.log r.ctx r.table).full) then
    ctxs.foldl (fun b c => raise { cause := 0x03, ctx := some c, shared := true, unit := 3, inst := n } b) b
  else b

/-- A message reaches its slice; one with SAT set sets the sticky bit on arrival (R167). -/
def toSlice (n : Nat) (i : Nat) (r : Rx) (m : ContribB) (lrow : Nat) (usable : Bool) (b : Blk) : Blk :=
  let late := usable && stepRunning b m.ctx m.table
  let s : SMsg := { mid := b.gs.nextMid, b := m, lrow := lrow, usable := usable, late := late, rt := r.rt, stream := r.stream }
  let b := takeRx i r { b with gs := { b.gs with nextMid := b.gs.nextMid + 1 } }
  let was := withholds b n
  let x := b.slice n
  let b := b.setSlice n { x with inbox := x.inbox ++ [s] }
  let b := if late then bump Ctr.upLateHeld m.ctx 1 b else b
  let b := if m.sat then setSticky n m.ctx m.table b else b
  if was then b else withheldRecords n b

/-- What the dispatcher makes of one contribution. -/
inductive Resolved where
  | to (n lrow : Nat) (usable : Bool)
  | wait
deriving DecidableEq, Repr

/-- The dispatcher finds a message's owner slice (R156). -/
def resolveContrib (r : Rx) (m : ContribB) (b : Blk) : Blk × Resolved :=
  let c : Cls := { rt := r.rt, stream := r.stream, ctx := m.ctx }
  match readHome 64 0 (dispatchRef m.ctx m.table) c m.table b with
  | (b, .ok t) =>
    let l := (homeOf t m.row).lrow
    (b, .to (ownerSlice b l) l true)
  | (b, .bad) => (b, .to 0 0 false)
  | (b, .wait) => (b, .wait)

/-- The contributions of the port sack in the order in which they go: the best class first, then the oldest (R38). -/
def contribsInOrder (b : Blk) : List (Nat × Rx) :=
  let l := ((List.range b.port.length).zip b.port).filter (fun e => isContrib e.2)
  (List.range 9).flatMap (fun k => l.filter (fun e => e.2.prio = k))

/-- The first contribution that its slice takes goes there: one whose slice withholds credits holds up no message of another slice
(R16, R163). -/
def passContrib : List (Nat × Rx) → Blk → Blk
  | [], b => b
  | (i, r) :: t, b =>
    match r.msg with
    | .contrib m =>
      if b.isParked (dispatchRef m.ctx m.table) then passContrib t b
      else
        match resolveContrib r m b with
        | (b, .to n l usable) => if withholds b n then passContrib t b else toSlice n i r m l usable b
        | (b, .wait) => b
    | _ => passContrib t b

/-- CONTRIB (R156): the next contribution is resolved and passed to its owner slice, unless that slice withholds credits. -/
def effContrib (b : Blk) : Blk := passContrib (contribsInOrder b) b

/-! ### The freeze check -/

/-- What the freeze check finds. -/
inductive Frz where
  | frozen
  | free
  | wait
deriving DecidableEq, Repr

/-- R157 and R178: a word that cannot be read well freezes every row that it covers. -/
def freezeCheck (n : Nat) (u : UnitRef) (c : Cls) (t : Captured) (l : Nat) (b : Blk) : Blk × Frz :=
  if t.freezeAll then (b, .frozen)
  else if t.freezeMap = 0 then (b, .free)
  else
    let va := t.freezeMap + 8 * (l / 64)
    match rd (.slice n) u c va 8 b with
    | (b', .ok d) =>
      if anyPoison d then
        (raise { cause := 0x12, ctx := some c.ctx, unit := 3, inst := n, detail := poisonSource c va b', detail2 := va } b', .frozen)
      else (b', if (le (plain d)).testBit (l % 64) then .frozen else .free)
    | (b, .fail _) => (raise { cause := 0x0E, ctx := some c.ctx, unit := 3, inst := n, detail := farAddr c va b } b, .frozen)
    | (b, .badMeta) =>
      (raise { cause := 0x12, ctx := some c.ctx, unit := 3, inst := n, detail := poisonSource c va b, detail2 := va } b, .frozen)
    | (b, .wait) => (b, .wait)
    | (b, .fault) => (b, .wait)

/-! ### The arena -/

/-- Bytes of a bucket, and address of bucket j (R159). -/
def bucketBytes (dim : Nat) : Nat := (16 + 12 * dim + 63) / 64 * 64
def bucketAddr (t : Captured) (j : Nat) : Nat := t.arenaBase + j * bucketBytes t.dim

/-- A bucket header (R159). -/
structure BucketH where
  lrow : Nat
  used : Bool
  sat : Bool
  rsv : Bool
  occ : Nat
deriving DecidableEq, Repr, Inhabited

def parseBucket (l : List Byte) : BucketH :=
  let v := le (l.take 16)
  { lrow := v % 2 ^ 48, used := v.testBit 48, sat := v.testBit 49, rsv := bitsOf v 63 50 != 0 || bitsOf v 127 96 != 0,
    occ := bitsOf v 95 64 }

def bucketHeader (lrow : Nat) (sat : Bool) (occ : Nat) : List Byte :=
  toLe 16 (lrow + 2 ^ 48 + 2 ^ 49 * boolNat sat + 2 ^ 64 * occ)

/-- What probing finds: a bucket and its header, and the buckets read. -/
inductive Found where
  | bucket (j : Nat) (h : BucketH) (probes : Nat)
  | none (probes : Nat)
  | wait
  | fail (va probes : Nat)
deriving DecidableEq, Repr

/-- Probe at most `k` buckets (R161); one whose header is poisoned, or has a reserved bit set, is another row's (R160, R389). -/
def probeArena (n : Nat) (u : UnitRef) (c : Cls) (t : Captured) (l : Nat) : Nat → Nat → Blk → Blk × Found
  | 0, _, b => (b, .none 32)
  | k + 1, p, b =>
    let j := ((mix64 (BitVec.ofNat 64 l)).toNat + p) % 2 ^ t.arenaLog2
    let va := bucketAddr t j
    match rd (.slice n) u c va 16 b with
    | (b, .ok d) =>
      if anyPoison d then
        probeArena n u c t l k (p + 1)
          (bump Ctr.poisonWritten c.ctx 1 <| raise { cause := 0x12, ctx := some c.ctx, unit := 3, inst := n, detail := poisonSource c va b, detail2 := va } b)
      else
        let h := parseBucket (plain d)
        if h.rsv then probeArena n u c t l k (p + 1) b
        else if h.used && h.lrow == l then (b, .bucket j h (p + 1))
        else if !h.used then (b, .bucket j h (p + 1))
        else probeArena n u c t l k (p + 1) b
    | (b, .fail _) => (b, .fail va (p + 1))
    | (b, .badMeta) => (b, .fail va (p + 1))
    | (b, .wait) => (b, .wait)
    | (b, .fault) => (b, .wait)

/-- Remove a message from a slice's inbox. -/
def dropMsg (n mid : Nat) (b : Blk) : Blk :=
  let x := b.slice n
  b.setSlice n { x with inbox := x.inbox.filter (fun m => m.mid ≠ mid) }

/-- A message has been placed (R166, R170). -/
def placed (n : Nat) (m : SMsg) (sats : Nat) (b : Blk) : Blk :=
  let c := m.b.ctx
  let b := charge 6 1 (some c) none (bump Ctr.gsMsgsPlaced c 1 b)
  let b := if sats = 0 then b else setSticky n c m.b.table (bump Ctr.gsSaturated c sats b)
  ackMsg n m 0 0 (dropMsg n m.mid b)

/-- A message whose arena or log cannot be reached (R161). -/
def unplaced (n : Nat) (m : SMsg) (va : Nat) (b : Blk) : Blk :=
  let c : Cls := { ctx := m.b.ctx }
  ackMsg n m 3 0 (dropMsg n m.mid
    (raise { cause := 0x0E, ctx := some m.b.ctx, unit := 3, inst := n, detail := farAddr c va b, detail2 := 1 } b))

/-- Buckets read while probing (R170, R350). -/
def countProbes (ctx probes : Nat) (b : Blk) : Blk := charge 5 probes (some ctx) none (bump Ctr.gsProbes ctx probes b)

/-- Exact values of 12 bytes each, and which of them touch poison. -/
def exactValues (d : List PByte) : List (Int × Bool) :=
  (pieces 12 d).map (fun x => (signedOf 96 (le (plain x)), anyPoison x))

/-- Add a message into a bucket (R161, R144, R389). -/
def addToBucket (n : Nat) (m : SMsg) (c : Cls) (t : Captured) (j : Nat) (h : BucketH) (probes : Nat) (b : Blk) : Blk :=
  let va := bucketAddr t j
  let eva := va + 16 + 12 * (64 * m.b.chunk)
  let u := UnitRef.msg m.mid
  match rd (.slice n) u c eva (12 * m.b.elems.length) b with
  | (b, .ok d) =>
    let old := exactValues d
    let sat := h.sat || m.b.sat
    let new := List.zipWith (fun (o : Int × Bool) x => if o.2 then ((o.1, false), true) else (exactAdd sat o.1 x, false)) old m.b.elems
    let sats := (new.filter (fun e => e.1.2)).length
    let hdr := bucketHeader m.lrow (sat || decide (0 < sats)) (min (h.occ + m.b.occ) 0xFFFFFFFF)
    let bytes (x : Int) : List PByte := clean (toLe 12 (ofSigned 96 x))
    let outs := if new.any (·.2) then
        ((List.range new.length).zip new).filterMap (fun e =>
          if e.2.2 then none else some (eva + 12 * e.1, bytes e.2.1.1))
      else [(eva, new.flatMap (fun e => bytes e.1.1))]
    match wrAll (.slice n) u c ((va, clean hdr) :: outs) b with
    | (b, .ok) =>
      let b := countProbes c.ctx probes b
      let b := if new.any (·.2) then
          -- the bucket goes back with its poisoned sectors still poisoned (R389, R390)
          (fun b => bump Ctr.poisonWritten c.ctx (poisonCount eva d) b) <| raise { cause := 0x12, ctx := some c.ctx, unit := 3, inst := n, detail := poisonSource c eva b, detail2 := eva } b
        else b
      placed n m sats b
    | (b, .fail _) => unplaced n m va (countProbes c.ctx probes b)
    | (b, .badMeta) => unplaced n m va (countProbes c.ctx probes b)
    | (b, .fault) => b
    | (b, .wait) => b
  | (b, .fail _) => unplaced n m eva (countProbes c.ctx probes b)
  | (b, .badMeta) => unplaced n m eva (countProbes c.ctx probes b)
  | (b, .fault) => b
  | (b, .wait) => b

/-- Hand a message's record to slice 0 (R162). -/
def toLog (n : Nat) (m : SMsg) (t : Captured) (b : Blk) : Blk :=
  let r : LogRec := { ctx := m.b.ctx, table := m.b.table, lrow := m.lrow, chunk := m.b.chunk, occ := m.b.occ, sat := m.b.sat,
                      elems := m.b.elems, msg := some m, mode := 1, slice := n, base := t.overBase, bytes := t.overBytes }
  dropMsg n m.mid { b with gs := { b.gs with logq := b.gs.logq ++ [r] } }

/-! ### The run buffer -/

/-- Order of a run (R164). -/
def RunEnt.before (a c : RunEnt) : Bool :=
  decide (tabKey a.ctx a.table < tabKey c.ctx c.table)
    || (tabKey a.ctx a.table == tabKey c.ctx c.table
        && (decide (a.lrow < c.lrow) || (a.lrow == c.lrow && decide (a.chunk ≤ c.chunk))))

def insertRun (x : RunEnt) : List RunEnt → List RunEnt
  | [] => [x]
  | y :: t => if x.before y then x :: y :: t else y :: insertRun x t

/-- Write a slice's run buffer out: a run to the log of each table, each led by a record of its length (R164). -/
def flushRun (n : Nat) (b : Blk) : Blk :=
  let x := b.slice n
  let es := x.run.foldl (fun a e => insertRun e a) []
  let keys := (es.map (fun e => (e.ctx, e.table))).eraseDups
  let recs := keys.flatMap (fun k =>
    let mine := es.filter (fun e => e.ctx = k.1 && e.table = k.2)
    let h := mine.headD default
    ({ ctx := k.1, table := k.2, lrow := 0, chunk := 15, occ := mine.length, sat := false, elems := [], msg := none, mode := 0,
       slice := n, base := h.base, bytes := h.bytes } : LogRec)
      :: mine.map (fun e => { ctx := k.1, table := k.2, lrow := e.lrow, chunk := e.chunk, occ := e.occ, sat := e.sat, elems := e.elems,
                              msg := none, mode := 0, slice := n, base := e.base, bytes := e.bytes }))
  let b := keys.foldl (fun b k => bump Ctr.gsRuns k.1 1 b) b
  { b.setSlice n { x with run := [] } with gs := { (b.setSlice n { x with run := [] }).gs with logq := b.gs.logq ++ recs } }

/-- RUN_BUFFER_TIMER (R164): the oldest entry has waited 4,096 GS cycles. -/
def effRunBufferTimer (n : Nat) (b : Blk) : Blk :=
  if (b.slice n).run.any (fun e => e.since + 4096 ≤ b.clk.gs) then flushRun n b else b

/-- Add a message to the run buffer (R164); while a record of its run waits for a full log, a full buffer takes no more. -/
def addToRun (n : Nat) (m : SMsg) (t : Captured) (b : Blk) : Blk :=
  let x := b.slice n
  let mine (e : RunEnt) : Bool := e.ctx = m.b.ctx && e.table = m.b.table && e.lrow = m.lrow && e.chunk = m.b.chunk
  match x.run.find? mine with
  | some e =>
    let r := exactAddAll (e.sat || m.b.sat) e.elems m.b.elems
    let e' := { e with elems := r.1, occ := min (e.occ + m.b.occ) 0xFFFFFFFF, sat := e.sat || m.b.sat || decide (0 < r.2) }
    placed n m r.2 (b.setSlice n { x with run := x.run.map (fun f => if mine f then e' else f) })
  | none =>
    if x.run.length < 128 then put b
    else if runBlocked b n then b
    else put (flushRun n b)
where
  put (b : Blk) : Blk :=
    let x := b.slice n
    let e : RunEnt := { ctx := m.b.ctx, table := m.b.table, lrow := m.lrow, chunk := m.b.chunk, elems := m.b.elems, occ := m.b.occ,
                        sat := m.b.sat, since := b.clk.gs, base := t.overBase, bytes := t.overBytes }
    placed n m 0 (b.setSlice n { x with run := x.run ++ [e] })

/-! ### Placing -/

/-- The message that a slice serves next: the oldest that is not held and has no earlier one of its row before it. -/
def nextMsg (b : Blk) : List SMsg → List SMsg → Option SMsg
  | _, [] => none
  | seen, m :: t =>
    if b.isParked (.msg m.mid) || (m.late && stepRunning b m.b.ctx m.b.table)
        || seen.any (fun s => s.b.ctx = m.b.ctx && s.b.table = m.b.table && s.lrow = m.lrow && s.usable && m.usable)
    then nextMsg b (seen ++ [m]) t
    else some m

/-- CONTRIB_PLACE (R157, R161, R164). A message that names a slot with ROW_BASE 0 reads nothing and is answered as failed (R86, log
86). -/
def effContribPlace (n : Nat) (b : Blk) : Blk :=
  match nextMsg b [] (b.slice n).inbox with
  | none => b
  | some m =>
    let refuse (b : Blk) : Blk := ackMsg n m 2 0 (dropMsg n m.mid b)
    if !m.usable then refuse b
    else
      let c : Cls := { rt := m.rt, stream := m.stream, ctx := m.b.ctx }
      let u := UnitRef.msg m.mid
      match readHome n n u c m.b.table b with
      | (b, .bad) => refuse b
      | (b, .wait) => b
      | (b, .ok t) =>
        if t.rowBase m.b.slot = 0 then ackMsg n m 1 0 (dropMsg n m.mid b)
        else
        match freezeCheck n u c t m.lrow b with
        | (b, .wait) => b
        | (b, .frozen) =>
          ackMsg n m 0 m.b.occ (dropMsg n m.mid (bump Ctr.gsDropFrozen m.b.ctx m.b.occ b))
        | (b, .free) =>
          if isVisit b m.b.ctx then addToRun n m t b
          else
            match probeArena n u c t m.lrow 32 0 b with
            | (b, .bucket j h probes) => addToBucket n m c t j h probes b
            | (b, .none probes) =>
              toLog n m t (countProbes m.b.ctx probes b)
            | (b, .wait) => b
            | (b, .fail va probes) => unplaced n m va (countProbes m.b.ctx probes b)

/-! ### The overflow log -/

/-- Bytes of a log record (R162). -/
def logRecBytes (r : LogRec) : List Byte :=
  pad16 (toLe 6 r.lrow ++ toLe 1 r.chunk ++ toLe 1 r.elems.length ++ toLe 4 r.occ ++ toLe 1 (boolNat r.sat) ++ toLe 3 0
    ++ r.elems.flatMap (fun x => toLe 12 (ofSigned 96 x)))

/-- What an append comes to. -/
inductive Append where
  | done
  | full (header : Nat)
  | wait
  | fail (va : Nat)
deriving DecidableEq, Repr

/-- Append to the block at hand, or to the one after it (R162, R163). -/
def appendTo (r : LogRec) (c : Cls) : Nat → Blk → Blk × Append
  | 0, b => (b, .wait)
  | k + 1, b =>
    let u := UnitRef.log r.ctx r.table
    let st := b.log r.ctx r.table
    let blk := if st.block = 0 then r.base else st.block
    let size := if st.block = 0 then r.bytes else st.size
    let bytes := logRecBytes r
    match rd (.slice 0) u c blk 64 b with
    | (b, .ok h) =>
      let used := field (plain h) 16 8
      let next := field (plain h) 0 8
      if anyPoison h then
        (raise { cause := 0x12, ctx := some r.ctx, unit := 3, detail := poisonSource c blk b, detail2 := blk } b, .full blk)
      else if used + bytes.length + 64 ≤ size then
        match wrAll (.slice 0) u c [(blk + 64 + used, clean bytes), (blk + 16, clean (toLe 8 (used + bytes.length)))] b with
        | (b, .ok) => (b, .done)
        | (b, .fail _) => (b, .fail blk)
        | (b, .badMeta) => (b, .fail blk)
        | (b, .fault) => (b, .wait)
        | (b, .wait) => (b, .wait)
      else if next = 0 then (b, .full blk)
      else
        match wr (.slice 0) u c (next + 16) (clean (toLe 8 0)) b with
        | (b, .ok) => appendTo r c k (b.setLog r.ctx r.table { st with block := next, size := field (plain h) 8 8 })
        | (b, .fail _) => (b, .fail next)
        | (b, .badMeta) => (b, .fail next)
        | (b, .fault) => (b, .wait)
        | (b, .wait) => (b, .wait)
    | (b, .fail _) => (b, .fail blk)
    | (b, .badMeta) => (b, .fail blk)
    | (b, .fault) => (b, .wait)
    | (b, .wait) => (b, .wait)

/-- The next record whose log can take one; a table's records keep their order. -/
def nextLog (b : Blk) : List LogRec → Option LogRec
  | [] => none
  | r :: t => if (b.log r.ctx r.table).full || b.isParked (.log r.ctx r.table) then nextLog b t else some r

/-- Take the first occurrence of a record out of the queue. -/
def dropLog (r : LogRec) (b : Blk) : Blk := { b with gs := { b.gs with logq := b.gs.logq.erase r } }

/-- The log is full (R163): a fault record, an error record and a counter. -/
def logFull (r : LogRec) (c : Cls) (header : Nat) (b : Blk) : Blk :=
  let g : Nat × Nat := match (translate (.slice 0) (.log r.ctx r.table) c header false false b).2 with
    | .ok _ _ seg gran _ => (seg, gran)
    | _ => (0xFF, header / 2 ^ 21)
  let b := b.setLog r.ctx r.table { b.log r.ctx r.table with full := true }
  let b := recordFault (.slice 0) r.ctx true 3 g.1 g.2 (bump Ctr.gsLogFull r.ctx 1 b)
  alert 7 (raise { cause := 0x03, ctx := some r.ctx, unit := 3, inst := 0, detail := r.table } b)

/-- OVERFLOW_APPEND (R162). -/
def effOverflowAppend (b : Blk) : Blk :=
  match nextLog b b.gs.logq with
  | none => b
  | some r =>
    let c : Cls := { ctx := r.ctx }
    match appendTo r c 65536 b with
    | (b, .done) =>
      let b := dropLog r b
      let b := if r.mode = 1 then bump Ctr.gsOverflowRecords r.ctx 1 b else b
      match r.msg with
      | some m => placed r.slice m 0 b
      | none => b
    | (b, .full h) => logFull r c h b
    | (b, .fail va) =>
      match r.msg with
      | some m => unplaced r.slice m va (dropLog r b)
      | none => raise { cause := 0x0E, ctx := some r.ctx, unit := 3, inst := 0, detail := farAddr c va b, detail2 := 1 } (dropLog r b)
    | (b, .wait) => b

def execContrib (s : State) : Host.Outcome State Fault Refusal := fireReady true effContrib s
def execContribPlace (n : Nat) (s : State) : Host.Outcome State Fault Refusal := fireReady (n < 64) (effContribPlace n) s
def execOverflowAppend (s : State) : Host.Outcome State Fault Refusal := fireReady true effOverflowAppend s
def execRunBufferTimer (n : Nat) (s : State) : Host.Outcome State Fault Refusal := fireReady (n < 64) (effRunBufferTimer n) s
def execAckTimer (n : Nat) (s : State) : Host.Outcome State Fault Refusal := fireReady (n < 64) (effAckTimer n) s

end Sys2Proof.Machine
end

