-- ==== Sys2Proof/Machine/Tree.lean ====
section
/-! DEFINITION. Replica refresh along a multicast tree: branches (R317, R318, R320), the count of acknowledgements (R319), the
refresh markers of R196, and what a refresh invalidates (R99, R121). -/
namespace Sys2Proof.Machine

/-! ### The tree -/

/-- Entry of a multicast group (R317): PORTS [63:0], DIES [67:64], VALID [68]. A group beyond the table has no entry. -/
def groupEntry (b : Blk) (g : Nat) : Nat := if g < 4096 then b.ridge.mcast.get 0 g else 0

/-- A sub-port that carries a refresh, or will (R299, R320). -/
def treePortOk (b : Blk) (s : Nat) : Bool :=
  let x := b.port_ s
  (x.state == .up || x.state == .training) && x.revision != 2

/-- A die to which a copy can be handed over. -/
def treeDieOk (b : Blk) (d : Nat) : Bool :=
  b.diePresent d && ((b.link d).state == .up || (b.link d).state == .training)

/-- The branches of a copy of group `g` at this die, and whether it counts as failed itself (R318). A copy handed over from
another die is for this die alone. At the home, the row itself is current: its own die needs no branch. -/
def treeBranches (b : Blk) (g : Nat) (arrived : Via) (home parted : Bool) : List Branch × Bool :=
  match arrived with
  | .d2d _ => ([{ kind := 0, no := 0, count := 0, failed := false }], false)
  | _ =>
    let e := groupEntry b g
    if !(e.testBit 68) then ([], true)
    else
      let dies := (List.range 4).filter (fun d => e.testBit (64 + d))
      let own : List Branch := if !home && dies.contains b.ident.die then [{ kind := 0, no := 0, count := 0, failed := false }] else []
      let others := (dies.filter (· ≠ b.ident.die)).map (fun d =>
        ({ kind := 1, no := d, count := 0, failed := !(treeDieOk b d) } : Branch))
      let ports := ((List.range 64).filter (fun s => e.testBit s && arrived ≠ .ridge s)).map (fun s =>
        ({ kind := 2, no := s, count := 0, failed := !parted || !(treePortOk b s)
            || b.ridge.declared.any (fun e => e.1 = (b.port_ s).chip) } : Branch))
      let l := own ++ others ++ ports
      (l, l.any (·.failed))

/-- Send one copy on a branch. -/
def sendCopy (g : Nat) (h : PktHdr) (prio : Nat) (m : RefreshB) (b : Blk) (x : Branch) : Blk :=
  let e := encMsg (.refresh m)
  if x.failed then b
  else if x.kind = 1 then d2dSend x.no { ptype := e.1, vc := d2dVc e.1, body := e.2, prio := prio } b
  else if x.kind = 2 then
    watch (b.port_ x.no).chip (ridgeQueue { h := { h with mcast := true, dst := g }, body := e.2, port := some x.no } b)
  else b

/-! ### Counting -/

/-- The least of the branch counts: a failed branch counts every row (R320). -/
def RefreshAgg.least (a : RefreshAgg) : Nat :=
  a.branches.foldl (fun n x => if x.failed then n else min n x.count) a.rows

def sameTree (chip die tag : Nat) (a : RefreshAgg) : Bool := a.chip = chip && a.die = die && a.tag = tag

def findTree (b : Blk) (chip die tag : Nat) : Option RefreshAgg := b.ridge.agg.find? (sameTree chip die tag)

def putTree (a : RefreshAgg) (b : Blk) : Blk :=
  { b with ridge := { b.ridge with
      agg := if b.ridge.agg.any (sameTree a.chip a.die a.tag) then
          b.ridge.agg.map (fun e => if sameTree a.chip a.die a.tag e then a else e)
        else b.ridge.agg ++ [a] } }

def dropTree (a : RefreshAgg) (b : Blk) : Blk :=
  { b with ridge := { b.ridge with agg := b.ridge.agg.filter (fun e => !(sameTree a.chip a.die a.tag e)) } }

/-- A new (source, TAG) has an entry, or there is room for one (R319). -/
def treeRoom (b : Blk) (chip die tag : Nat) : Bool :=
  (findTree b chip die tag).isSome || decide (b.ridge.agg.length < 256)

/-- REFRESH_ACK upstream, the way the copies came (R319). On the Ridge it is addressed to the die at the other end of the
sub-port (DEDUCED, log 33). -/
def sendRefreshAck (a : RefreshAgg) (n : Nat) (b : Blk) : Blk :=
  let e := encMsg (.refreshAck a.tag n a.failed)
  let prio := if a.rt then a.stream else 8
  match a.via with
  | .local => b
  | .d2d p => d2dSend p { ptype := e.1, vc := d2dVc e.1, body := e.2, prio := prio } b
  | .ridge sp =>
    let s := b.port_ sp
    ridgeQueue { h := { ptype := e.1, vc := ridgeVc e.1, len := (pad16 e.2).length / 16, dst := chipDie s.chip s.die,
                        src := chipDie b.ident.chip b.ident.die, part := a.part, rt := a.rt, stream := a.stream },
                 body := e.2, port := some sp } b

/-- Acknowledge what has risen: at 64 rows, or when `timer` says so (R319). -/
def treeProgress (timer : Bool) (a : RefreshAgg) (b : Blk) : Blk :=
  let n := a.least - a.acked
  if a.op.isSome then putTree a b
  else if 64 ≤ n ∨ (timer = true ∧ 0 < n) then
    let a' := { a with acked := a.least }
    let b := sendRefreshAck a n b
    if a'.acked = a'.rows then dropTree a' b else putTree a' b
  else putTree a b

/-- Change an entry, and note when its least count rises. -/
def bumpTree (f : RefreshAgg → RefreshAgg) (a : RefreshAgg) (b : Blk) : Blk :=
  let a' := f a
  treeProgress false (if a.least < a'.least then { a' with since := b.clk.core } else a') b

/-- A copy joins its tree and goes down every branch (R318); the entry counts one more row. -/
def treeCopy (g : Nat) (h : PktHdr) (via : Via) (op : Option Nat) (parted : Bool) (m : RefreshB) (b : Blk) : Blk :=
  let prio := if h.rt then h.stream else 8
  let a := match findTree b m.srcChip m.srcDie m.tag with
    | some a => a
    | none =>
      let br := treeBranches b g via op.isSome parted
      { chip := m.srcChip, die := m.srcDie, tag := m.tag, via := via, rows := 0, acked := 0, since := b.clk.core,
        branches := br.1, failed := br.2, op := op, rt := h.rt, stream := h.stream, part := h.part }
  a.branches.foldl (sendCopy g h prio m) (putTree { a with rows := a.rows + 1 } b)

/-- Branches fail: every row of them counts as acknowledged, and FAILED is set (R320). -/
def failBranches (hit : Branch → Bool) (b : Blk) : Blk :=
  b.ridge.agg.foldl (fun b a =>
    if a.branches.any (fun x => hit x && !x.failed) then
      bumpTree (fun a => { a with failed := true, branches := a.branches.map (fun x => if hit x then { x with failed := true } else x) })
        a b
    else b) b

/-- The home's tree has every acknowledgement (R198). -/
def RefreshAgg.done (a : RefreshAgg) : Bool := a.closed && a.least == a.rows

/-- The tree of an operator of this die, if it has one. -/
def treeOf (b : Blk) (op : Nat) : Option RefreshAgg := b.ridge.agg.find? (fun a => a.op = some op)

/-- No more rows will be sent. -/
def closeTree (op : Nat) (b : Blk) : Blk :=
  { b with ridge := { b.ridge with agg := b.ridge.agg.map (fun a => if a.op = some op then { a with closed := true } else a) } }

/-! ### The home -/

/-- The home refreshes one row: one copy into its own die's entry (R197, R318). -/
def refreshRow (op : Nat) (c : Cls) (t : Captured) (row : Nat) (bytes : List Byte) (b : Blk) : Blk :=
  let m : RefreshB := { ctx := c.ctx, slot := t.slot, table := t.table, tag := op % 2 ^ 32, row := row, srcChip := b.ident.chip,
                        srcDie := b.ident.die, data := bytes }
  let h : PktHdr := { ptype := 0x14, vc := ridgeVc 0x14, len := (pad16 (encMsg (.refresh m)).2).length / 16, dst := 0,
                      src := chipDie b.ident.chip b.ident.die, part := b.ctxPartId c.ctx, rt := c.rt, stream := c.stream }
  let b := charge 8 1 (some c.ctx) none (bump Ctr.upRefreshRows c.ctx 1 b)
  treeCopy t.group h .local (some op) (b.ctxSlot c.ctx).isSome m b

/-- What looking for a refresh marker finds (R196). -/
inductive Marker where
  | marked
  | unmarked
  | wait
  | fail (s : Status)
  | badMeta
deriving DecidableEq, Repr

/-- Probe for a marker: a VALID bucket of the row, whatever its SLOT and INDEX (R196). -/
def markerFrom (rq : Rq) (u : UnitRef) (c : Cls) (t : Captured) (row : Nat) : Nat → Nat → Blk → Blk × Marker
  | 0, _, b => (b, .unmarked)
  | n + 1, k, b =>
    match rdMeta rq u c (t.repDir + 128 + 16 * (k % 2 ^ t.repLog2)) 16 b with
    | (b, .ok d) =>
      let w := le (plain d)
      if w % 2 ^ 64 = 0 then (b, .unmarked)
      else if w.testBit 50 && bitsOf w 47 0 == row then (b, .marked)
      else markerFrom rq u c t row n (k + 1) b
    | (b, .fault) => (b, .wait)
    | (b, .wait) => (b, .wait)
    | (b, .fail s) => (b, .fail s)
    | (b, .badMeta) => (b, .badMeta)

/-- A home with no directory, or no group, refreshes nothing (R196). -/
def Captured.refreshes (t : Captured) : Bool := t.repDir != 0 && t.group != 0xFFFF

def findMarker (rq : Rq) (u : UnitRef) (c : Cls) (t : Captured) (row : Nat) (b : Blk) : Blk × Marker :=
  if t.refreshes then markerFrom rq u c t row 16 (mix64 (BitVec.ofNat 64 row)).toNat b else (b, .unmarked)

/-- This chip's first place in a chip set (R189). -/
def chipPlace (b : Blk) (t : Captured) (l : List Byte) : Nat :=
  ((List.range t.k).find? (fun i => field l (2 * i) 2 % 16384 = b.ident.chip)).getD 0

/-- The table-global index of a die-local row of this die: R73 turned over (R189). -/
def globalRow (b : Blk) (t : Captured) (pos lrow : Nat) : Nat :=
  let q := t.dieFirst b.ident.die + lrow
  let r := if t.mix then (pos + t.k - (mix64 (BitVec.ofNat 64 q)).toNat % t.k) % t.k else pos
  q * t.k + r

/-- Die-local rows of this die (R73). -/
def dieRows (b : Blk) (t : Captured) : Nat :=
  let d := b.ident.die
  if t.dies ≤ d then 0
  else (if d + 1 < t.dies then t.dieFirst (d + 1) else ceilDiv t.rows t.k) - t.dieFirst d

/-- A pitch drops every window key and buffered level of a table (R99, R121). -/
def invalidateTable (ctx table : Nat) (b : Blk) : Blk :=
  { b with pitches := b.pitches.map (fun e => (e.1, { e.2 with
      window := e.2.window.filter (fun w => !(w.ctx = ctx && w.table = table)),
      grid := e.2.grid.filter (fun w => !(w.ctx = ctx && w.table = table)) })) }

/-- The row bytes and zeros up to the stride (R70, R197). -/
def strideBytes (t : Captured) (l : List Byte) : List Byte := padTo t.stride (l.take t.rowBytes)

end Sys2Proof.Machine
end

