-- ==== Sys2Proof/Machine/Recur.lean ====
section
/-! DEFINITION. The arithmetic of STEP and PRECOND: statistics (R179, R181), the scale (R182), the coefficient table (R183,
R184), the recurrence (R185), requantisation (R189 to R191) and the factorisation (R194). -/
namespace Sys2Proof.Machine

/-! ### Helpers -/

/-- The FP32 patterns of `n` elements of `l` from a byte offset. -/
def f32At (l : List Byte) (off n : Nat) : List W32 := (valuesAt l off 4 n).map (BitVec.ofNat 32)

def f32Bytes (l : List W32) : List Byte := l.flatMap (fun x => toLe 4 x.toNat)

def f32Zero : W32 := 0
def f32One : W32 := 0x3F800000#32

/-- Square root in FP64. -/
def f64sqrt (a : W64) : W64 := to64 [a] ((rd64 a).sqrt 55)

/-- The quotient of two FP64 values, rounded once to FP32 (R182, R185; DEDUCED, log 23). -/
def f64quot32 (a d : W64) : W32 := to32 [a.truncate 32, d.truncate 32] ((rd64 a).div 26 (rd64 d))

def f64one : W64 := 0x3FF0000000000000#64

/-- A count in FP64: exact below 2^53. -/
def f64OfNat (n : Nat) : W64 := to64 [] (Fp.ofInt n)

/-- a < d, false with a NaN. -/
def f32lt (a d : W32) : Bool := (rd32 a).lt (rd32 d)

/-- IEEE 754-2019 minimum and maximum of two values that are not NaN: −0 is below +0. -/
def f32min (a d : W32) : W32 :=
  if (rd32 a).isZero && (rd32 d).isZero then (if a.msb then a else d) else if f32lt d a then d else a
def f32max (a d : W32) : W32 :=
  if (rd32 a).isZero && (rd32 d).isZero then (if a.msb then d else a) else if f32lt a d then d else a

/-! ### Exact statistics -/

/-- The final gradient of an exact sum (R177). -/
def finalGrad (q : Int) (x : Int) : W32 := to32 [] (Fp.ofInt x q)

/-- gf² in units of 2^(2 × ACC_EXP): exact, as every gf is a multiple of 2^ACC_EXP (R179). -/
def sqUnits (q : Int) (g : W32) : Nat :=
  match rd32 g with
  | .fin _ m e =>
    let r := if q ≤ e then m * 2 ^ (e - q).toNat else m / 2 ^ (q - e).toNat
    r * r
  | _ => 0

/-- An exact sum of squares over a count, rounded once to FP32 (R179). -/
def meanSq (q : Int) (n d : Nat) : W32 := to32 [] (((Fp.fin false n (2 * q)).div 26) (Fp.ofInt d))

/-- An exact sum of squares, rounded once to FP64. -/
def sumSq64 (q : Int) (n : Nat) : W64 := to64 [] (.fin false n (2 * q))

/-- One element of the Gram matrix: panels of 128 rows enter acc in order, from +0 (R125, R181). -/
def gramElem (ca cb : List W32) : W32 :=
  (List.zip (pieces 128 ca) (pieces 128 cb)).foldl (fun acc p => f32add acc (dotF p.1 p.2)) f32Zero

/-- The Gram matrix of N final gradients of `dim` elements, row-major. -/
def gramMatrix (dim : Nat) (gs : List (List W32)) : List W32 :=
  let cols := transposed dim gs
  cols.flatMap (fun a => cols.map (gramElem a))

/-! ### The coefficient table -/

structure Coef where
  gscale : W32
  clip : W32
  lambda : W32
  wd : W32
  b1 : W32
  a1 : W32
  b2 : W32
  a2 : W32
  eps : W32
  lr : W32
  mc : W32
  vc : W32
  gmix : W32
  trMin : W32
  trMax : W32
  pcKeep : W32
  mode : Nat
deriving DecidableEq, Repr, Inhabited

/-- Read a coefficient table (R183). -/
def parseCoef (l : List Byte) : Coef :=
  let f (i : Nat) : W32 := BitVec.ofNat 32 (field l (4 * i) 4)
  { gscale := f 0, clip := f 1, lambda := f 2, wd := f 3, b1 := f 4, a1 := f 5, b2 := f 6, a2 := f 7, eps := f 8, lr := f 9,
    mc := f 10, vc := f 11, gmix := f 12, trMin := f 13, trMax := f 14, pcKeep := f 15, mode := field l 64 4 }

def Coef.second (c : Coef) : Nat := c.mode % 4
def Coef.momentum (c : Coef) : Bool := c.mode.testBit 2
def Coef.precond (c : Coef) : Bool := c.mode.testBit 3
def Coef.trust (c : Coef) : Bool := c.mode.testBit 4
def Coef.byRow (c : Coef) : Bool := c.second == 1 || c.second == 2

/-- The mode word agrees with the table (R184). That the reserved bytes 68 to 127 of the coefficient table must be zero too is the
model's choice: R184 speaks of the mode word alone, and R8 of descriptors and dictionary writes (DESIGN CHOICE, log 90). -/
def coefOk (l : List Byte) (t : Captured) : Bool :=
  let c := parseCoef l
  t.rowTensors == boolNat c.momentum + boolNat (c.second == 3)
    && t.rowScalar == c.byRow && t.colState == (c.second == 2)
    && !(c.precond && t.precond == 0) && decide (c.mode < 32) && zeroAt l 68 60

/-- σ and s of R182. -/
def scaleOf (c : Coef) (s0 : W64) : W32 × W32 :=
  let g := f32to64 c.gscale
  let n := f64mul (f64sqrt s0) (g &&& 0x7FFFFFFFFFFFFFFF#64)
  let clip := f32to64 c.clip
  let sigma := if f32lt f32Zero c.clip && (rd64 clip).lt (rd64 n) then f64quot32 clip n else f32One
  (sigma, f32mul c.gscale sigma)

/-! ### The recurrence -/

/-- A row's state: tensors and row scalar. -/
structure RowState where
  m : List W32
  v : List W32
  vr : W32
deriving DecidableEq, Repr, Inhabited

/-- Bytes of a tensor element, and of a row's state (R64). -/
def Captured.tensorBytes (t : Captured) : Nat := if t.tensorBf16 then 2 else 4
def Captured.stateBytes (t : Captured) : Nat := t.rowTensors * t.dim * t.tensorBytes + (if t.rowScalar then 4 else 0)

/-- Tensor `i` of a row's state. -/
def tensorAt (t : Captured) (l : List Byte) (i : Nat) : List W32 :=
  let off := i * t.dim * t.tensorBytes
  if t.tensorBf16 then (valuesAt l off 2 t.dim).map b16to32 else f32At l off t.dim

def readState (t : Captured) (c : Coef) (l : List Byte) : RowState :=
  { m := if c.momentum then tensorAt t l 0 else [],
    v := if c.second = 3 then tensorAt t l (boolNat c.momentum) else [],
    vr := if t.rowScalar then BitVec.ofNat 32 (field l (t.rowTensors * t.dim * t.tensorBytes) 4) else 0 }

/-- Tensor elements are never rounded stochastically (R184, R191). -/
def stateOut (t : Captured) (s : RowState) : List Byte :=
  (s.m ++ s.v).flatMap (fun x => if t.tensorBf16 then toLe 2 (f32toB16 x) else toLe 4 x.toNat)
    ++ (if t.rowScalar then toLe 4 s.vr.toNat else [])

/-- Forward substitution, then back substitution with the transpose; each dot by R125 (R185). `z` holds what is solved, and the
elements of a dot keep their places in the row (DEDUCED, log 24). -/
def forwardSub (dim : Nat) (lm u : List W32) : List W32 :=
  (List.range dim).foldl (fun z j =>
    z ++ [f32div (f32sub (u.getD j 0) (f32add f32Zero (dotF ((lm.drop (j * dim)).take j) z))) (lm.getD (j * dim + j) 0)]) []

def backSub (dim : Nat) (lm z : List W32) : List W32 :=
  (List.range dim).foldl (fun w i =>
    let j := dim - 1 - i
    let col := (List.range dim).map (fun k => if j < k then lm.getD (k * dim + j) 0 else 0)
    let full := List.replicate (j + 1) f32Zero ++ w
    f32div (f32sub (z.getD j 0) (f32add f32Zero (dotF col full))) (lm.getD (j * dim + j) 0) :: w) []

def solve (dim : Nat) (lm u : List W32) : List W32 := backSub dim lm (forwardSub dim lm u)

/-- ‖x‖ in FP64, squares summed in ascending order (R185). -/
def norm64 (x : List W32) : W64 := f64sqrt ((x.map f32to64).foldl (fun a e => f64add a (f64mul e e)) 0)

/-- The trust ratio (R185). Clamping to an empty range has no stated result (Config.clampNan); a NaN bound propagates (R183). -/
def trustRatio (c : Coef) (x u : List W32) : W32 :=
  let nx := norm64 x
  let nu := norm64 u
  if (rd64 nx).isZero || (rd64 nu).isZero then f32One
  else
    let r := f64quot32 nx nu
    let bad := [r, c.trMin, c.trMax].any (fun v => rd32 v == .nan)
    if bad then to32 [r, c.trMin, c.trMax] .nan
    else if f32lt c.trMax c.trMin then Config.clampNan [r, c.trMin, c.trMax]
    else if f32lt r c.trMin then c.trMin
    else if f32lt c.trMax r then c.trMax
    else r

/-- What phase two fixes before the first row (R185). -/
structure StepFix where
  c : Coef
  s : W32
  s2 : W32
  col : List W32
  cbar : W32
  lm : Option (List W32)
deriving DecidableEq, Repr, Inhabited

/-- c̄: an FP64 sum in ascending order, divided and rounded once. -/
def meanOf (col : List W32) (dim : Nat) : W32 :=
  f64quot32 ((col.map f32to64).foldl f64add 0) (f64OfNat dim)

/-- Element i of the second moment's divisor, with v_r already new. -/
def divisor (f : StepFix) (vr : W32) (v : List W32) (i : Nat) : W32 :=
  let root (x : W32) : W32 := f32add (f32sqrt (f32mul f.c.vc x)) f.c.eps
  match f.c.second with
  | 0 => f32One
  | 1 => root vr
  | 2 => root (if f32lt f32Zero f.cbar then f32div (f32mul vr (f.col.getD i 0)) f.cbar else f32Zero)
  | _ => root (v.getD i 0)

/-- One row of the recurrence: new elements and new state (R185). -/
def rowUpdate (f : StepFix) (dim : Nat) (gf : List W32) (rm : W32) (x : List W32) (st : RowState) : List W32 × RowState :=
  let c := f.c
  let g := gf.map (f32mul f.s)
  let vr := if c.byRow then f32fma c.a2 (f32mul f.s2 rm) (f32mul c.b2 st.vr) else st.vr
  let m := if c.momentum then List.zipWith (fun gi mi => f32fma c.a1 gi (f32mul c.b1 mi)) g st.m else []
  let nu := if c.momentum then List.zipWith (fun gi mi => f32fma c.gmix gi (f32mul c.mc mi)) g m else g.map (f32mul c.gmix)
  let v := if c.second = 3 then List.zipWith (fun gi vi => f32fma c.a2 (f32mul gi gi) (f32mul c.b2 vi)) g st.v else []
  let u0 := (List.range dim).map (fun i => f32div (nu.getD i 0) (divisor f vr v i))
  let u := match f.lm with
    | some lm => solve dim lm u0
    | none => u0
  let eta := f32mul c.lr (if c.trust then trustRatio c x u else f32One)
  let lw := f32mul c.lr c.wd
  (List.zipWith (fun xi ui => f32sub (f32sub xi (f32mul eta ui)) (f32mul lw xi)) x u, { m := m, v := v, vr := vr })

/-! ### Requantisation -/

/-- R189. -/
def srBits (table row elem step : Nat) : Nat :=
  let a := mix64 (BitVec.ofNat 64 step ^^^ BitVec.ofNat 64 (table * 2 ^ 52))
  (mix64 (a ^^^ BitVec.ofNat 64 row ^^^ BitVec.ofNat 64 (elem * 2 ^ 48))).toNat

/-- A directed rounding to FP16; one that passes 65,504 gives that value with its sign (R190). -/
def fp16Dir (rm : Rm) (x : W32) : Nat × Bool :=
  match rd32 x with
  | .fin neg m e =>
    let sign := if neg then fmt16.signPat else 0
    if m = 0 then (sign, false)
    else
      let p := roundRaw (1 - fmt16.bias) fmt16.mb rm neg m e
      if p < fmt16.infPat then (sign + p, false) else (sign + fmt16.maxPat, true)
  | .inf neg => ((if neg then fmt16.signPat else 0) + fmt16.maxPat, true)
  | .nan => (nanF16 x, false)

/-- One code (R190). -/
def codeOf (qmax : Nat) (tq : W32) (bits : Nat) : Nat :=
  match rd32 tq with
  | .inf neg => if neg then 0 else qmax
  | .nan => 0
  | y =>
    let k := (y.add (.fin false (bits / 2 ^ 40) (-24))).floorInt
    (max 0 (min k qmax)).toNat

/-- The codes and trailer of a row, and whether it saturated (R190). -/
def requantise (table row step qmax : Nat) (xn : List W32) : List Nat × List Byte × Bool :=
  let lo := xn.foldl f32min (xn.headD 0)
  let hi := xn.foldl f32max (xn.headD 0)
  let o := fp16Dir .down lo
  let o2 := f16to32 o.1
  let s := fp16Dir .up (f32div (f32sub hi o2) (to32 [] (Fp.ofInt qmax)))
  let s2 := f16to32 s.1
  let qs := (List.range xn.length).map (fun i =>
    if (rd32 s2).isZero then 0
    else codeOf qmax (f32div (f32sub (xn.getD i 0) o2) s2) (srBits table row i step))
  (qs, toLe 2 s.1 ++ toLe 2 o.1, o.2 || s.2)

/-- One BF16 element, and whether a finite value became infinite (R191). -/
def bf16Out (sr : Bool) (bits : Nat) (x : W32) : Nat × Bool :=
  let p := if sr then (x + BitVec.ofNat 32 (bits / 2 ^ 48)).toNat / 65536 else f32toB16 x
  if p % 32768 = fmtB16.infPat ∧ (rd32 x).finite = true then (p / 32768 * 32768 + fmtB16.maxPat, true) else (p, false)

/-- Two INT4 codes to a byte (R69). -/
def packNibbles : List Nat → List Byte
  | a :: c :: t => BitVec.ofNat 8 (a + 16 * c) :: packNibbles t
  | _ => []

/-- The bytes of an updated row, and whether R190 or R191 saturated it. How a lattice-format row is written back, no rule says:
its bytes are free (DEDUCED, log 25). -/
def rowOut (t : Captured) (row step stamp : Nat) (xn : List W32) : List Byte × Bool :=
  match t.fmt with
  | 0 => (f32Bytes xn, false)
  | 1 =>
    let r := (List.range xn.length).map (fun i => bf16Out t.bf16Sr (srBits t.table row i step) (xn.getD i 0))
    (r.flatMap (fun e => toLe 2 e.1), r.any (·.2))
  | 2 =>
    let r := requantise t.table row step 255 xn
    (r.1.map (BitVec.ofNat 8) ++ r.2.1, r.2.2)
  | 3 =>
    let r := requantise t.table row step 15 xn
    (packNibbles r.1 ++ r.2.1, r.2.2)
  | _ => ((List.range t.rowBytes).map (Config.undefByte stamp), false)

/-- A row's current elements (R185). -/
def rowElems (t : Captured) (d : List PByte) : List W32 :=
  let r := rowVals t.fmt t.dim d
  if r.codes then r.x.map (fun q => f32fma r.s q r.o) else r.x

/-! ### The preconditioner -/

/-- The diagonal's FP64 sum, rounded once to FP32 (R194). -/
def traceOf (d : Nat) (c : List W32) : W32 :=
  f64to32 (((List.range d).map (fun j => f32to64 (c.getD (j * d + j) 0))).foldl f64add 0)

/-- One column of L; none when its pivot fails (R194). -/
def cholColumn (d : Nat) (c : List W32) (lam thr : W32) (lm : List W32) (j : Nat) : Option (List W32) :=
  let rowOf (i : Nat) : List W32 := (lm.drop (i * d)).take j
  let dot (a e : List W32) : W32 := f32add f32Zero (dotF a e)
  let p := f32sub (f32add (c.getD (j * d + j) 0) lam) (dot (rowOf j) (rowOf j))
  if f32lt thr p then
    let piv := f32sqrt p
    some ((List.range (d - j)).foldl (fun l k =>
      let i := j + k
      if k = 0 then l.set (j * d + j) piv
      else l.set (i * d + j) (f32div (f32sub (c.getD (i * d + j) 0) (dot (rowOf i) (rowOf j))) piv)) lm)
  else none

/-- One attempt. -/
def cholesky (d : Nat) (c : List W32) (lam thr : W32) : Option (List W32) :=
  (List.range d).foldl (fun o j => o.bind (fun lm => cholColumn d c lam thr lm j)) (some (List.replicate (d * d) f32Zero))

/-- Columns of L that an attempt begins. -/
def cholReach (d : Nat) (c : List W32) (lam thr : W32) : Nat :=
  ((List.range d).foldl (fun (s : Option (List W32) × Nat) j =>
    match s.1 with
    | none => s
    | some lm => (cholColumn d c lam thr lm j, s.2 + 1)) (some (List.replicate (d * d) f32Zero), 0)).2

/-- Up to `n` attempts from attempt `k`: the factor, its λ and the attempt that gave it (R194). -/
def factorise (d : Nat) (c : List W32) (thr : W32) : Nat → Nat → W32 → Option (List W32 × W32 × Nat)
  | 0, _, _ => none
  | n + 1, k, lam =>
    match cholesky d c lam thr with
    | some l => some (l, lam, k)
    | none => factorise d c thr n (k + 1) (f32mul 0x40800000#32 (maxNum lam thr))
where
  /-- max of R194: a NaN propagates. -/
  maxNum (a e : W32) : W32 := if rd32 a == .nan || rd32 e == .nan then to32 [a, e] .nan else f32max a e

/-- Columns that `n` attempts of a factorisation begin, in all. -/
def factorReach (d : Nat) (c : List W32) (thr : W32) : Nat → W32 → Nat
  | 0, _ => 0
  | n + 1, lam =>
    match cholesky d c lam thr with
    | some _ => cholReach d c lam thr
    | none => cholReach d c lam thr + factorReach d c thr n (f32mul 0x40800000#32 (factorise.maxNum lam thr))

/-- thr of R194. -/
def pivotFloor (d : Nat) (c : List W32) : W32 := f32mul (pow2 (-20)) (f32div (traceOf d c) (to32 [] (Fp.ofInt d)))

end Sys2Proof.Machine
end

