-- ==== Sys2Proof/Machine/Update.lean ====
section
/-! DEFINITION. STEP (R171 to R191, R201) and PRECOND (R192 to R195). -/
namespace Sys2Proof.Machine

/-! ### The operator -/

def modStep (id : Nat) (f : StepRun → StepRun) (b : Blk) : Blk :=
  b.modDesc id (fun d => match d.work with
    | .step r w => { d with work := .step (f r) w }
    | _ => d)

def Desc.step? (d : Desc) : Option StepRun :=
  match d.work with
  | .step r _ => some r
  | _ => none

/-- LOCAL (R171). -/
def Desc.isLocal (d : Desc) : Bool := (byteAt d.bytes 10).testBit 7

/-- A STEP waits for an earlier STEP or PRECOND on its table: one that is past its wait, or was dispatched before (R174). -/
def stepBlocked (b : Blk) (d : Desc) (table : Nat) : Bool :=
  b.front.descs.any (fun e => e.id != d.id && (b.q e.q).ctx == (b.q d.q).ctx && e.f 8 2 % 4096 == table
    && (match e.step? with
      | some r => r.phase != .wait || decide (e.id < d.id)
      | none => e.stage == .handed && (e.opcode == 0x23 || (e.opcode == 0x22 && decide (e.id < d.id)))))

/-- STEP (R171, R173): it waits for its turn; one that failed its check goes straight to its arrival, if it makes one. -/
def effStep (n : Nat) (b : Blk) : Blk :=
  match handedOf b n [0x22] with
  | none => b
  | some d =>
    let table := d.f 8 2 % 4096
    let w : BarWait := { barrier := d.f 10 1 % 16, gen := d.f 12 4, reduce := 1, count := 4, sentAt := none, own := none }
    if d.statuses.isEmpty then
      startWork d.id (.step { cap := d.tab table } (if d.isLocal then none else some w)) b
    else
      if stepInstanceOk d.bytes && !d.isLocal then
        startWork d.id (.step { cap := { table := table, bytes := [], slot := 0 }, begun := true, abort := true, phase := .one }
          (some w)) b
      else complete d.id b

/-! ### Reads of phase one -/

/-- What a read or a computation of STEP gives. -/
inductive Got (α : Type) where
  | ok (a : α)
  | wait
  | bad (s : Status)
deriving DecidableEq, Repr

/-- An error record of STEP. -/
def stepErr (d : Desc) (cause detail detail2 : Nat) (b : Blk) : Blk := raise (d.err b cause 3 detail detail2) b

/-- Metadata that phase one needs: a poisoned line aborts with TABLE_BUSY (R389). -/
def stepMeta (d : Desc) (va n : Nat) (b : Blk) : Blk × Got (List Byte) :=
  let c := clsOf b d.q
  match rdMeta (.slice 0) (.desc d.id) c va n b with
  | (b, .ok l) => (b, .ok (plain l))
  | (b, .badMeta) => (stepErr d 0x12 (poisonSource c va b) va b, .bad .tableBusy)
  | (b, .fail s) => (stepErr d 0x0E (farAddr c va b) 0 b, .bad s)
  | (b, .fault) => (b, .wait)
  | (b, .wait) => (b, .wait)

/-- Data that phase one needs, with its poison; what cannot be reached aborts (DEDUCED, log 26). -/
def stepData (d : Desc) (va n : Nat) (b : Blk) : Blk × Got (List PByte) :=
  let c := clsOf b d.q
  match rd (.slice 0) (.desc d.id) c va n b with
  | (b, .ok l) => (b, .ok l)
  | (b, .badMeta) => (stepErr d 0x12 (poisonSource c va b) va b, .bad .tableBusy)
  | (b, .fail s) => (stepErr d 0x0E (farAddr c va b) 0 b, .bad s)
  | (b, .fault) => (b, .wait)
  | (b, .wait) => (b, .wait)

/-- The fields that a STEP takes at the start of phase one (R67): FREEZE_ALL, BF16_SR, FREEZE_MAP, COEF and PRECOND. -/
def lateFields (t : Captured) (l : List Byte) : Captured :=
  let flags := (t.flags &&& 0xA) + (byteAt l 3 &&& 0x5)
  { t with bytes := splice (splice t.bytes 3 [BitVec.ofNat 8 flags]) 80 ((l.drop 80).take 24) }

/-- Note what a scan has come to. -/
def modGather (id : Nat) (f : Gather → Gather) (b : Blk) : Blk := modStep id (fun r => { r with gather := f r.gather }) b

/-- Scan `n` buckets from bucket `j` (R177). The scan goes on from the bucket that faulted (R220). -/
def scanArena (d : Desc) (t : Captured) : Nat → Nat → Blk → Blk × Got PUnit
  | 0, _, b => (b, .ok ())
  | n + 1, j, b =>
    let va := bucketAddr t j
    let past (f : Gather → Gather) (b : Blk) : Blk := modStep d.id (fun r => { r with gather := f r.gather, scan := j + 1 }) b
    match stepData d va 16 b with
    | (b, .ok h) =>
      if anyPoison h then scanArena d t n (j + 1) (past (fun g => { g with bad := g.bad ++ [va] }) b)
      else
        let k := parseBucket (plain h)
        if !k.used then scanArena d t n (j + 1) (past (fun g => g) b)
        else
          match stepData d (va + 16) (12 * t.dim) b with
          | (b, .ok e) =>
            let p : StepRow := { lrow := k.lrow, x := (exactValues e).map (·.1), sat := k.sat, occ := k.occ, bucket := some va,
                                 frozen := false, poisoned := anyPoison e }
            scanArena d t n (j + 1) (past (fun g => { g with parts := g.parts ++ [p], used := g.used + 1 }) b)
          | (b, .wait) => (b, .wait)
          | (b, .bad s) => (b, .bad s)
    | (b, .wait) => (b, .wait)
    | (b, .bad s) => (b, .bad s)

/-- The records of one block (R162, R164). A record whose header is poisoned names no row, and hides what follows it in the
block. -/
def parseRecords (dim : Nat) : Nat → List PByte → Gather → Gather
  | 0, _, g => g
  | f + 1, l, g =>
    if l.length < 16 then g
    else
      let h := l.take 16
      if anyPoison h then { g with bad := g.bad ++ [0] }
      else
        let p := plain h
        let n := byteAt p 7
        let size := (16 + 12 * n + 15) / 16 * 16
        let g := { g with recs := g.recs + 1 }
        let g := if n = 0 then g
          else
            let e := (l.drop 16).take (12 * n)
            let lead := List.replicate (64 * (byteAt p 6 % 16)) (0 : Int)
            let x := lead ++ (exactValues e).map (·.1)
            let r : StepRow := { lrow := field p 0 6, x := (x ++ List.replicate (dim - x.length) 0).take dim,
                                 sat := (byteAt p 12).testBit 0, occ := field p 8 4, bucket := none, frozen := false,
                                 poisoned := anyPoison e }
            { g with parts := g.parts ++ [r] }
        parseRecords dim f (l.drop size) g

/-- Walk the log's chain: records are read up to the block at hand `cur`; every block is noted (R162, R177, R186). The walk goes on
from the block that faulted (R220). -/
def scanLog (d : Desc) (dim cur : Nat) : Nat → Nat → Bool → Blk → Blk × Got PUnit
  | 0, _, _, b => (b, .ok ())
  | f + 1, va, live, b =>
    match stepData d va 64 b with
    | (b, .ok h) =>
      let chain (b : Blk) : Blk := modGather d.id (fun g => { g with chain := g.chain ++ [va] }) b
      if anyPoison h then (chain b, .ok ())
      else
        let used := if live then field (plain h) 16 8 else 0
        let next := field (plain h) 0 8
        match (if used = 0 then (b, .ok []) else stepData d (va + 64) used b) with
        | (b, .ok l) =>
          let b := modGather d.id (fun g => parseRecords dim (used / 16 + 1) l { g with logBytes := g.logBytes + used }) (chain b)
          if next = 0 then (b, .ok ())
          else
            scanLog d dim cur f next (live && va != cur)
              (modStep d.id (fun r => { r with logAt := some (next, live && va != cur) }) b)
        | (b, .wait) => (b, .wait)
        | (b, .bad s) => (b, .bad s)
    | (b, .wait) => (b, .wait)
    | (b, .bad s) => (b, .bad s)

/-- Add a part to its row, rows in ascending order (R144, R177). -/
def mergePart (p : StepRow) : List StepRow → List StepRow
  | [] => [p]
  | r :: t =>
    if p.lrow < r.lrow then p :: r :: t
    else if p.lrow = r.lrow then
      let a := exactAddAll (r.sat || p.sat) r.x p.x
      { r with x := a.1, sat := r.sat || p.sat || decide (0 < a.2), occ := min (r.occ + p.occ) 0xFFFFFFFF,
               bucket := if r.bucket.isSome then r.bucket else p.bucket, poisoned := r.poisoned || p.poisoned } :: t
    else r :: mergePart p t

def mergeParts (l : List StepRow) : List StepRow := l.foldl (fun rs p => mergePart p rs) []

/-- Rows in which adding the parts together saturated an element (R144). -/
def saturatedRows (l : List StepRow) : List Nat :=
  (l.foldl (fun (s : List StepRow × List Nat) p =>
    let hit := match s.1.find? (fun r => r.lrow = p.lrow) with
      | some r => decide (0 < (exactAddAll (r.sat || p.sat) r.x p.x).2)
      | none => false
    (mergePart p s.1, if hit then s.2 ++ [p.lrow] else s.2)) ([], [])).2

/-- The sort area is undefined after any STEP (R180), as far as it lies in this die's memory or in the host's. -/
def forgetSort (d : Desc) (b : Blk) : Blk :=
  if d.f 24 8 = 0 then b
  else
    let c := clsOf b d.q
    (partsOf (d.f 24 8) (d.f 32 8)).foldl (fun b p =>
      match (translate (.slice 0) (.desc d.id) c p.1 true false b).2 with
      | .ok pa host _ _ _ =>
        if host then
          if b.straps.lead then { b with hostMem := b.hostMem.forget pa p.2 b.stamp, stamp := b.stamp + 1 } else b
        else if b.isSelf pa then { b with mem := b.mem.forget (paOff pa) p.2 b.stamp, stamp := b.stamp + 1 } else b
      | _ => b) b

/-- The touched rows are sorted in the first `n` bytes of the sort area: what is written there is undefined, and a fault parks the
phase (R180, R220). -/
def sortArea (d : Desc) (n : Nat) (b : Blk) : Blk × Wr :=
  let c := clsOf b d.q
  let ps := partsOf (d.f 24 8) n
  match wrTrans (.slice 0) (.desc d.id) c ps b with
  | (b, .ok, l) =>
    (l.zip ps).foldl (fun (s : Blk × Wr) e =>
      let b := s.1
      let pa := e.1.1
      if s.2 ≠ .ok then s
      else if (!e.1.2.1 && b.isSelf pa) || (e.1.2.1 && b.straps.lead && b.host.state = 0) then s
      else
        let data : List PByte := (List.range e.2.2).map (fun i => (Config.undefByte b.stamp i, false))
        match writePhys (.desc d.id) (c.biased e.1.2.1 e.1.2.2) pa data e.1.2.1 { b with stamp := b.stamp + 1 } with
        | (b, .ok) => (b, .ok)
        | (b, .wait) => (b, .wait)
        | (b, .fail s) => (b, .fail s)) (forgetSort d b, .ok)
  | (b, r, _) => (b, r)

/-! ### Phase one -/

/-- Phase one ends with an abort vote; nothing it would add to the sums is known, and it contributes zeros (DEDUCED, log 27). -/
def voteAbort (id : Nat) (s : Status) (b : Blk) : Blk :=
  addStatus id s (modStep id (fun r => { r with phase := .one, begun := true, abort := true, todo := [] }) b)

/-- Every message of the table received before phase one began is placed (R176). -/
def accumPlaced (b : Blk) (ctx table : Nat) : Bool :=
  !((List.range b.sliceCount).any (fun n => (b.slice n).inbox.any (fun m =>
      m.usable && !m.late && m.b.ctx == ctx && m.b.table == table)))
    && !(b.gs.logq.any (fun r => r.ctx = ctx && r.table = table))

/-- A run buffer holds entries of the table. -/
def runHolds (b : Blk) (n ctx table : Nat) : Bool := (b.slice n).run.any (fun e => e.ctx = ctx && e.table = table)

/-- Accumulation closes (R164, R176): once the messages are placed, the run buffers that hold entries of the table are written
out. -/
def closeAccum (ctx table : Nat) (b : Blk) : Blk :=
  if accumPlaced b ctx table then
    (List.range b.sliceCount).foldl (fun b n => if runHolds b n ctx table then flushRun n b else b) b
  else b

/-- Nothing of the table is on its way into its arena or log (R164, R176). -/
def accumDrained (b : Blk) (ctx table : Nat) : Bool :=
  accumPlaced b ctx table && !((List.range b.sliceCount).any (fun n => runHolds b n ctx table))

/-- What phase one reads once, at its start (R67, R183, R188, R189): the descriptor's late fields, the coefficient table and the chip
set. -/
def stepFields (id : Nat) (b : Blk) : Blk :=
  match b.desc? id with
  | none => b
  | some d =>
    match d.step? with
    | none => b
    | some r =>
      let c := clsOf b d.q
      let t := r.cap
      match r.got with
      | 0 =>
        match stepMeta d ((ctxHdr b c.ctx).tableDir + 256 * t.table) 256 b with
        | (b, .wait) => b
        | (b, .bad s) => voteAbort id s b
        | (b, .ok l) =>
          let t := lateFields t l
          if t.coef = 0 ∨ (t.precond ≠ 0 ∧ 128 < t.dim) then voteAbort id .malformed b
          else modStep id (fun r => { r with cap := t, got := 1 }) b
      | 1 =>
        match stepMeta d t.coef 128 b with
        | (b, .wait) => b
        | (b, .bad s) => voteAbort id s b
        | (b, .ok coef) =>
          if !(coefOk coef t) then voteAbort id .malformed b else modStep id (fun r => { r with coef := coef, got := 2 }) b
      | 2 =>
        match stepMeta d t.chipset (2 * t.k) b with
        | (b, .wait) => b
        | (b, .bad s) => voteAbort id s b
        | (b, .ok cs) => modStep id (fun r => { r with pos := chipPlace b t cs, got := 3 }) b
      | _ => b

/-- Phase one gathers the touched rows and checks the sort area (R177, R180). -/
def stepGather (id : Nat) (b : Blk) : Blk :=
  match b.desc? id with
  | none => b
  | some d =>
    match d.step? with
    | none => b
    | some r =>
      let c := clsOf b d.q
      let t := r.cap
      let arena := !(isVisit b c.ctx) && t.arenaBase != 0 && decide (6 ≤ t.arenaLog2 ∧ t.arenaLog2 ≤ 30)
      match (if arena then scanArena d t (2 ^ t.arenaLog2 - r.scan) r.scan b else (b, .ok ())) with
      | (b, .wait) => b
      | (b, .bad s) => voteAbort id s b
      | (b, .ok _) =>
        let cur := let st := b.log c.ctx t.table
          if st.block = 0 then t.overBase else st.block
        let at_ := r.logAt.getD (t.overBase, true)
        match (if t.overBase = 0 ∨ r.got = 4 then (b, .ok ()) else scanLog d t.dim cur 65536 at_.1 at_.2 b) with
        | (b, .wait) => b
        | (b, .bad s) => voteAbort id s b
        | (b, .ok _) =>
          let b := modStep id (fun r => { r with got := 4 }) b
          let g := (((b.desc? id).bind Desc.step?).map (·.gather)).getD {}
          let need := 16 * (g.used + g.recs) + g.logBytes
          let rows := mergeParts g.parts
          let finish (b : Blk) : Blk :=
            let b := modStep id (fun r => { r with bad := g.bad, chain := g.chain, touched := rows.length }) b
            let b := (g.bad.filter (· ≠ 0)).foldl (fun b va => stepErr d 0x12 (poisonSource c va b) va b) b
            let b := (rows.filter (·.poisoned)).foldl (fun b r => stepErr d 0x12 0 (r.bucket.getD 0) b) b
            (saturatedRows g.parts).foldl (fun b l => setSticky (ownerSlice b l) c.ctx t.table b) b
          if 0 < g.used + g.recs then
            if d.f 24 8 = 0 ∨ d.f 32 8 < need then
              voteAbort id .tableBusy (bump Ctr.upScratchShort c.ctx 1 (stepErr d 0x05 need 0 (finish b)))
            else
              match sortArea d need b with
              | (b, .ok) => modStep id (fun r => { r with phase := .one, todo := rows }) (finish b)
              | (b, .fail s) => voteAbort id s (stepErr d 0x0E (farAddr c (d.f 24 8) b) 1 (finish b))
              | (b, .badMeta) => voteAbort id .tableBusy (finish b)
              | (b, .fault) => b
              | (b, .wait) => b
          else modStep id (fun r => { r with phase := .one, todo := rows }) (finish b)

/-- FREEZE_ALL and FREEZE_MAP as a slice sees them now (R68, R178); a descriptor that cannot be read well leaves what phase one
captured. -/
def freezeFields (n : Nat) (u : UnitRef) (c : Cls) (t : Captured) (b : Blk) : Blk × Got Captured :=
  match bufTable n n u c t.table b with
  | (b, .ok l) =>
    let p := plain l
    let flags := (t.flags &&& 0xFE) + (byteAt p 3 &&& 0x1)
    (b, .ok { t with bytes := splice (splice t.bytes 3 [BitVec.ofNat 8 flags]) 80 ((p.drop 80).take 8) })
  | (b, .wait) => (b, .wait)
  | (b, .fault) => (b, .wait)
  | (b, _) => (b, .ok t)

/-- The freeze check of every touched row in turn, each as the home block sees it at that moment (R178). -/
def stepFreeze (id : Nat) : Nat → Blk → Blk
  | 0, b => b
  | f + 1, b =>
    match b.desc? id with
    | none => b
    | some d =>
      match d.step? with
      | none => b
      | some r =>
        match r.todo with
        | [] => b
        | x :: rest =>
          let c := clsOf b d.q
          let n := ownerSlice b x.lrow
          match freezeFields n (.desc id) c r.cap b with
          | (b, .wait) => b
          | (b, .bad _) => b
          | (b, .ok t) =>
          match freezeCheck n (.desc id) c t x.lrow b with
          | (b, .wait) => b
          | (b, .free) => stepFreeze id f (modStep id (fun r => { r with todo := rest, rows := r.rows ++ [x] }) b)
          | (b, .frozen) =>
            let b := bump Ctr.upRowsFrozen c.ctx 1 (bump Ctr.upOccFrozen c.ctx x.occ b)
            stepFreeze id f (modStep id (fun r => { r with
              todo := rest, rows := r.rows ++ [{ x with frozen := true }], frozen := r.frozen + 1, occFrozen := r.occFrozen + x.occ }) b)

/-- Rows that enter the statistics: touched, unfrozen, and read without poison (DEDUCED, log 28). -/
def StepRun.live (r : StepRun) : List StepRow := r.rows.filter (fun x => !x.frozen && !x.poisoned)

def StepRun.grads (r : StepRun) (x : StepRow) : List W32 := x.x.map (finalGrad r.cap.accExp)

/-- Exact sum of squares of one row. -/
def StepRun.rowSq (r : StepRun) (x : StepRow) : Nat := (r.grads x).foldl (fun a g => a + sqUnits r.cap.accExp g) 0

/-- R179, R181. -/
def StepRun.statistics (r : StepRun) : StepRun :=
  let q := r.cap.accExp
  let live := r.live
  let gs := live.map r.grads
  let c := parseCoef r.coef
  let colSq (i : Nat) : Nat := gs.foldl (fun a g => a + sqUnits q (g.getD i 0)) 0
  { r with
    begun := true
    n := live.length
    occ := live.foldl (fun a x => a + x.occ) 0
    s0 := sumSq64 q (live.foldl (fun a x => a + r.rowSq x) 0)
    cm := if c.second = 2 ∧ live ≠ [] then (List.range r.cap.dim).map (fun i => meanSq q (colSq i) live.length) else []
    gm := if c.precond then gramMatrix r.cap.dim gs else [] }

/-- PHASE_ONE (R176 to R181): it goes as far as it can. -/
def effPhaseOne (id : Nat) (b : Blk) : Blk :=
  match b.desc? id with
  | none => b
  | some d =>
    match d.step? with
    | none => b
    | some r =>
      if r.begun || b.isParked (.desc id) || (r.phase == .wait && stepBlocked b d r.cap.table) then b
      else
        let ctx := (b.q d.q).ctx
        let b := if r.phase == .wait then
            let isOver := b.gs.sticky.get false (tabKey ctx r.cap.table)
            modStep id (fun r => { r with phase := .ready1, overIn := isOver }) b
          else b
        let now (b : Blk) : StepPhase := (((b.desc? id).bind Desc.step?).map StepRun.phase).getD .wait
        let got (b : Blk) : Nat := (((b.desc? id).bind Desc.step?).map StepRun.got).getD 0
        let b := (List.range 3).foldl (fun b _ => if now b == .ready1 && !(b.isParked (.desc id)) then stepFields id b else b) b
        let b := if now b == .ready1 then closeAccum ctx r.cap.table b else b
        let b := if now b == .ready1 && decide (3 ≤ got b) && accumDrained b ctx r.cap.table then stepGather id b else b
        let b := if now b == .one then stepFreeze id (r.rows.length + r.todo.length + (((b.desc? id).bind Desc.step?).map
            (fun r => r.todo.length)).getD 0 + 1) b else b
        match (b.desc? id).bind Desc.step? with
        | some r =>
          if r.phase == .one && r.todo.isEmpty && !r.begun then
            let passes := if (parseCoef r.coef).precond then ceilDiv r.live.length 128 * ceilDiv r.cap.dim 64 else 0
            ownPasses ctx d.q 0 passes r.cap.dim (modStep id StepRun.statistics b)
          else b
        | none => b

/-! ### The barrier -/

/-- The four operands of R182. -/
def StepRun.operands (r : StepRun) : List W64 :=
  [r.s0, f64OfNat r.n, f64OfNat r.occ, if r.abort then f64one else 0]

/-- PHASE_ONE_END (R182): the die arrives, or with LOCAL goes on with its own sums. -/
def effPhaseOneEnd (id : Nat) (b : Blk) : Blk :=
  match b.desc? id with
  | none => b
  | some d =>
    match d.work with
    | .step r w =>
      if !r.begun || r.phase != .one then b
      else
        let next (b : Blk) : Blk := modStep id (fun r => { r with phase := .barrier }) b
        match w with
        | none => next b
        | some w => if barrierHeld b d w then b else next (arriveNow id r.operands none b)
    | _ => b

/-! ### Phase two -/

/-- A note on the run, with OVERRANGE (R187, R190, R191, R389). -/
def overrange (id : Nat) (f : StepRun → StepRun) (b : Blk) : Blk := addStatus id .overrange (modStep id f b)

/-- The bucket of a row, written to zero whole (R186). -/
def zeroBucket (t : Captured) (x : StepRow) : List (Nat × List PByte) :=
  match x.bucket with
  | some va => [(va, clean (List.replicate (bucketBytes t.dim) 0))]
  | none => []

/-- Phase two has done with a row. -/
def nextRow (id : Nat) (b : Blk) : Blk := modStep id (fun r => { r with todo := r.todo.drop 1 }) b

/-- A row that is left as it stands: only its bucket is emptied. `note` is made once that is done. -/
def skipRow (id : Nat) (rq : Rq) (c : Cls) (t : Captured) (x : StepRow) (note : Blk → Blk) (b : Blk) : Blk × Bool :=
  match wrAll rq (.desc id) c (zeroBucket t x) b with
  | (b, .ok) => (nextRow id (note b), true)
  | (b, .fail _) => (nextRow id (note b), true)
  | (b, .badMeta) => (nextRow id (note b), true)
  | (b, .fault) => (b, false)
  | (b, .wait) => (b, false)

/-- A row that cannot be read well (R186, R389). -/
def poisonRow (id ctx : Nat) (b : Blk) : Blk := addStatus id .overrange (bump Ctr.rowsPoisoned ctx 1 b)

/-- Read one item of a row: bytes, or the error record that makes the row poisoned. -/
inductive ItemRd where
  | ok (d : List PByte)
  | wait
  | poisoned (cause detail va : Nat)
deriving DecidableEq, Repr

def readItem (id : Nat) (rq : Rq) (c : Cls) (va n : Nat) (b : Blk) : Blk × ItemRd :=
  if n = 0 then (b, .ok [])
  else
    match rd rq (.desc id) c va n b with
    | (b, .ok l) => if anyPoison l then (b, .poisoned 0x12 (poisonSource c va b) va) else (b, .ok l)
    | (b, .badMeta) => (b, .poisoned 0x12 (poisonSource c va b) va)
    | (b, .fail _) => (b, .poisoned 0x0E (farAddr c va b) 0)
    | (b, .fault) => (b, .wait)
    | (b, .wait) => (b, .wait)

/-- The values that phase two fixed (R185). -/
def StepRun.fixed (r : StepRun) : StepFix :=
  let c := parseCoef r.coef
  { c := c, s := r.scale, s2 := f32mul r.scale r.scale, col := r.col, cbar := meanOf r.col r.cap.dim, lm := r.lmat }

/-- The array passes of a row's solve: one operand row for each dot (R185; DESIGN CHOICE, log 87). -/
def solvePasses (d : Desc) (r : StepRun) (b : Blk) : Blk :=
  if r.lmat.isSome then ownPasses (b.q d.q).ctx d.q 0 (2 * r.cap.dim) 1 b else b

/-- Write an updated row, its state and its empty bucket together, and refresh it when it is marked (R186, R197). -/
def putRow (id : Nat) (d : Desc) (rq : Rq) (c : Cls) (r : StepRun) (x : StepRow) (rowData stData : List Byte) (sat marked : Bool)
    (b : Blk) : Blk × Bool :=
  let t := r.cap
  let row := globalRow b t r.pos x.lrow
  let outs := (rowAddr t t.slot x.lrow, clean (strideBytes t rowData))
    :: (if stData.isEmpty then [] else [(t.stateBase + x.lrow * t.stateStride, clean stData)]) ++ zeroBucket t x
  match wrAll rq (.desc id) c outs b with
  | (b, .ok) =>
    let b := solvePasses d r b
    let b := charge 7 1 (some c.ctx) (some d.q) (bump Ctr.upRowsUpdated c.ctx 1 b)
    let b := modStep id (fun r => { r with updated := r.updated + 1, occUpdated := r.occUpdated + x.occ }) b
    let b := if sat then overrange id (fun r => { r with reqSat := true }) (bump Ctr.upReqSaturated c.ctx 1 b) else b
    let b := if marked then refreshRow id c t row (rowData.take t.rowBytes) (modStep id (fun r => { r with refreshed := r.refreshed + 1 }) b)
      else b
    (nextRow id b, true)
  | (b, .fail _) =>
    skipRow id rq c t x (fun b => poisonRow id c.ctx (stepErr d 0x0E (farAddr c (rowAddr t t.slot x.lrow) b) 1 b)) b
  | (b, .badMeta) => skipRow id rq c t x (poisonRow id c.ctx) b
  | (b, .fault) => (b, false)
  | (b, .wait) => (b, false)

/-- One row of phase two (R185 to R191); the Bool says that it is done. -/
def stepRow (id : Nat) (d : Desc) (r : StepRun) (x : StepRow) (b : Blk) : Blk × Bool :=
  let t := r.cap
  let c := clsOf b d.q
  let rq := Rq.slice (ownerSlice b x.lrow)
  let bad (cause detail va : Nat) (b : Blk) : Blk × Bool :=
    skipRow id rq c t x (fun b => poisonRow id c.ctx (stepErr d cause detail va b)) b
  if x.frozen then skipRow id rq c t x (fun b => b) b
  else if x.poisoned || r.pcBad then skipRow id rq c t x (poisonRow id c.ctx) b
  else
    match readItem id rq c (rowAddr t t.slot x.lrow) t.rowBytes b with
    | (b, .wait) => (b, false)
    | (b, .poisoned cause detail va) => bad cause detail va b
    | (b, .ok rowD) =>
      match readItem id rq c (t.stateBase + x.lrow * t.stateStride) t.stateBytes b with
      | (b, .wait) => (b, false)
      | (b, .poisoned cause detail va) => bad cause detail va b
      | (b, .ok stD) =>
        let fx := r.fixed
        let rm := meanSq t.accExp (r.rowSq x) t.dim
        let u := rowUpdate fx t.dim (r.grads x) rm (rowElems t rowD) (readState t fx.c (plain stD))
        let out := u.1 ++ u.2.m ++ u.2.v ++ (if t.rowScalar then [u.2.vr] else [])
        if !(allFinite out) then
          skipRow id rq c t x (fun b =>
            overrange id (fun r => { r with nonfin := true }) (bump Ctr.upNonfinite c.ctx 1 (solvePasses d r b))) b
        else
          let row := globalRow b t r.pos x.lrow
          match findMarker rq (.desc id) c t row b with
          | (b, .wait) => (b, false)
          | (b, .fail _) => bad 0x0E (farAddr c t.repDir b) 0 b
          | (b, .badMeta) => bad 0x12 (poisonSource c t.repDir b) t.repDir b
          | (b, m) =>
            let marked := m == .marked
            if marked && !(treeRoom b b.ident.chip b.ident.die (id % 2 ^ 32)) then (b, false)
            else
              let o := rowOut t row (d.f 16 8) b.stamp u.1
              putRow id d rq c r x o.1 (stateOut t u.2) o.2 marked { b with stamp := b.stamp + 1 }

/-- Rows in ascending die-local order (R186). -/
def stepRows (id : Nat) : Nat → Blk → Blk
  | 0, b => b
  | f + 1, b =>
    match b.desc? id with
    | none => b
    | some d =>
      match d.step? with
      | none => b
      | some r =>
        match r.todo with
        | [] => b
        | x :: _ =>
          match stepRow id d r x b with
          | (b, true) => stepRows id f b
          | (b, false) => b

/-- The once-per-STEP item kept as it stands (R187, R389). -/
def itemKept (id ctx : Nat) (b : Blk) : Blk :=
  overrange id (fun r => { r with nonfin := true }) (bump Ctr.upNonfinite ctx 1 b)

/-- The column state (R185, R64): it follows the die's last row. -/
def stepColumn (id : Nat) (d : Desc) (r : StepRun) (b : Blk) : Blk :=
  let t := r.cap
  let c := clsOf b d.q
  let k := parseCoef r.coef
  let done (col : List W32) (b : Blk) : Blk := modStep id (fun r => { r with col := col, prog := 1 }) b
  if k.second ≠ 2 ∨ r.n = 0 then done [] b
  else
    let va := t.stateBase + dieRows b t * t.stateStride
    let s2 := f32mul r.scale r.scale
    match readItem id (.slice 0) c va (4 * t.dim) b with
    | (b, .wait) => b
    | (b, .poisoned cause detail v) =>
      done (List.replicate t.dim poisonNan) (addStatus id .overrange (bump Ctr.upNonfinite c.ctx 1 (stepErr d cause detail v b)))
    | (b, .ok l) =>
      let old := f32At (plain l) 0 t.dim
      let new := List.zipWith (fun ci mi => f32fma k.a2 (f32mul s2 mi) (f32mul k.b2 ci)) old r.cm
      if allFinite new then
        match wr (.slice 0) (.desc id) c va (clean (f32Bytes new)) b with
        | (b, .ok) => done new b
        | (b, .fail _) => done new (itemKept id c.ctx (stepErr d 0x0E (farAddr c va b) 1 b))
        | (b, .badMeta) => done new (itemKept id c.ctx b)
        | (b, .fault) => b
        | (b, .wait) => b
      else done old (itemKept id c.ctx b)

/-- C and the factor in use (R185, R192): a factor element that is poisoned is the quiet NaN. -/
def stepPrecond (id : Nat) (d : Desc) (r : StepRun) (b : Blk) : Blk :=
  let t := r.cap
  let c := clsOf b d.q
  let k := parseCoef r.coef
  let n := t.dim * t.dim
  let done (f : StepRun → StepRun) (b : Blk) : Blk := modStep id (fun r => { f r with prog := 2 }) b
  if !k.precond then done (fun r => r) b
  else
    match readItem id (.slice 0) c t.precond 64 b with
    | (b, .wait) => b
    | (b, .poisoned cause detail v) => done (fun r => { r with pcBad := true }) (stepErr d cause detail v b)
    | (b, .ok h) =>
      let valid := (byteAt (plain h) 2).testBit 0
      let lva := t.precond + 64 + 4 * n
      match (if valid then readItem id (.slice 0) c lva (4 * n) b else (b, .ok [])) with
      | (b, .wait) => b
      | (b, .poisoned cause detail v) =>
        done (fun r => { r with lmat := some (List.replicate n poisonNan) }) (stepErr d cause detail v b)
      | (b, .ok lb) =>
        let fin (b : Blk) : Blk :=
          done (fun r => { r with lmat := if valid then some (f32At (plain lb) 0 n) else none, noFactor := !valid }) b
        match readItem id (.slice 0) c (t.precond + 64) (4 * n) b with
        | (b, .wait) => b
        | (b, .poisoned cause detail v) =>
          fin (addStatus id .overrange (bump Ctr.upNonfinite c.ctx 1 (stepErr d cause detail v b)))
        | (b, .ok cb) =>
          let wc := f32mul (f32sub f32One k.pcKeep) (f32mul r.scale r.scale)
          let new := List.zipWith (fun ci gi => f32fma wc gi (f32mul k.pcKeep ci)) (f32At (plain cb) 0 n) r.gm
          if allFinite new then
            match wr (.slice 0) (.desc id) c (t.precond + 64) (clean (f32Bytes new)) b with
            | (b, .ok) => fin b
            | (b, .fail _) => fin (itemKept id c.ctx (stepErr d 0x0E (farAddr c t.precond b) 1 b))
            | (b, .badMeta) => fin (itemKept id c.ctx b)
            | (b, .fault) => b
            | (b, .wait) => b
          else fin (itemKept id c.ctx b)

/-- Empty what names no row, and the log (R186, R389): poisoned buckets, and USED of every block. Rows that came into a window while
phase two went on leave it, so that a LOOKUP behind the STEP sees new ones (R99; DEDUCED, log 91). -/
def stepEmpty (id : Nat) (d : Desc) (r : StepRun) (b : Blk) : Blk :=
  let c := clsOf b d.q
  let buckets := (r.bad.filter (· ≠ 0)).map (fun va => (va, clean (List.replicate (bucketBytes r.cap.dim) 0)))
  let used := r.chain.map (fun va => (va + 16, clean (toLe 8 0)))
  let done (b : Blk) : Blk :=
    let b := if r.bad.isEmpty then b else addStatus id .overrange (bump Ctr.rowsPoisoned c.ctx r.bad.length b)
    let b := invalidateTable c.ctx r.cap.table b
    modStep id (fun r => { r with prog := 3, phase := .refresh }) (closeTree id (b.setLog c.ctx r.cap.table {}))
  match wrAll (.slice 0) (.desc id) c (buckets ++ used) b with
  | (b, .ok) => done b
  | (b, .fail _) => done b
  | (b, .badMeta) => done b
  | (b, .fault) => b
  | (b, .wait) => b

/-! ### Completion -/

/-- FLAGS of the statistics record (R201). -/
def StepRun.flags (r : StepRun) : Nat :=
  boolNat r.overIn + 2 * boolNat r.reqSat + 4 * boolNat r.nonfin + 8 * boolNat (!r.ran) + 16 * boolNat r.noFactor

/-- The statistics record (R201). What no barrier gave, and σ without a phase two, no rule states: those bytes are free (DEDUCED, log 29). -/
def StepRun.statBytes (r : StepRun) (stamp : Nat) : List Byte :=
  let free (lo n : Nat) : List Byte := (List.range n).map (fun i => Config.undefByte stamp (lo + i))
  let votes (v : W64) : Nat := min ((rd64 v).floorInt.toNat) 0xFFFFFFFF
  toLe 8 r.touched ++ toLe 8 r.updated ++ toLe 8 r.frozen ++ toLe 8 r.occUpdated ++ toLe 8 r.s0.toNat
    ++ (match r.global with
      | some g => toLe 8 g.1.toNat
      | none => free 40 8)
    ++ (if r.ran then toLe 4 r.sigma.toNat else free 48 4)
    ++ toLe 4 r.flags ++ toLe 4 (min r.refreshed 0xFFFFFFFF)
    ++ (match r.global with
      | some g => toLe 4 (votes g.2)
      | none => free 60 4)

/-- The STEP completes (R167, R176, R201): the sticky bit is cleared, and messages that came late may be placed. -/
def stepFinish (id : Nat) (b : Blk) : Blk :=
  match b.desc? id with
  | none => b
  | some d =>
    match d.step? with
    | none => b
    | some r =>
      let ctx := (b.q d.q).ctx
      let captured := !r.cap.bytes.isEmpty
      let b := if captured then
          { b with gs := { b.gs with
              sticky := b.gs.sticky.del (tabKey ctx r.cap.table)
              slices := b.gs.slices.map (fun e => (e.1, { e.2 with inbox := e.2.inbox.map (fun m =>
                if m.b.ctx = ctx ∧ m.b.table = r.cap.table then { m with late := false } else m) })) } }
        else b
      let b := if r.overIn then addStatus id .overrange b else b
      let st := if captured && d.f 40 8 != 0 then some (d.f 40 8, r.statBytes b.stamp) else none
      let b := if captured then forgetSort d { b with stamp := b.stamp + 1 } else { b with stamp := b.stamp + 1 }
      complete id (b.modDesc id (fun d => { d with
        aux := min r.updated 0xFFFFFFFF, dropped := min r.occFrozen 0xFFFFFFFF, stats := st }))

/-- No phase two (R182). -/
def stepAbort (id : Nat) (b : Blk) : Blk := stepFinish id b

/-- What the barrier brought: a code and values (R182). With LOCAL, the die's own. -/
def stepResult (r : StepRun) (w : Option BarWait) : Option (Nat × List W64) :=
  match w with
  | none => some (0, r.operands)
  | some w => w.result.map (fun x => (x.1, x.2.2))

/-- Phase two begins (R182, R186), or the STEP ends without it. -/
def stepDecide (id : Nat) (d : Desc) (r : StepRun) (code : Nat) (vals : List W64) (b : Blk) : Blk :=
  if code ≠ 0 then stepAbort id (addStatus id (resultStatus code) b)
  else
    let s0 := vals.getD 0 0
    let votes := vals.getD 3 0
    let b := modStep id (fun r => { r with global := some (s0, votes) }) b
    if (rd64 0).lt (rd64 votes) then stepAbort id (addStatus id .tableBusy b)
    else
      let ctx := (b.q d.q).ctx
      let s := scaleOf (parseCoef r.coef) s0
      let b := invalidateTable ctx r.cap.table (bump Ctr.upSteps ctx 1 b)
      modStep id (fun r => { r with phase := .two, ran := true, sigma := s.1, scale := s.2, todo := r.rows }) b

/-- Complete a STEP whose refreshes are all acknowledged (R198). -/
def stepClose (id : Nat) (b : Blk) : Blk :=
  match treeOf b id with
  | none => stepFinish id b
  | some a => if a.done then stepFinish id (dropTree a (if a.failed then addStatus id .unreachable b else b)) else b

/-- One stage of a STEP past its barrier. -/
def stepAdvance (id : Nat) (b : Blk) : Blk :=
  match b.desc? id with
  | none => b
  | some d =>
    match d.work with
    | .step r w =>
      match r.phase with
      | .barrier => match stepResult r w with
        | some x => stepDecide id d r x.1 x.2 b
        | none => b
      | .two =>
        match r.prog with
        | 0 => stepColumn id d r b
        | 1 => stepPrecond id d r b
        | _ => if r.todo.isEmpty then stepEmpty id d r b else stepRows id r.todo.length b
      | .refresh => stepClose id b
      | _ => b
    | _ => b

/-- PHASE_TWO (R185, R186): it goes as far as it can, stage by stage. -/
def effPhaseTwo (id : Nat) (b : Blk) : Blk :=
  if b.isParked (.desc id) then b
  else (List.range 6).foldl (fun b _ => if b.isParked (.desc id) then b else stepAdvance id b) b

/-! ### PRECOND -/

/-- The result of a factorisation is written (R194, R195). -/
def precondWrite (d : Desc) (t : Captured) (hdr : List Byte) (got : Option (List W32 × W32 × Nat)) (b : Blk) : Blk :=
  let c := clsOf b d.q
  let p := t.precond
  let n := t.dim * t.dim
  let outs := match got with
    | some (l, lam, k) =>
      [(p + 2, clean [1]), (p + 4, clean (toLe 4 lam.toNat)), (p + 12, clean [BitVec.ofNat 8 k]), (p + 64 + 4 * n, clean (f32Bytes l))]
    | none => [(p + 8, clean (toLe 4 (field hdr 8 4 + 1))), (p + 12, clean [5])]
  let valid := got.isSome || (byteAt hdr 2).testBit 0
  let tries := match got with
    | some x => x.2.2
    | none => 5
  match wrAll (.pitch 0) (.desc d.id) c outs b with
  | (b, .ok) =>
    let b := if got.isSome then b else bump Ctr.upSingular c.ctx 1 b
    completeWith d.id (if got.isSome then .ok else .singular) (tries + 8 * boolNat valid) 0 b
  | (b, .fail s) => completeWith d.id s 0 0 b
  | (b, .badMeta) => completeWith d.id .cancelled 0 0 b
  | (b, .fault) => b
  | (b, .wait) => b

/-- PRECOND (R193 to R195), on the array of pitch 0 when its turn comes there (R139; DESIGN CHOICE, log 30). -/
def effPrecond (n : Nat) (b : Blk) : Blk :=
  match handedOf b n [0x23] with
  | none => b
  | some d =>
    let c := clsOf b n
    let t := d.tab (d.f 8 2 % 4096)
    let u := UnitRef.desc d.id
    if d.stepBusy then completeWith d.id .tableBusy 0 0 b
    else if arrayYields b 0 d.q then b
    else
      match rd (.pitch 0) u c t.precond 64 b with
      | (b, .ok h) =>
        if anyPoison h then completeWith d.id .cancelled 0 0 (raise (d.err b 0x12 2 (poisonSource c t.precond b) t.precond) b)
        else if field (plain h) 0 2 ≠ t.dim then completeWith d.id .malformed 0 0 b
        else
          match rdMeta (.pitch 0) u c t.coef 128 b with
          | (b, .ok l) =>
            match rd (.pitch 0) u c (t.precond + 64) (4 * (t.dim * t.dim)) b with
            | (b, .ok m) =>
              let b := if anyPoison m then raise (d.err b 0x12 2 (poisonSource c t.precond b) (t.precond + 64)) b else b
              let cm := (pieces 4 m).map (fun x => if anyPoison x then poisonNan else BitVec.ofNat 32 (le (plain x)))
              let thr := pivotFloor t.dim cm
              let lam := (parseCoef (plain l)).lambda
              precondWrite d t (plain h) (factorise t.dim cm thr 5 1 lam)
                (ownPasses c.ctx d.q 0 (factorReach t.dim cm thr 5 lam) t.dim b)
            | (b, .fail s) => completeWith d.id s 0 0 b
            | (b, .badMeta) => completeWith d.id .cancelled 0 0 b
            | (b, .fault) => b
            | (b, .wait) => b
          | (b, .fail s) => completeWith d.id s 0 0 b
          | (b, .badMeta) => completeWith d.id .cancelled 0 0 b
          | (b, .fault) => b
          | (b, .wait) => b
      | (b, .fail s) => completeWith d.id s 0 0 b
      | (b, .badMeta) => completeWith d.id .cancelled 0 0 b
      | (b, .fault) => b
      | (b, .wait) => b

def execStep (q : Nat) (s : State) : Host.Outcome State Fault Refusal := fireReady (q < 256) (effStep q) s
def execPhaseOne (id : Nat) (s : State) : Host.Outcome State Fault Refusal := fireReady true (effPhaseOne id) s
def execPhaseOneEnd (id : Nat) (s : State) : Host.Outcome State Fault Refusal := fireReady true (effPhaseOneEnd id) s
def execPhaseTwo (id : Nat) (s : State) : Host.Outcome State Fault Refusal := fireReady true (effPhaseTwo id) s
def execPrecond (q : Nat) (s : State) : Host.Outcome State Fault Refusal := fireReady (q < 256) (effPrecond q) s

end Sys2Proof.Machine
end

