-- ==== Sys2Proof/Machine/Refresh.lean ====
section
/-! DEFINITION. Replica refresh at a member (R197, R318, R319), the REFRESH operator (R199), and TABLE_SWAP (R83, R84, R200). -/
namespace Sys2Proof.Machine

/-! ### The REFRESH operator -/

def modRefresh (id : Nat) (f : RefreshRun → RefreshRun) (b : Blk) : Blk :=
  b.modDesc id (fun d => match d.work with
    | .refresh r => { d with work := .refresh (f r) }
    | _ => d)

def Desc.refresh? (d : Desc) : Option RefreshRun :=
  match d.work with
  | .refresh r => some r
  | _ => none

/-- A REFRESH whose rows are sent completes when its tree has every acknowledgement (R198, R199). -/
def refreshClose (id : Nat) (b : Blk) : Blk :=
  match (b.desc? id).bind Desc.refresh? with
  | none => b
  | some r =>
    let fin (s : Status) (b : Blk) : Blk := completeWith id s (min r.sent 0xFFFFFFFF) (min r.skipped 0xFFFFFFFF) b
    if !r.done then b
    else
      match treeOf b id with
      | none => fin .ok b
      | some a => if a.done then fin (if a.failed then .unreachable else .ok) (dropTree a b) else b

/-- Complete every STEP and REFRESH whose tree is done. -/
def finishTrees (b : Blk) : Blk :=
  (b.front.descs.map (·.id)).foldl (fun b i =>
    match b.desc? i with
    | some d =>
      match d.work with
      | .step r _ => if r.phase == .refresh then stepClose i b else b
      | .refresh _ => refreshClose i b
      | _ => b
    | none => b) b

/-- Items of a REFRESH: places of its list, or buckets of the directory. -/
def refreshItems (d : Desc) (r : RefreshRun) : Nat :=
  if d.f 10 1 = 1 then d.f 12 4 else if r.cap.refreshes then 2 ^ r.cap.repLog2 else 0

/-- The row that an item names: `skip` for an empty bucket, `drop` for a row that is not sent. -/
inductive Item where
  | row (row : Nat)
  | skip
  | drop
  | wait
  | bad (s : Status)
deriving DecidableEq, Repr

/-- A home row of this die (R73). -/
def isHomed (b : Blk) (t : Captured) (chip row : Nat) : Bool := chip == b.ident.chip && (homeOf t row).die == b.ident.die

/-- Look at item `i` of a REFRESH: read it, and see whether its row is valid, homed here and marked (R199). -/
def refreshItem (d : Desc) (r : RefreshRun) (i : Nat) (b : Blk) : Blk × Item :=
  let c := clsOf b d.q
  let u := UnitRef.desc d.id
  let t := r.cap
  let list := d.f 10 1 == 1
  let src := if list then rd (.slice 0) u c (d.f 16 8 + 8 * i) 8 b else rdMeta (.slice 0) u c (t.repDir + 128 + 16 * i) 16 b
  let none_ : Item := if list then .drop else .skip
  match src with
  | (b, .ok l) =>
    if anyPoison l then (raise (d.err b 0x12 3 (poisonSource c (d.f 16 8) b) (d.f 16 8 + 8 * i)) b, .bad .cancelled)
    else
      let w := le (plain l)
      let row := if list then w else bitsOf w 47 0
      if (!list && !(w.testBit 50)) || decide (t.rows ≤ row) then (b, none_)
      else
        match readChip (.slice 0) u c t (homeOf t row).pos b with
        | (b, .ok e) =>
          if !(isHomed b t (field (plain e) 0 2 % 16384) row) then (b, none_)
          else if !list then (b, .row row)
          else
            match findMarker (.slice 0) u c t row b with
            | (b, .marked) => (b, .row row)
            | (b, .unmarked) => (b, .drop)
            | (b, .wait) => (b, .wait)
            | (b, .fail s) => (b, .bad s)
            | (b, .badMeta) => (b, .bad .cancelled)
        | (b, .fail s) => (b, .bad s)
        | (b, .badMeta) => (b, .bad .cancelled)
        | (b, .fault) => (b, .wait)
        | (b, .wait) => (b, .wait)
  | (b, .fail s) => (b, .bad s)
  | (b, .badMeta) => (b, .bad .cancelled)
  | (b, .fault) => (b, .wait)
  | (b, .wait) => (b, .wait)

/-- Send one row as it stands; a row that cannot be read well is not sent, and the operator ends CANCELLED or with the reason
(DEDUCED, log 31). -/
def refreshSend (d : Desc) (r : RefreshRun) (row : Nat) (b : Blk) : Blk × Bool :=
  let c := clsOf b d.q
  let t := r.cap
  let va := rowAddr t t.slot (homeOf t row).lrow
  let next (b : Blk) : Blk := modRefresh d.id (fun r => { r with next := r.next + 1 }) b
  if !(treeRoom b b.ident.chip b.ident.die (d.id % 2 ^ 32)) then (b, false)
  else
    match rd (.slice 0) (.desc d.id) c va t.rowBytes b with
    | (b, .ok l) =>
      if anyPoison l then (addStatus d.id .cancelled (next (raise (d.err b 0x12 3 (poisonSource c va b) va) b)), true)
      else (modRefresh d.id (fun r => { r with sent := r.sent + 1 }) (next (refreshRow d.id c t row (plain l) b)), true)
    | (b, .fail s) => (addStatus d.id s (next b), true)
    | (b, .badMeta) => (addStatus d.id .cancelled (next b), true)
    | (b, .fault) => (b, false)
    | (b, .wait) => (b, false)

/-- Go through the items of a REFRESH in order. -/
def refreshRun (id : Nat) : Nat → Blk → Blk
  | 0, b => b
  | f + 1, b =>
    match b.desc? id with
    | none => b
    | some d =>
      match d.refresh? with
      | none => b
      | some r =>
        if refreshItems d r ≤ r.next then refreshClose id (closeTree id (modRefresh id (fun r => { r with done := true }) b))
        else
          let next (b : Blk) : Blk := modRefresh id (fun r => { r with next := r.next + 1 }) b
          match refreshItem d r r.next b with
          | (b, .row row) =>
            match refreshSend d r row b with
            | (b, true) => refreshRun id f b
            | (b, false) => b
          | (b, .skip) => refreshRun id f (next b)
          | (b, .drop) => refreshRun id f (modRefresh id (fun r => { r with skipped := r.skipped + 1 }) (next b))
          | (b, .bad s) => refreshRun id f (addStatus id s (next b))
          | (b, .wait) => b

/-- A REFRESH of the queue that is under way, in this mode. -/
def refreshGoing (b : Blk) (n mode : Nat) : Option Desc :=
  (b.descsOf n).find? (fun d => d.f 10 1 == mode && (match d.refresh? with
    | some r => !r.done && !(b.isParked (.desc d.id))
    | none => false))

/-- REFRESH in one of its modes (R174, R199). -/
def refreshOp (n mode : Nat) (b : Blk) : Blk :=
  let b := match handedOf b n [0x24] with
    | some d =>
      let ctx := (b.q n).ctx
      let t := d.tab (d.f 8 2 % 4096)
      if d.f 10 1 ≠ mode then b
      else if d.stepBusy then completeWith d.id .tableBusy 0 0 b
      else if t.group = 0xFFFF then completeWith d.id .ok 0 0 (invalidateTable ctx t.table b)
      else startWork d.id (.refresh { cap := t }) (invalidateTable ctx t.table b)
    | none => b
  match refreshGoing b n mode with
  | some d => refreshRun d.id (((d.refresh?).map (refreshItems d)).getD 0 + 1) b
  | none => b

def effRefreshMarked (n : Nat) (b : Blk) : Blk := refreshOp n 0 b
def effRefreshList (n : Nat) (b : Blk) : Blk := refreshOp n 1 b

/-! ### A refresh message -/

/-- The unit of work of a refresh message. -/
def refreshRef (m : RefreshB) : UnitRef := .refresh (m.tag + 2 ^ 32 * chipDie m.srcChip m.srcDie)

/-- What this die's own refresh comes to (R197). -/
inductive Own where
  | done
  | failed
  | wait
deriving DecidableEq, Repr

/-- Write the replica on a hit; count a miss (R197). -/
def ownRefresh (c : Cls) (m : RefreshB) (b : Blk) : Blk × Own :=
  let u := refreshRef m
  let miss (b : Blk) : Blk × Own := (bump Ctr.upRefreshMisses c.ctx 1 b, .done)
  match readTable (.slice 0) u c m.table b with
  | (b, .ok l) =>
    let t : Captured := { table := m.table, bytes := plain l, slot := m.slot }
    if !(t.shapeOk) then miss b
    else
      match probeReplica (.slice 0) u c t m.slot m.row b with
      | (b, .hit _, va) =>
        match wr (.slice 0) u c va (clean (strideBytes t m.data)) b with
        | (b, .ok) => (b, .done)
        | (b, .fail _) => (b, .failed)
        | (b, .badMeta) => (b, .failed)
        | (b, .fault) => (b, .wait)
        | (b, .wait) => (b, .wait)
      | (b, .miss, _) => miss b
      | (b, .wait, _) => (b, .wait)
      | (b, .fault, _) => (b, .wait)
      | (b, .fail _, _) => (b, .failed)
      | (b, .badMeta, _) => (b, .failed)
  | (b, .fail _) => (b, .failed)
  | (b, .badMeta) => (b, .failed)
  | (b, .fault) => (b, .wait)
  | (b, .wait) => (b, .wait)

/-- The class of a received packet. -/
def Rx.cls (r : Rx) (ctx : Nat) : Cls := { rt := r.rt, stream := r.stream, ctx := ctx }

/-- The branch on which an acknowledgement comes. -/
def branchOf (v : Via) : Nat × Nat :=
  match v with
  | .local => (0, 0)
  | .d2d p => (1, p)
  | .ridge s => (2, s)

/-- `n` rows acknowledged on a branch; `bad` sets FAILED (R319). -/
def ackBranch (k : Nat × Nat) (n : Nat) (bad : Bool) (a : RefreshAgg) : RefreshAgg :=
  { a with
    failed := a.failed || bad
    branches := a.branches.map (fun x => if x.kind = k.1 ∧ x.no = k.2 then { x with count := min a.rows (x.count + n) } else x) }

/-- The copy joins its tree once its own refresh is made, and that branch is acknowledged at once. -/
def takeCopy (i : Nat) (r : Rx) (m : RefreshB) (own bad : Bool) (b : Blk) : Blk :=
  let h : PktHdr := (r.hdr).getD { ptype := 0x14, vc := ridgeVc 0x14, len := 0, dst := 0, src := chipDie m.srcChip m.srcDie,
                                   rt := r.rt, stream := r.stream }
  let b := takeRx i r b
  let b := treeCopy r.group h r.via none true m (invalidateTable m.ctx m.table b)
  match findTree b m.srcChip m.srcDie m.tag with
  | some a => if own then bumpTree (ackBranch (0, 0) 1 bad) a b else treeProgress false a b
  | none => b

/-- This die is a member of the copy's tree, or was handed the copy (R318). -/
def isMemberHere (b : Blk) (r : Rx) : Bool :=
  match r.via with
  | .d2d _ => true
  | _ => let e := groupEntry b r.group
    e.testBit 68 && e.testBit (64 + b.ident.die)

/-- REFRESH (R197, R318): the next refresh message. -/
def effRefresh (b : Blk) : Blk :=
  match oldest b (fun r => match r.msg with
    | .refresh m => !(b.isParked (refreshRef m)) && treeRoom b m.srcChip m.srcDie m.tag
    | _ => false) with
  | none => b
  | some (i, r) =>
    match r.msg with
    | .refresh m =>
      if isMemberHere b r then
        match ownRefresh (r.cls m.ctx) m b with
        | (b, .done) => takeCopy i r m true false b
        | (b, .failed) => takeCopy i r m true true b
        | (b, .wait) => b
      else takeCopy i r m false false b
    | _ => b

/-- The entry that an acknowledgement is for: its TAG, with rows of that branch outstanding (DEDUCED, log 33). -/
def ackedTree (b : Blk) (tag : Nat) (k : Nat × Nat) : Option RefreshAgg :=
  b.ridge.agg.find? (fun a => a.tag = tag && a.branches.any (fun x => x.kind = k.1 && x.no = k.2 && decide (x.count < a.rows)))

/-- REFRESH_ACK (R319): a branch count rises, and is passed upstream or completes the home's operator. -/
def effRefreshAck (b : Blk) : Blk :=
  match oldest b (fun r => match r.msg with
    | .refreshAck .. => true
    | _ => false) with
  | none => b
  | some (i, r) =>
    match r.msg with
    | .refreshAck tag rows bad =>
      let k := branchOf r.via
      let a := ackedTree b tag k
      let b := takeRx i r b
      match a with
      | some a => finishTrees (bumpTree (ackBranch k rows bad) a b)
      | none => b
    | _ => b

/-- REFRESH_ACK_TIMER (R319): 2,048 CK_CORE cycles after a rise that has not been acknowledged. -/
def effRefreshAckTimer (b : Blk) : Blk :=
  b.ridge.agg.foldl (fun b a => if a.since + 2048 ≤ b.clk.core then treeProgress true a b else b) b

/-! ### TABLE_SWAP -/

/-- Drop every cached copy of the 128-byte lines of a run of this die's addresses. -/
def dropCached (keys : List Nat) (b : Blk) : Blk :=
  let cut (l : Tbl Line) : Tbl Line := l.filter (fun e => !keys.contains e.2.addr)
  { b with
    pitches := b.pitches.map (fun e => (e.1, { e.2 with mdc := { e.2.mdc with lines := cut e.2.mdc.lines } }))
    xlat := { b.xlat with fault := { b.xlat.fault with lines := cut b.xlat.fault.lines } } }

/-- The lines that hold a table's descriptor. -/
def tableLines (c : Cls) (va : Nat) (b : Blk) : List Nat :=
  [va, va + 128].filterMap (fun a => match (translate .front (.fetch 0) c a false false b).2 with
    | .ok pa host _ _ _ => some (lineKey (pa / 128 * 128) host)
    | _ => none)

/-- What was captured of a table before dispatch, by descriptors that are still held, is read again at theirs: ACTIVE has changed (R17,
R83). -/
def recapture (ctx table : Nat) (b : Blk) : Blk :=
  { b with
    front := { b.front with descs := b.front.descs.map (fun d =>
      if d.stage = .held ∧ (b.q d.q).ctx = ctx then { d with pre := { d.pre with tabs := d.pre.tabs.filter (fun t => t.table ≠ table) } }
      else d) }
    gs := { b.gs with dbuf := b.gs.dbuf.filter (fun e => !(e.2.1 = ctx && e.2.2.1 = table)) } }

/-- TABLE_SWAP (R83, R174, R200): ACTIVE is written in one write, and the old slot is RETIRING. The slot that it is compared with, and
that retires, is ACTIVE as it stands. Only a swap that goes through invalidates the dedup windows (R99; DESIGN CHOICE, log 89). -/
def effTableSwap (n : Nat) (b : Blk) : Blk :=
  match handedOf b n [0x28] with
  | none => b
  | some d =>
    let c := clsOf b n
    let t := d.tab (d.f 8 2 % 4096)
    let v := d.f 10 1 % 4
    let dva := (ctxHdr b c.ctx).tableDir + 256 * t.table
    match rd .front (.desc d.id) c (dva + 19) 1 b with
    | (b, .ok a) =>
      let old := byteAt (plain a) 0 % 4
      if anyPoison a then completeWith d.id .cancelled 0 0 (raise (d.err b 0x12 0 (poisonSource c dva b) dva) b)
      else if v = old ∨ t.rowBase v = 0 then completeWith d.id .malformed 0 0 b
      else if b.retiring.any (fun r => r = (c.ctx, t.table, v)) ∨ d.stepBusy = true then completeWith d.id .tableBusy 0 0 b
      else
        match wr .front (.desc d.id) c (dva + 19) [(BitVec.ofNat 8 v, false)] b with
        | (b, .ok) =>
          let b := recapture c.ctx t.table (invalidateTable c.ctx t.table (dropCached (tableLines c dva b) b))
          startWork d.id (.swap t old) { b with retiring := b.retiring ++ [(c.ctx, t.table, old)] }
        | (b, .fail s) => completeWith d.id s 0 0 b
        | (b, .badMeta) => completeWith d.id .cancelled 0 0 b
        | (b, .fault) => b
        | (b, .wait) => b
    | (b, .fail s) => completeWith d.id s 0 0 b
    | (b, .badMeta) => completeWith d.id .cancelled 0 0 b
    | (b, .fault) => b
    | (b, .wait) => b

/-- A request received names the slot and is not yet answered (R84). -/
def slotAsked (b : Blk) (ctx table slot : Nat) : Bool :=
  let mine (m : ContribB) : Bool := m.ctx = ctx && m.table = table && m.slot = slot
  b.frags.any (fun f => f.req.isSome && f.ctx == ctx && f.table == table && f.slot == slot)
    || b.port.any (fun r => match r.msg with
      | .fragReq m => m.ctx = ctx && m.table = table && m.slot = slot
      | .contrib m => mine m
      | _ => false)
    || b.gs.slices.any (fun e => e.2.inbox.any (fun m => mine m.b) || e.2.acks.any (fun a => a.ctx = ctx && a.tables.contains (table, slot)))
    || b.gs.logq.any (fun r => match r.msg with
      | some m => mine m.b
      | none => false)

/-- Another operator of the block that captured the slot has not completed (R84). -/
def slotHeld (b : Blk) (id ctx table slot : Nat) : Bool :=
  b.front.descs.any (fun d => d.id != id && d.opcode != 0x28 && d.stage != .complete && (b.q d.q).ctx == ctx
    && d.pre.tabs.any (fun t => t.table = table && t.slot = slot))

/-- SLOT_RETIRED (R84): nothing uses the old slot any more. -/
def effSlotRetired (id : Nat) (b : Blk) : Blk :=
  match b.desc? id with
  | none => b
  | some d =>
    match d.work with
    | .swap t old =>
      let ctx := (b.q d.q).ctx
      if slotHeld b id ctx t.table old || slotAsked b ctx t.table old then b
      else completeWith id .ok (t.vtag old) 0 { b with retiring := b.retiring.filter (· ≠ (ctx, t.table, old)) }
    | _ => b

def execRefreshMarked (q : Nat) (s : State) : Host.Outcome State Fault Refusal := fireReady (q < 256) (effRefreshMarked q) s
def execRefreshList (q : Nat) (s : State) : Host.Outcome State Fault Refusal := fireReady (q < 256) (effRefreshList q) s
def execRefresh (s : State) : Host.Outcome State Fault Refusal := fireReady true effRefresh s
def execRefreshAck (s : State) : Host.Outcome State Fault Refusal := fireReady true effRefreshAck s
def execRefreshAckTimer (s : State) : Host.Outcome State Fault Refusal := fireReady true effRefreshAckTimer s
def execTableSwap (q : Nat) (s : State) : Host.Outcome State Fault Refusal := fireReady (q < 256) (effTableSwap q) s
def execSlotRetired (id : Nat) (s : State) : Host.Outcome State Fault Refusal := fireReady true (effSlotRetired id) s

end Sys2Proof.Machine
end

