-- ==== Sys2Proof/Machine/Copy.lean ====
section
/-! DEFINITION. The copy engines (R253 to R258) and BIAS_FLIP (R247 to R249). -/
namespace Sys2Proof.Machine

/-! ### COPY -/

/-- The indices (i2, i3, i4) of an outer index, i2 fastest. -/
def copyOuter (l : List Byte) (o : Nat) : List Nat :=
  let c2 := copyCount l 2
  let c3 := copyCount l 3
  [o % c2, o / c2 % c3, o / (c2 * c3)]

/-- Offset of dimensions 2 to 4. -/
def copyFar (st : Nat → Nat) (ix : List Nat) : Nat :=
  ix.getD 0 0 * st 2 + ix.getD 1 0 * st 3 + ix.getD 2 0 * st 4

/-- A tile's source and destination pieces: address and bytes (R255, R256). -/
def copyPieces (l : List Byte) (k : Nat) : List (Nat × Nat) × List (Nat × Nat) :=
  let e := copyElem l
  let src := field l 32 8
  let dst := field l 40 8
  if copyTrans l then
    let n0 := copyBlocks0 l
    let n1 := copyBlocks1 l
    let ix := copyOuter l (k / (n0 * n1))
    let lo0 := k % n0 * copyC l
    let lo1 := k / n0 % n1 * 64
    let w0 := min (copyC l) (copyCount l 0 - lo0)
    let w1 := min 64 (copyCount l 1 - lo1)
    ((List.range w1).map (fun i => (src + lo0 * e + (lo1 + i) * srcStride l 1 + copyFar (srcStride l) ix, w0 * e)),
     (List.range w0).map (fun i => (dst + lo1 * e + (lo0 + i) * dstStride l 1 + copyFar (dstStride l) ix, w1 * e)))
  else
    let nt := copyRunTiles l
    let run := k / nt
    let off := k % nt * 4096
    let n := min 4096 (copyCount l 0 * e - off)
    let i1 := run % copyCount l 1
    let ix := copyOuter l (run / copyCount l 1)
    ([(src + off + i1 * srcStride l 1 + copyFar (srcStride l) ix, n)],
     [(dst + off + i1 * dstStride l 1 + copyFar (dstStride l) ix, n)])

/-- The segment descriptors of a context as this die's memory holds them. -/
def rawSeg (b : Blk) (ctx n : Nat) : Seg := parseSeg b (b.mem.bytes (ctxEntry b ctx + 64 + 32 * n) 32)

/-- Where a device virtual address lies by its segment, present or not: fabric or host address, and HOST. -/
def rawTarget (b : Blk) (ctx va : Nat) : Option (Nat × Bool) :=
  ((List.range 16).map (rawSeg b ctx)).findSome? (fun s =>
    if s.ok && decide (s.vbase ≤ va) && decide (va < s.vbase + s.len * 2 ^ 21) then some (s.pbase + (va - s.vbase), s.host)
    else none)

/-- A run of bytes lies in this die's own memory. -/
def ownRun (b : Blk) (ctx : Nat) (r : Nat × Nat) : Bool :=
  (partsOf r.1 r.2).all (fun p => match rawTarget b ctx p.1 with
    | some (pa, host) => !host && b.isSelf pa
    | none => false)

/-- The COPY runs on an inbound engine: its destination lies wholly in this die's memory (R253). -/
def copyInbound (b : Blk) (d : Desc) : Bool :=
  let ctx := (b.q d.q).ctx
  (List.range (copyTiles d.bytes)).all (fun k => (copyPieces d.bytes k).2.all (ownRun b ctx))

/-- COPYs that an engine runs. -/
def engineLoad (b : Blk) (inbound : Bool) (e : Nat) : Nat :=
  (b.front.descs.filter (fun d => match d.work with
    | .copy r => r.inbound == inbound && r.engine == e
    | _ => false)).length

/-- The engine of a class for ENGINE 0xFF: the one with the fewest COPYs, the lowest number on a tie (DESIGN CHOICE, log 35). -/
def freeEngine (b : Blk) (inbound : Bool) : Nat :=
  (List.range 8).foldl (fun best e => if engineLoad b inbound e < engineLoad b inbound best then e else best) 0

/-- COPY (R253): an engine takes the descriptor. -/
def effCopy (n : Nat) (b : Blk) : Blk :=
  match handedOf b n [0x30] with
  | none => b
  | some d =>
    let inb := copyInbound b d
    let e := if byteAt d.bytes 11 = 0xFF then freeEngine b inb else byteAt d.bytes 11
    startWork d.id (.copy { inbound := inb, engine := e, tiles := copyTiles d.bytes }) b

/-- The tile's bytes in destination order: as read, or transposed element by element (R255). -/
def copyArrange (l : List Byte) (pcs : List (Nat × Nat) × List (Nat × Nat)) (d : List PByte) : List PByte :=
  if copyTrans l then
    let e := copyElem l
    let w0 := pcs.2.length
    let w1 := pcs.1.length
    (List.range w0).flatMap (fun i0 => (List.range w1).flatMap (fun i1 => (d.drop ((i1 * w0 + i0) * e)).take e))
  else d

/-- Split data among pieces. -/
def dealOut : List (Nat × Nat) → List PByte → List (Nat × List PByte)
  | [], _ => []
  | (a, n) :: t, d => (a, d.take n) :: dealOut t (d.drop n)

/-- Change a COPY's running state. -/
def modCopy (id : Nat) (f : CopyRun → CopyRun) (b : Blk) : Blk :=
  b.modDesc id (fun d => match d.work with
    | .copy r => { d with work := .copy (f r) }
    | _ => d)

/-- The COPY completes once every tile has been taken (R258). -/
def copyEnd (id : Nat) (b : Blk) : Blk :=
  match b.desc? id with
  | none => b
  | some d =>
    match d.work with
    | .copy r => if r.tiles ≤ r.next then completeWith id .ok (r.committed % 2 ^ 32) 0 b else b
    | _ => b

/-- A tile that fails is skipped, and the COPY goes on with the others as R395 says; R258's promise that AUX counts the first tiles
then holds up to the first that failed (DEDUCED, log 92). -/
def copyTileFails (id : Nat) (b : Blk) : Blk :=
  match b.desc? id with
  | none => b
  | some d =>
    match d.work with
    | .copy r =>
      let b := raise { d.err b 0x14 4 r.next 0 with inst := r.engine } b
      let b := addStatus id .cancelled (bump Ctr.unitsFailed (b.q d.q).ctx 1 b)
      copyEnd id (modCopy id (fun r => { r with next := r.next + 1 }) b)
    | _ => b

/-- A tile has been committed: it is visible. -/
def copyCommitted (d : Desc) (bytes : Nat) (b : Blk) : Blk :=
  let n := ceilDiv bytes 64
  let b := charge 0x09 n (some (b.q d.q).ctx) (some d.q) (bump Ctr.cpBytes d.q n (bump Ctr.cpTiles d.q 1 b))
  let b := b.modDesc d.id (fun d => { d with started := true })
  copyEnd d.id (modCopy d.id (fun r => { r with next := r.next + 1, committed := r.committed + 1, writing := none }) b)

/-- A tile of `n` bytes has been written: it is committed as soon as its bytes are visible (R223, R258). -/
def copyWritten (id n : Nat) (b : Blk) : Blk :=
  match b.desc? id with
  | none => b
  | some d =>
    if b.writesDone (.desc id) then copyCommitted d n b
    else modCopy id (fun r => { r with writing := some n }) b

/-- A poisoned source of a tile writes its record (R389). -/
def copyPoison (d : Desc) (r : CopyRun) (srcs : List (Nat × Nat)) (l : List PByte) (b : Blk) : Blk :=
  match (dealOut srcs l).find? (fun p => anyPoison p.2) with
  | some (va, _) => raise { d.err b 0x12 4 (poisonSource (clsOf b d.q) va b) va with inst := r.engine } b
  | none => b

/-- Keep a tile that has been read until its destination takes it (R223). -/
def holdTile (u : UnitRef) (srcs : List (Nat × Nat)) (l : List PByte) (b : Blk) : Blk :=
  { b with xlat := { b.xlat with
      held := b.xlat.held.filter (fun h => h.1 ≠ u) ++ (dealOut srcs l).map (fun p => (u, p.1, p.2)) } }

/-- COPY_TILE (R221, R256): the COPY's next tile is read whole, then written whole. A read or write that cannot reach its
target ends the COPY there (R210). -/
def effCopyTile (id : Nat) (b : Blk) : Blk :=
  match b.desc? id with
  | none => b
  | some d =>
    match d.work with
    | .copy r =>
      if b.isParked (.desc id) || decide (r.tiles ≤ r.next) then b
      else if r.writing.isSome then copyWritten id (r.writing.getD 0) b
      else
        let c := clsOf b d.q
        let rq := if r.inbound then Rq.copyIn r.engine else Rq.copyOut r.engine
        let pcs := copyPieces d.bytes r.next
        let srcs := pcs.1.flatMap (fun p => partsOf p.1 p.2)
        match rdParts rq (.desc id) c srcs b with
        | (b, .ok l) =>
          match wrAll rq (.desc id) c (dealOut pcs.2 (copyArrange d.bytes pcs l)) b with
          | (b, .ok) => copyWritten id l.length (copyPoison d r pcs.1 l (forgetUnit (.desc id) b))
          | (b, .fail s) => completeWith id s (r.committed % 2 ^ 32) 0 (forgetUnit (.desc id) b)
          | (b, .badMeta) => copyTileFails id (forgetUnit (.desc id) b)
          | (b, .fault) => holdTile (.desc id) srcs l b
          | (b, .wait) => holdTile (.desc id) srcs l b
        | (b, .fail s) => completeWith id s (r.committed % 2 ^ 32) 0 (forgetUnit (.desc id) b)
        | (b, .badMeta) => copyTileFails id (forgetUnit (.desc id) b)
        | (b, .fault) => b
        | (b, .wait) => b
    | _ => b

/-! ### BIAS_FLIP -/

/-- BIAS_FLIP (R247): the descriptor is taken. -/
def effBiasFlip (n : Nat) (b : Blk) : Blk :=
  match handedOf b n [0x31] with
  | none => b
  | some d => startWork d.id (.bias {}) b

/-- Change a BIAS_FLIP's running state. -/
def modBias (id : Nat) (f : BiasRun → BiasRun) (b : Blk) : Blk :=
  b.modDesc id (fun d => match d.work with
    | .bias r => { d with work := .bias (f r) }
    | _ => d)

/-- The BIAS_FLIP completes after its last granule, or after the one in progress when its function's grace has ended (R249,
R266). -/
def biasEnd (id : Nat) (b : Blk) : Blk :=
  match b.desc? id with
  | none => b
  | some d =>
    match d.work with
    | .bias r =>
      if r.stopped then completeWith id .cancelled r.changed r.skipped b
      else if d.f 12 4 ≤ r.next then completeWith id .ok r.changed r.skipped b
      else b
    | _ => b

/-- A granule is done with: passed over, skipped or changed. -/
def biasNext (id : Nat) (changed skipped : Bool) (b : Blk) : Blk :=
  let b := match b.desc? id with
    | some d => if changed then bump Ctr.bfGranules (b.q d.q).ctx 1 b else b
    | none => b
  biasEnd id (modBias id (fun r => { r with
    next := r.next + 1
    waiting := false
    changed := r.changed + boolNat changed
    skipped := r.skipped + boolNat skipped }) b)

/-- Clean and invalidate every metadata-cache line of a granule on every pitch (R248). -/
def cleanGranule (lo n : Nat) (b : Blk) : Blk :=
  let mine (l : Line) : Bool := decide (lo ≤ l.addr ∧ l.addr < lo + n)
  let b := (b.pitches.flatMap (fun e => e.2.mdc.lines.map (fun l => (e.1, l.2)))).foldl (fun b l =>
    if mine l.2 && l.2.dirty then writeLine (.mdc l.1) l.1 l.2 b else b) b
  { b with pitches := b.pitches.map (fun e => (e.1, { e.2 with mdc := { e.2.mdc with
      lines := e.2.mdc.lines.filter (fun l => !mine l.2) } })) }

/-- Filter lines of a device granule. -/
def granLines (b : Blk) (g : Nat) : List Nat := b.host.filter.filter (fun l => 64 * l / 2 ^ 21 = g)

/-- The last step of a device granule: its bias is written once no back-invalidation is out, and its accesses go on. -/
def biasDevice (id g : Nat) (shared : Bool) (b : Blk) : Blk :=
  let ls := if shared then [] else granLines b g
  if ls.isEmpty then
    biasNext id true false { b with host := { b.host with owned := b.host.owned.set g (!shared), flipping := none } }
  else modBias id (fun r => { r with waiting := true }) (sendSnoops ls b)

/-- A host granule: its override entry (R246). -/
def biasHost (id ctx seg gran pa : Nat) (shared now : Bool) (b : Blk) : Blk :=
  let mine (e : Nat × Nat × Nat × Bool) : Bool := e.1 = ctx && e.2.1 = seg && e.2.2.1 = gran
  if b.straps.lead && b.host.state == 2 then biasNext id false true (addStatus id .hostLost b)
  else if now = shared then biasNext id false false b
  else if 256 ≤ b.host.override.length ∧ b.host.override.any mine = false then biasNext id false true b
  else
    let b := cleanGranule (lineKey pa true) (2 ^ 21) b
    biasNext id true false { b with host := { b.host with
      override := b.host.override.filter (fun e => !mine e) ++ [(ctx, seg, gran, shared)] } }

/-- BIAS_FLIP_GRANULE (R248). -/
def effBiasFlipGranule (id : Nat) (b : Blk) : Blk :=
  match b.desc? id with
  | none => b
  | some d =>
    match d.work with
    | .bias r =>
      if b.isParked (.desc id) then b
      else
        let c := clsOf b d.q
        let va := d.f 16 8 + r.next * 2 ^ 21
        let shared := d.f 8 1 == 1
        match r.waiting, b.host.flipping with
        | true, some g => biasDevice id g shared b
        | _, _ =>
          match translate .front (.desc id) c va false false b with
          | (b, .ok pa host seg gran now) =>
            if host then biasHost id c.ctx seg gran pa shared now b
            else if paChip pa ≠ b.ident.chip then biasNext id false true b
            else if paDie pa ≠ b.ident.die then
              match tryReach c.ctx (paChip pa) (paDie pa) b with
              | (b, some s) => completeWith id s r.changed r.skipped b
              | (b, none) => biasNext id (Config.peerBiasChanged b.stamp pa) false { b with stamp := b.stamp + 1 }
            else
              let g := paOff pa / 2 ^ 21
              if b.host.owned.get false g = !shared then biasNext id false false b
              else if b.host.flipping.isSome then b
              else biasDevice id g shared (cleanGranule (b.selfPa (g * 2 ^ 21)) (2 ^ 21)
                    { b with host := { b.host with flipping := some g } })
          | (b, .fault cause seg gran) =>
            park (.desc id) c.ctx .front va (2 ^ 21) false cause (recordFault .front c.ctx false cause seg gran b)
          | (b, .fail s) => completeWith id s r.changed r.skipped b
          | (b, .poisoned) => completeWith id .cancelled r.changed r.skipped b
          | (b, .wait) => b
    | _ => b

def execCopy (q : Nat) (s : State) : Host.Outcome State Fault Refusal := fireReady (q < 256) (effCopy q) s
def execCopyTile (id : Nat) (s : State) : Host.Outcome State Fault Refusal := fireReady true (effCopyTile id) s
def execBiasFlip (q : Nat) (s : State) : Host.Outcome State Fault Refusal := fireReady (q < 256) (effBiasFlip q) s
def execBiasFlipGranule (id : Nat) (s : State) : Host.Outcome State Fault Refusal := fireReady true (effBiasFlipGranule id) s

end Sys2Proof.Machine
end

