-- ==== Sys2Proof/Machine/Xlat.lean ====
section
/-! DEFINITION. Translation seen by the driver: fault batches (R213 to R217), RESUME (R218, R219), invalidations (R225 to R227),
and the traffic of the caches: metadata fills (R229), hints (R233, R403), prefetches (R236) and write completions (R401). -/
namespace Sys2Proof.Machine

/-! ### When a batch is due -/

/-- Work of a descriptor below it is parked: each of its units, or a fragment that the unit waits for. -/
def unitParked (b : Blk) (u : Unit) : Bool :=
  b.isParked (.unit u.uid)
    || b.frags.any (fun f => f.req.isNone && b.isParked (.frag f.fid) && b.bags.any (fun x => x.unit = u.uid && x.tag = f.tag))

/-- A dispatched descriptor is parked (R215). -/
def descParked (b : Blk) (d : Desc) : Bool :=
  let us := b.units.filter (fun u => u.op = d.id)
  b.isParked (.desc d.id) || (!us.isEmpty && us.all (unitParked b))

/-- The front end is idle (R215): nothing to fetch or dispatch, and all that is dispatched is complete or parked. -/
def frontIdle (b : Blk) : Bool :=
  !(b.front.queues.any (fun e => (fetching b e.1 && decide (e.2.fetch < e.2.tailSlots)) || (nextDispatch b e.1).isSome))
    && b.front.descs.all (fun d => d.stage == .fetched || d.stage == .held || d.stage == .complete || descParked b d)

/-- A batch is due (R215). -/
def batchDue (b : Blk) : Bool :=
  let pend := b.xlat.staging.filter (fun r => !r.held)
  match pend with
  | [] => false
  | r :: _ => decide (64 ≤ pend.length) || decide (r.entered + 16384 ≤ b.clk.half) || frontIdle b

/-- FAULT_BATCH_TIMER (R215). -/
def effFaultBatchTimer (b : Blk) : Blk := if batchDue b then faultBatch b else b

/-- COMPLETION_WRITE (R41, R42), and the batch that is due when it leaves the front end idle (R215). -/
def effCompletion (n : Nat) (b : Blk) : Blk := effFaultBatchTimer (effCompletionWrite n b)

/-! ### The translation page -/

/-- FAULT_HEAD of a context of this die: an advance lets its held records go (R215). -/
def faultHeadHere (ctx : Nat) (v : W64) (b : Blk) : Blk :=
  let old := b.xlat.head.get 0 ctx
  let new := v.toNat % 2 ^ 32
  let b := { b with xlat := { b.xlat with head := b.xlat.head.set ctx new } }
  if old ≠ new ∧ b.xlat.staging.any (fun r => r.held && r.ctx = ctx) = true then faultBatch b else b

/-- Accesses of a VF's translation page are confined to its contexts (R242). -/
def xlatPage (fn ctx : Nat) (f : Blk → Blk) (b : Blk) : Blk :=
  if !(hostReaches b) then b
  else if fn ≠ 0 ∧ ownsCtx b fn ctx = false then bump Ctr.hsForeignWrites 0 1 b
  else f b

/-- The other dies of the chip. -/
def otherDies (b : Blk) : List Nat := b.dies.filter (· ≠ b.ident.die)

/-- FAULT_HEAD_WRITE (R211, R215). -/
def effFaultHeadWrite (fn die ctx : Nat) (v : W64) (b : Blk) : Blk :=
  xlatPage fn ctx (fun b =>
    if die = b.ident.die then faultHeadHere ctx v b
    else if b.diePresent die then forwardWrite die 2 fn 0 (0x100 + 0x200 * die + 8 * ctx) v b
    else b) b

/-! ### RESUME -/

/-- What a recheck of one access finds. -/
inductive Recheck where
  | clear
  | fault (cause seg gran : Nat)
  | wait
deriving DecidableEq, Repr

/-- One access of a parked unit, read again past every cache (R218). -/
def recheckParts (p : Parked) (c : Cls) : List (Nat × Nat) → Blk → Blk × Recheck
  | [], b => (b, .clear)
  | (va, _) :: t, b =>
    match translate p.rq p.unit c va p.write true b with
    | (b, .fault cause seg gran) => (b, .fault cause seg gran)
    | (b, .wait) => (b, .wait)
    | (b, _) => recheckParts p c t b

/-- The queue of the operator that a unit of work belongs to, where ABORT may end it (R219). -/
def abortable (b : Blk) (u : UnitRef) : Bool :=
  match u with
  | .unit _ => true
  | .frag fid => b.frags.any (fun f => f.fid = fid && f.req.isNone)
  | .desc id =>
    match b.desc? id with
    | some d => !([0x22, 0x23, 0x24].contains d.opcode)
    | none => false
  | _ => false

/-- A unit of a SCATTER or of another operator ends (R219). -/
def abortUnit (uid : Nat) (b : Blk) : Blk :=
  match b.unit? uid with
  | none => b
  | some u =>
    let b := endUnit uid .cancelled b
    if u.kind = .scatter then flushIfLast u.pitch u.op b else b

/-- A parked unit is ended by ABORT: it writes nothing further, and its operator completes with CANCELLED (R219). -/
def abortRef (u : UnitRef) (b : Blk) : Blk :=
  match u with
  | .unit uid => abortUnit uid b
  | .frag fid =>
    match b.frags.find? (fun f => f.fid = fid) with
    | some f =>
      match b.bags.find? (fun x => x.tag = f.tag) with
      | some x => abortUnit x.unit b
      | none => b
    | none => b
  | .desc id =>
    match b.desc? id with
    | some d => if d.opcode = 0x06 then rearmFailed d .cancelled (dropWork id b) else stopDesc id .cancelled b
    | none => b
  | _ => b

/-- A unit of work resumes once none of its accesses is parked (R220): the early-doorbell count of a fetch stood still, a fragment is
pooled again from its first row, and a unit of an array or lattice operator goes back to its first operand row or point (R140). -/
def resumed (p : Parked) (b : Blk) : Blk :=
  if b.isParked p.unit then b
  else
    match p.unit with
    | .fetch n => b.modQ n (fun x => { x with poll := x.poll.map (fun k => { k with t0 := k.t0 + (b.clk.half - p.since) }) })
    | .unit uid => if p.write then b else restartUnit uid b
    | .frag fid =>
      match b.frags.find? (fun f => f.fid = fid) with
      | some f =>
        if f.corner && f.req.isNone then
          match b.bags.find? (fun x => x.tag = f.tag) with
          | some x => restartUnit x.unit b
          | none => b
        else { b with frags := b.frags.map (fun g =>
          if g.fid = fid then { g with next := 0, acc := List.replicate g.dim 0, off := 0 } else g) }
      | none => b
    | _ => b

/-- Recheck one parked access of the context (R218, R219). One that must wait for memory stays parked, and is rechecked when that has
come. -/
def recheck (abort : Bool) (p : Parked) (b : Blk) : Blk :=
  let mine (q : Parked) : Bool := q.unit = p.unit && q.va = p.va && q.write = p.write
  let note (f : Parked → Parked) (b : Blk) : Blk :=
    { b with xlat := { b.xlat with parked := b.xlat.parked.map (fun q => if mine q then f q else q) } }
  if !(b.xlat.parked.any mine) then b
  else
    let c : Cls := { ctx := p.ctx }
    match recheckParts p c (partsOf p.va p.len) b with
    | (b, .clear) => resumed p { b with xlat := { b.xlat with parked := b.xlat.parked.filter (fun q => !mine q) } }
    | (b, .wait) => note (fun q => { q with again := some abort }) b
    | (b, .fault cause seg gran) =>
      if abort && abortable b p.unit then
        let b := bump Ctr.ftAborted p.ctx 1 b
        forgetUnit p.unit (abortRef p.unit b)
      else
        note (fun q => { q with cause := cause, again := none }) (recordFault p.rq p.ctx p.write cause seg gran b)

/-- The rechecks that waited for memory are made again. -/
def recheckAgain (b : Blk) : Blk :=
  b.xlat.parked.foldl (fun b p => match p.again with
    | some abort => recheck abort p b
    | none => b) b

/-- The overflow logs of a context are looked at again (R163). -/
def reopenLogs (ctx : Nat) (b : Blk) : Blk :=
  { b with gs := { b.gs with logs := b.gs.logs.map (fun e => if e.1 / 4096 = ctx then (e.1, { e.2 with full := false }) else e) } }

/-- RESUME on one die (R218). -/
def resumeHere (ctx : Nat) (abort : Bool) (b : Blk) : Blk :=
  let b := bump Ctr.ftResumes ctx 1 b
  let b := reopenLogs ctx { b with xlat := { b.xlat with outstanding := b.xlat.outstanding.filter (fun k => k.ctx ≠ ctx) } }
  (b.xlat.parked.filter (fun p => p.ctx = ctx)).foldl (fun b p => recheck abort p b) b

/-- Send a register write to every other die of the chip. -/
def toOthers (fn off : Nat) (v : W64) (b : Blk) : Blk := (otherDies b).foldl (fun b d => forwardWrite d 2 fn 0 off v b) b

/-- RESUME and RESUME_ABORT (R218, R219): on this die, and forwarded to every other. -/
def effResume (fn : Nat) (v : W64) (b : Blk) : Blk :=
  let ctx := bitsOf v.toNat 5 0
  xlatPage fn ctx (fun b => toOthers fn 0x018 v (resumeHere ctx (v.toNat.testBit 8) b)) b

def effResumeAbort (fn : Nat) (v : W64) (b : Blk) : Blk := effResume fn v b

/-! ### Invalidation -/

/-- The lines of this die's metadata that an INVALIDATE selects, as runs of die-local offsets (R226). -/
def invRuns (b : Blk) (v : W64) : List (Nat × Nat) :=
  let op := bitsOf v.toNat 3 0
  let ctx := bitsOf v.toNat 9 4
  let seg := bitsOf v.toNat 13 10
  let g := bitsOf v.toNat 38 14
  let maps (s : Seg) : List (Nat × Nat) := if s.presence then [(s.pmap, 8 * ceilDiv s.len 64)] else []
  let one (c : Nat) : List (Nat × Nat) :=
    (ctxEntry b c, 576) :: (List.range 16).flatMap (fun n => maps (rawSeg b c n))
  if op = 1 then [((rawSeg b ctx seg).pmap + 8 * (g / 64), 8)]
  else if op = 2 then (ctxEntry b ctx + 64 + 32 * seg, 32) :: maps (rawSeg b ctx seg)
  else if op = 3 then one ctx
  else (List.range 64).flatMap one

/-- Host-bias overrides that an INVALIDATE drops (R246). -/
def invOverride (v : W64) (e : Nat × Nat × Nat × Bool) : Bool :=
  let op := bitsOf v.toNat 3 0
  op == 4 || (e.1 == bitsOf v.toNat 9 4
    && (op == 3 || (e.2.1 == bitsOf v.toNat 13 10 && (op == 2 || e.2.2.1 == bitsOf v.toNat 38 14))))

/-- Every holder of this die drops the selected lines; a line that a pitch has written goes to memory first (R226, R231). -/
def invalHere (v : W64) (b : Blk) : Blk :=
  let runs := (invRuns b v).map (fun r => (b.selfPa r.1, r.2))
  let hit (l : Line) : Bool := runs.any (fun r => decide (l.addr < r.1 + r.2 ∧ r.1 < l.addr + 128))
  let b := (b.pitches.flatMap (fun e => e.2.mdc.lines.map (fun l => (e.1, l.2)))).foldl (fun b l =>
    if hit l.2 && l.2.dirty then writeLine (.mdc l.1) l.1 l.2 b else b) b
  { b with
    pitches := b.pitches.map (fun e => (e.1, { e.2 with mdc := { e.2.mdc with
      lines := e.2.mdc.lines.filter (fun l => !hit l.2) } }))
    xlat := { b.xlat with fault := { b.xlat.fault with lines := b.xlat.fault.lines.filter (fun l => !hit l.2) } }
    host := { b.host with override := b.host.override.filter (fun e => !invOverride v e) } }

/-- Accesses of this die that have translated and not finished (R227): a read whose data has not come, a write that is not globally
visible, be it at the port, on its way, dirty in a pitch's cache or held for the host. -/
def underWay (b : Blk) : List Acc :=
  b.gs.writes.map (fun w => Acc.port w.1)
    ++ (b.xlat.rreads.filter (fun r => !r.whole && r.fail.isNone)).map (fun r => Acc.far r.tag)
    ++ b.xlat.rwrites.map (fun w => Acc.far w.tag)
    ++ b.pitches.flatMap (fun e => e.2.mdc.misses.map (fun m => Acc.fill e.1 m.1))
    ++ b.pitches.flatMap (fun e => (e.2.mdc.lines.filter (fun l => l.2.dirty)).map (fun l => Acc.line e.1 l.2.addr))
    ++ b.host.heldWrites.map (fun w => Acc.host w.no)

/-- The accesses that were under way have finished. -/
def finished (b : Blk) (l : List Acc) : Bool := l.all (fun t => !(underWay b).contains t)

/-- Accept an INVALIDATE on the lead die (R226, R242). -/
def invalidateBy (op fn : Nat) (v : W64) (b : Blk) : Blk :=
  let ctx := bitsOf v.toNat 9 4
  if !(hostReaches b) then b
  else if fn ≠ 0 ∧ (op = 4 ∨ ownsCtx b fn ctx = false) then bump Ctr.hsForeignWrites 0 1 b
  else if 64 ≤ b.xlat.invals.length then bump Ctr.ftInvRefused 0 1 b
  else
    let tags := underWay b
    let b := invalHere v b
    let b := { b with xlat := { b.xlat with
      invals := b.xlat.invals ++ [{ fn := fn, word := v, mine := tags, waiting := otherDies b }] } }
    toOthers fn 0x000 v b

def effInvalidateGranule (fn : Nat) (v : W64) (b : Blk) : Blk := invalidateBy 1 fn v b
def effInvalidateSegment (fn : Nat) (v : W64) (b : Blk) : Blk := invalidateBy 2 fn v b
def effInvalidateContext (fn : Nat) (v : W64) (b : Blk) : Blk := invalidateBy 3 fn v b
def effInvalidateAll (fn : Nat) (v : W64) (b : Blk) : Blk := invalidateBy 4 fn v b

/-- Report forwarded invalidations to the lead die, in order, once they are complete here (R227). -/
def sendReports : Nat → Blk → Blk
  | 0, b => b
  | n + 1, b =>
    match b.xlat.reports with
    | (die, token, tags) :: rest =>
      if finished b tags then
        let b := { b with xlat := { b.xlat with reports := rest } }
        sendReports n (match reachFail b 0 b.ident.chip die with
          | some _ => b
          | none => sendMsg b.ident.chip die {} (.fwdReport token) b)
      else b
    | [] => b

/-- Write the acknowledgement word (R211, R227). -/
def writeAck (fn token done : Nat) (b : Blk) : Blk :=
  let a := Tbl.get 0 b.xlat.ackAddr fn
  let word := toLe 2 token ++ toLe 6 done
  let addr := bitsOf a.toNat 51 3 * 8
  if !(a.toNat.testBit 0) then b
  else if a.toNat.testBit 63 then (hostWrite .block {} addr (word.map (·, false)) b).1
  else gsWriteB addr word b

/-- INVALIDATION_DONE (R227): the oldest invalidation is complete on every die. -/
def effInvalidationDone (b : Blk) : Blk :=
  let b := sendReports (b.xlat.reports.length + 1) b
  match b.xlat.invals with
  | i :: rest =>
    if i.waiting.isEmpty && finished b i.mine then
      let token := bitsOf i.word.toNat 63 48
      let done := b.xlat.done.get 0 i.fn + 1
      let b := { b with xlat := { b.xlat with invals := rest, token := b.xlat.token.set i.fn token, done := b.xlat.done.set i.fn done } }
      writeAck i.fn token done (bump Ctr.ftInvDone 0 1 b)
    else b
  | [] => b

/-- Fields of INV_ACK_ADDR that R211 defines (R8). -/
def ackMask : W64 := 0x800ffffffffffff9#64

/-- A forwarded write of the translation page (R277). -/
def xlatWriteHere (fn off : Nat) (v : W64) (src : Nat) (b : Blk) : Blk :=
  if off = 0x018 then resumeHere (bitsOf v.toNat 5 0) (v.toNat.testBit 8) b
  else if off = 0x000 then
    let tags := underWay b
    let b := invalHere v b
    sendReports 1 { b with xlat := { b.xlat with reports := b.xlat.reports ++ [(src, bitsOf v.toNat 63 48, tags)] } }
  else if off = 0x008 then { b with xlat := { b.xlat with ackAddr := Tbl.set b.xlat.ackAddr fn (v &&& ackMask) } }
  else if 0x100 + 0x200 * b.ident.die ≤ off ∧ off < 0x300 + 0x200 * b.ident.die then
    faultHeadHere ((off - (0x100 + 0x200 * b.ident.die)) / 8) v b
  else b

/-- A read of the translation page (R211). -/
def xlatRead (fn off : Nat) (b : Blk) : W64 :=
  if off = 0x008 then Tbl.get 0 b.xlat.ackAddr fn
  else if off = 0x010 then
    BitVec.ofNat 64 (b.xlat.token.get 0 fn + 2 ^ 16 * (b.xlat.invals.filter (fun i => i.fn = fn)).length)
  else if off = 0x020 then BitVec.ofNat 64 (b.xlat.staging.length + 2 ^ 9 * b.xlat.outstanding.length)
  else if 0x100 + 0x200 * b.ident.die ≤ off ∧ off < 0x300 + 0x200 * b.ident.die then
    BitVec.ofNat 64 (b.xlat.head.get 0 ((off - (0x100 + 0x200 * b.ident.die)) / 8))
  else 0

/-! ### Caches -/

/-- MDC_FILL (R229): the oldest outstanding line of a pitch arrives. A poisoned one is not allocated (R389). -/
def effMdcFill (p : Nat) (b : Blk) : Blk :=
  match (b.pitch p).mdc.misses with
  | [] => b
  | (key, ctx, shared) :: _ =>
    let host := decide (2 ^ 63 ≤ key)
    let pa := key % 2 ^ 63
    let drop (b : Blk) : Blk :=
      let x := b.pitch p
      b.setPitch p { x with mdc := { x.mdc with misses := x.mdc.misses.drop 1 } }
    let keep (l : List PByte) (b : Blk) : Blk :=
      { b with xlat := { b.xlat with held := b.xlat.held ++ [(.mdc p, key, l)] } }
    match readPhys (.mdc p) { ctx := ctx, shared := shared } pa 128 host b with
    | (b, .ok d) =>
      if anyPoison d then keep d (drop b) else mdcInstall p { addr := key, data := d, dirty := false, ctx := ctx } (drop b)
    | (b, .fail _) => keep [] (drop b)
    | (b, .wait) => b

/-- What stores put into a dirty line of the hint port becomes visible (R106, R233). -/
def hintWrite (h : Hint) (b : Blk) : Blk :=
  (maskRuns h.mask).foldl (fun b r =>
    let pa := keyPa h.addr + r.1
    let d := (h.data.drop r.1).take r.2
    if !keyHost h.addr && b.isSelf pa then
      match mustWait b none (paOff pa) r.2 with
      | none => gsWrite none (paOff pa) d b
      | some ls => portWrite .block (paOff pa) d (sendSnoops ls b)
    else (writePhys .block {} pa d (keyHost h.addr) b).1) b

/-- HINT_TAKE (R403): a dirty line is globally visible from its acceptance. -/
def effHintTake (b : Blk) : Blk :=
  match b.xlat.hints with
  | h :: rest =>
    let b := { b with xlat := { b.xlat with hints := rest } }
    recheckAgain (if h.dirty then hintWrite h b else b)
  | [] => b

/-- HINT_DECLINE (R403): a clean line is dropped; a dirty one is written to memory, with an error record of cause ECC. -/
def effHintDecline (b : Blk) : Blk :=
  match b.xlat.hints with
  | h :: rest =>
    let b := { b with xlat := { b.xlat with hints := rest } }
    if h.dirty then raise { cause := 0x10, unit := 1, detail := 1 } (recheckAgain (hintWrite h b))
    else bump Ctr.mdHintDeclined 0 1 b
  | [] => b

/-- PREFETCH_DEPTH, where the detectors are enabled (R236). -/
def prefetchDepth (b : Blk) : Nat := if b.obj Obj.prefetchEn 1 = 1 then b.obj Obj.prefetchDepth 4 else 0

/-- Prefetch lines of a queue's ring into the descriptor cache (R236). -/
def prefetchRing (n : Nat) (c : Cls) : List Nat → Blk → Blk
  | [], b => b
  | va :: t, b =>
    match translate .front (.fetch n) c va false false b with
    | (b, .ok pa host _ _ sh) =>
      let key := lineKey pa host
      if (b.xlat.desc.find key).isSome then prefetchRing n c t b
      else
        match readPhys (.fetch n) (c.biased host sh) pa 128 host b with
        | (b, .ok d) =>
          let l : Line := { addr := key, data := d, dirty := false, ctx := c.ctx }
          prefetchRing n c t (bump Ctr.pfLines c.ctx 1 { b with xlat := { b.xlat with desc := b.xlat.desc.fillRr l } })
        | (b, .wait) => b
        | (b, .fail _) => bump Ctr.pfDropped c.ctx 1 b
    | (b, .fault _ _ _) => bump Ctr.pfDropped c.ctx 1 b
    | (b, _) => b

/-- Prefetch runs of a unit's input into its pitch's sack (R236). -/
def prefetchUnit (u : Unit) (c : Cls) : List (Nat × Nat) → Blk → Blk
  | [], b => b
  | (va, n) :: t, b =>
    match translate (.pitch u.pitch) (.unit u.uid) c va false false b with
    | (b, .ok pa host _ _ sh) =>
      match readPhys (.unit u.uid) (c.biased host sh) pa n host b with
      | (b, .ok d) =>
        let x := b.pitch u.pitch
        let b := b.setPitch u.pitch { x with ahead := x.ahead ++ [(u.op, va, d)] }
        prefetchUnit u c t (bump Ctr.pfLines c.ctx 1 b)
      | (b, .wait) => b
      | (b, .fail _) => bump Ctr.pfDropped c.ctx 1 b
    | (b, .fault _ _ _) => bump Ctr.pfDropped c.ctx 1 b
    | (b, _) => b

/-- The part of a line that lies in a stream: none outside it, and none past its last element. -/
def lineIn (base len line : Nat) : Option (Nat × Nat) :=
  let lo := max (128 * line) base
  let hi := min (128 * line + 128) (base + len)
  if lo < hi then some (lo, hi - lo) else none

/-- What the detectors of a unit's readers fetch ahead: lines of the descriptor's streams that the sack does not hold yet. -/
def unitAhead (b : Blk) (u : Unit) (d : Desc) (depth : Nat) : List (Nat × Nat) :=
  let x := b.pitch u.pitch
  (d.streams.flatMap (fun s => ((x.det.get {} s.1).next depth).filterMap (lineIn s.2.1 s.2.2))).filter (fun r =>
    !(x.ahead.any (fun h => h.1 = u.op && h.2.1 = r.1)))

/-- PREFETCH (R236): after two successive line reads at one stride, lines ahead at that stride. -/
def effPrefetch (r : Reader) (b : Blk) : Blk :=
  let depth := prefetchDepth b
  match r with
  | .fetch n =>
    let x := b.q n
    let slot := x.fetch % x.span
    if depth = 0 ∨ b.obj Obj.descEn 0 = 0 ∨ fetching b n = false ∨ x.tailSlots ≤ x.fetch then b
    else
      let first := x.ringBase.toNat + 64 * slot
      let last := first + 64 * (min (x.tailSlots - x.fetch) (x.span - slot) - 1)
      prefetchRing n (clsOf b n) (((x.det.next depth).map (128 * ·)).filter (fun va => first < va + 128 && va ≤ last)) b
  | .unit uid =>
    match unitOf b uid with
    | some (u, d) =>
      if depth = 0 ∨ b.isParked (.unit uid) = true then b else prefetchUnit u (clsOf b d.q) (unitAhead b u d depth) b
    | none => b

/-! ### Write completions -/

/-- The context of a unit of work, for its counters. -/
def ctxOfRef (b : Blk) (u : UnitRef) : Option Nat :=
  match u with
  | .unit uid => (unitOf b uid).map (fun e => (b.q e.2.q).ctx)
  | .desc id => (b.desc? id).map (fun d => (b.q d.q).ctx)
  | .fetch q | .compl q => some (b.q q).ctx
  | .log c _ => some c
  | .frag fid => (b.frags.find? (fun f => f.fid = fid)).map (·.ctx)
  | _ => none

/-- Writes in front of one with a given tag that overlap it: the port has not been given it yet (R401). -/
def writeBlocked (ws : List (Nat × Nat × List PByte × UnitRef)) (w : Nat × Nat × List PByte × UnitRef) : Bool :=
  (ws.takeWhile (fun v => v.1 ≠ w.1)).any (fun v => decide (v.2.1 < w.2.1 + w.2.2.1.length ∧ w.2.1 < v.2.1 + v.2.2.1.length))

/-- GS_WDONE (R401): the write with this tag is globally visible. One whose line the host may hold has not been handed over yet: the
line comes back first (R244). -/
def effGsWdone (tag : Nat) (b : Blk) : Blk :=
  match b.gs.writes.find? (fun w => w.1 = tag) with
  | some w =>
    if writeBlocked b.gs.writes w then b
    else if snoopLines b w.2.1 w.2.2.1.length ≠ [] then sendSnoops (snoopLines b w.2.1 w.2.2.1.length) b
    else
      let c := ctxOfRef b w.2.2.2
      recheckAgain <| gsWrite c w.2.1 w.2.2.1 { b with gs := { b.gs with writes := b.gs.writes.filter (fun v => v.1 ≠ tag) } }
  | none => b

def execCompletionWrite (q : Nat) (s : State) : Host.Outcome State Fault Refusal := fireReady (q < 256) (effCompletion q) s
def execFaultBatchTimer (s : State) : Host.Outcome State Fault Refusal := fireReady true effFaultBatchTimer s
def execFaultHeadWrite (fn die ctx : Nat) (v : W64) (s : State) : Host.Outcome State Fault Refusal :=
  fireReady (fn < 64 && die < 4 && ctx < 64) (effFaultHeadWrite fn die ctx v) s
def execResume (fn : Nat) (v : W64) (s : State) : Host.Outcome State Fault Refusal :=
  fireReady (fn < 64 && !v.toNat.testBit 8) (effResume fn v) s
def execResumeAbort (fn : Nat) (v : W64) (s : State) : Host.Outcome State Fault Refusal :=
  fireReady (fn < 64 && v.toNat.testBit 8) (effResumeAbort fn v) s
def execInvalidateGranule (fn : Nat) (v : W64) (s : State) : Host.Outcome State Fault Refusal :=
  fireReady (fn < 64 && bitsOf v.toNat 3 0 == 1) (effInvalidateGranule fn v) s
def execInvalidateSegment (fn : Nat) (v : W64) (s : State) : Host.Outcome State Fault Refusal :=
  fireReady (fn < 64 && bitsOf v.toNat 3 0 == 2) (effInvalidateSegment fn v) s
def execInvalidateContext (fn : Nat) (v : W64) (s : State) : Host.Outcome State Fault Refusal :=
  fireReady (fn < 64 && bitsOf v.toNat 3 0 == 3) (effInvalidateContext fn v) s
def execInvalidateAll (fn : Nat) (v : W64) (s : State) : Host.Outcome State Fault Refusal :=
  fireReady (fn < 64 && bitsOf v.toNat 3 0 == 4) (effInvalidateAll fn v) s
def execInvalidationDone (s : State) : Host.Outcome State Fault Refusal := fireReady true effInvalidationDone s
def execMdcFill (p : Nat) (s : State) : Host.Outcome State Fault Refusal := fireReady (p < 32) (effMdcFill p) s
def execHintTake (s : State) : Host.Outcome State Fault Refusal := fireReady true effHintTake s
def execHintDecline (s : State) : Host.Outcome State Fault Refusal := fireReady true effHintDecline s
def execPrefetch (r : Reader) (s : State) : Host.Outcome State Fault Refusal := fireReady true (effPrefetch r) s
def execGsWdone (tag : Nat) (s : State) : Host.Outcome State Fault Refusal := fireReady (tag < 65536) (effGsWdone tag) s

end Sys2Proof.Machine
end

