-- ==== Sys2Proof/Machine/Hdm.lean ====
section
/-! DEFINITION. The chip's memory as the host and its peers see it: the HDM range (R243), the snoop filter (R244, R245), host snoops
(R238), and the bivouac window (R251, R252). -/
namespace Sys2Proof.Machine

/-- The die and die-local offset of an offset into the HDM range (R243). -/
def hdmDie (off : Nat) : Nat := off / 2 ^ 41 % 4
def hdmLocal (off : Nat) : Nat := off % 2 ^ 41

/-- Bytes of an access. -/
def HdmAcc.size (a : HdmAcc) : Nat := if a.write then a.data.length else a.len

/-- Lines of 64 bytes that an access touches in SHARED granules of this die. -/
def sharedLines (b : Blk) (off n : Nat) : List Nat :=
  ((List.range (ceilDiv (off % 64 + n) 64)).map (· + off / 64)).filter (fun l => !(b.host.owned.get false (64 * l / 2 ^ 21)))

/-- The lines that a host read for caching adds to the filter (R244). -/
def newLines (b : Blk) (a : HdmAcc) : List Nat :=
  if a.caching && !a.write && !a.peer then (sharedLines b (hdmLocal a.off) a.len).filter (fun l => !b.host.filter.contains l) else []

/-- Lines of the snoop filter (R245). -/
def filterRoom : Nat := 524288

/-- A victim of a full filter: BISnpInv goes out, and its entry is dropped with the answer (R245). -/
def evictVictim (b : Blk) : Blk :=
  let v := b.host.filter.getD (Config.filterVictim b.stamp % b.host.filter.length) 0
  if b.host.snooping.isEmpty then
    sendSnoops [v] (bump Ctr.hsFilterEvictions 0 1 { b with stamp := b.stamp + 1 })
  else b

/-- The data of a read of this die: poisoned beyond the installed memory (R243). -/
def hdmBytes (b : Blk) (off n : Nat) : List PByte :=
  (List.range n).map (fun i => if off + i < b.installed then b.mem.pbyte (off + i) else (0, true))

/-- An access to this die's memory; false when it has to wait (R243 to R245). -/
def hdmHere (a : HdmAcc) (b : Blk) : Blk × Bool :=
  let off := hdmLocal a.off
  let n := a.size
  let ls := snoopLines b off n
  let new := newLines b a
  if !ls.isEmpty then (sendSnoops ls b, false)
  else if filterRoom < b.host.filter.length + new.length then (evictVictim b, false)
  else
    let beyond := decide (b.installed < off + n)
    let b := if beyond then raise { cause := 0x06, unit := 5, detail := a.off } b else b
    if a.write then (if beyond then b else gsWrite none off (a.data.map (·, false)) b, true)
    else
      let d := hdmBytes b off n
      (emit (.hostCpl d) { b with host := { b.host with filter := b.host.filter ++ new } }, true)

/-- An access to another die's memory travels as memory packets; while the link trains it waits, and where there is none it is
dropped (R243, R270). -/
def hdmThere (a : HdmAcc) (b : Blk) : Blk × Bool :=
  let d := hdmDie a.off
  let pa := mkPa b.ident.chip d (hdmLocal a.off)
  if b.diePresent d && (b.link d).state == .training then (b, false)
  else if b.diePresent d && b.linkUp d then
    (if a.write then
       askWrites (.hostAcc a.id) {} b.ident.chip d false (writePieces pa (a.data.map (·, false))) b
     else askRead (.hostAcc a.id) {} pa a.len b.ident.chip d false b, true)
  else if a.write then (fwdDropped d b, true)
  else (emit (.hostCpl (List.replicate a.len (0xFF, false))) b, true)

def hdmTry (a : HdmAcc) (b : Blk) : Blk × Bool := if hdmDie a.off = b.ident.die then hdmHere a b else hdmThere a b

/-- Two held accesses that must keep their order: of another die (R270), or of the same bytes. -/
def hdmOrdered (own : Nat) (a c : HdmAcc) : Bool :=
  hdmDie a.off == hdmDie c.off
    && (hdmDie a.off != own || decide (a.off < c.off + c.size ∧ c.off < a.off + a.size))

/-- Try the held accesses in order; the second list holds those that still wait. -/
def retryList : List HdmAcc → List HdmAcc → Blk → Blk × List HdmAcc
  | [], w, b => (b, w)
  | a :: t, w, b =>
    if w.any (fun c => hdmOrdered b.ident.die c a) then retryList t (w ++ [a]) b
    else
      let r := hdmTry a b
      retryList t (if r.2 then w else w ++ [a]) r.1

/-- Held accesses go on where they can. -/
def retryHeld (b : Blk) : Blk :=
  let r := retryList b.host.held [] { b with host := { b.host with held := [] } }
  { r.1 with host := { r.1.host with held := r.2 } }

/-- A new access of the host or of a peer. -/
def hdmAccess (a : HdmAcc) (b : Blk) : Blk :=
  let a := { a with id := b.host.nextAcc }
  retryHeld { b with host := { b.host with nextAcc := b.host.nextAcc + 1, held := b.host.held ++ [a] } }

/-- HOST_MEM_ACCESS (R243 to R245, R250). -/
def effHostMemAccess (peer write caching : Bool) (off len : Nat) (data : List Byte) (b : Blk) : Blk :=
  if hostReaches b then hdmAccess { peer := peer, write := write, caching := caching, off := off, len := len, data := data } b else b

/-- HOST_SNOOP (R238): always RspIHitI. -/
def effHostSnoop (addr : Nat) (b : Blk) : Blk := if hostReaches b then emit (.snoopRspIHitI addr) b else b

/-- BISNP_RESPONSE (R244): the line comes back, with dirty data where the host had any. -/
def effBisnpResponse (line : Nat) (data : List Byte) (b : Blk) : Blk :=
  if b.host.snooping.contains line then
    let b : Blk := { b with host := { b.host with
      snooping := b.host.snooping.erase line, filter := b.host.filter.erase line } }
    recheckAgain (retryHeld (if data.isEmpty then b else gsWrite none (64 * line) (data.map (·, false)) b))
  else b

/-- BIVOUAC_BASE as its page takes it (R251): another chip's ID leaves it as it was. -/
def bivouacBase (v : W64) (b : Blk) : Blk :=
  if bitsOf v.toNat 61 48 = b.ident.chip then { b with host := { b.host with base := v &&& 0x3FFFFFFFFFE00000#64 } } else b

/-- BIVOUAC_BASE_WRITE (R251). -/
def effBivouacBaseWrite (v : W64) (b : Blk) : Blk := if hostReaches b then bivouacBase v b else b

/-- The HDM offset of a byte of the window (R252): an offset past 2^41 lies past every die's installed memory. -/
def windowOff (b : Blk) (off : Nat) : Nat :=
  let pa := b.host.base.toNat % 2 ^ 48 + off
  paDie pa * 2 ^ 41 + min (paOff pa) (2 ^ 41 - 4096)

/-- BIVOUAC_WINDOW_ACCESS (R252). -/
def effBivouacWindowAccess (write : Bool) (off len : Nat) (data : List Byte) (b : Blk) : Blk :=
  if !(hostReaches b) then b
  else if b.host.en then
    hdmAccess { peer := false, write := write, caching := false, off := windowOff b off, len := len, data := data }
      (bump Ctr.bvAccesses 0 1 b)
  else if write then b
  else emit (.hostCpl (List.replicate len (0xFF, false))) b

def execHostMemAccess (peer write caching : Bool) (off len : Nat) (data : List Byte) (s : State) :
    Host.Outcome State Fault Refusal :=
  fireReady (off < 2 ^ 43 && len ≤ 4096 && data.length ≤ 4096) (effHostMemAccess peer write caching off len data) s
def execHostSnoop (addr : Nat) (s : State) : Host.Outcome State Fault Refusal := fireReady (addr < 2 ^ 52) (effHostSnoop addr) s
def execBisnpResponse (line : Nat) (data : List Byte) (s : State) : Host.Outcome State Fault Refusal :=
  fireReady (line < 2 ^ 35 && (data.length == 0 || data.length == 64)) (effBisnpResponse line data) s
def execBivouacBaseWrite (v : W64) (s : State) : Host.Outcome State Fault Refusal := fireReady true (effBivouacBaseWrite v) s
def execBivouacWindowAccess (write : Bool) (off len : Nat) (data : List Byte) (s : State) : Host.Outcome State Fault Refusal :=
  fireReady (off < 2 ^ 32 && len ≤ 4096 && data.length ≤ 4096) (effBivouacWindowAccess write off len data) s

end Sys2Proof.Machine
end

