-- ==== Sys2Proof/Machine/Lost.lean ====
section
/-! DEFINITION. Transactions whose answer will not come: fragments (R108), contributions (R169), memory requests (R210), and the
UNREACH that answers a dropped packet (R302, R308). -/
namespace Sys2Proof.Machine

/-- Answer a dropped packet to its source with UNREACH (R308, R313): a multicast copy and an UNREACH are not answered. -/
def answerUnreach (k : RPkt) (cause : Nat) (b : Blk) : Blk :=
  if k.h.mcast then b
  else if k.h.ptype = 0x3A then bump Ctr.rgUnreachLost 0 1 b
  else
    let e := encMsg (.unreach k.h cause (k.body.take 32))
    ridgeQueue { h := { ptype := e.1, vc := 5, len := (pad16 e.2).length / 16, dst := k.h.src,
                        src := chipDie b.ident.chip b.ident.die, rt := k.h.rt, stream := k.h.stream },
                 body := e.2 } (bump Ctr.rgUnreachSent 0 1 b)

/-- The contexts that have a transaction out to a chip and die of a kind. -/
def awaiting (b : Blk) (f : Nat → Nat → Bool) : List Nat :=
  let ofOp (id : Nat) : List Nat := ((b.desc? id).map (fun d => (b.q d.q).ctx)).toList
  let frags := (b.bags.filter (fun x => x.frags.any (fun g => f g.chip g.die && g.vals.isNone))).flatMap (fun x => ofOp x.op)
  let msgs := b.front.descs.flatMap (fun d => match d.scatter? with
    | some r => if r.out.any (fun o => f o.2.1 o.2.2.1) then [(b.q d.q).ctx] else []
    | none => [])
  let reads := (b.xlat.rreads.filter (fun r => f r.chip r.die)).flatMap (fun r => (ctxOfRef b r.unit).toList)
  let writes := (b.xlat.rwrites.filter (fun w => f w.chip w.die)).flatMap (fun w => (ctxOfRef b w.unit).toList)
  (frags ++ msgs ++ reads ++ writes).eraseDups

/-- The contexts whose barriers wait on the link to die `p` (R271). -/
def barrierCtxs (p : Nat) (b : Blk) : List Nat :=
  if b.ident.die = 0 then (b.ridge.nodes.map (·.ctx)).filter (fun c => decide (c < 64))
  else if p = 0 then
    (b.front.descs.filter (fun d => match d.barWait with
      | some w => w.sentAt.isSome && w.result.isNone
      | none => false)).map (fun d => (b.q d.q).ctx)
  else []

/-- The units whose bags wait for a fragment from there fail with a status (R108). -/
def fragsLost (f : Nat → Nat → Bool) (s : Status) (b : Blk) : Blk :=
  let hit (g : FragOut) : Bool := f g.chip g.die && g.vals.isNone
  let us := ((b.bags.filter (fun x => x.frags.any hit)).map (·.unit)).eraseDups
  us.foldl (fun b u => endUnit u s b) b

/-- A write of a descriptor will not become visible: a COPY stops at the tile it is at, which is not committed (R258, R261); another
operator notes the status. -/
def descWriteLost (id : Nat) (s : Status) (b : Blk) : Blk :=
  match b.desc? id with
  | none => b
  | some d =>
    match d.work with
    | .copy r => if d.stage = .complete then b else completeWith id s (r.committed % 2 ^ 32) 0 (forgetUnit (.desc id) b)
    | _ => addStatus id s b

/-- A unit's write will not become visible. -/
def unitWriteLost (u : UnitRef) (s : Status) (b : Blk) : Blk :=
  match u with
  | .unit uid => endUnit uid s b
  | .desc id => descWriteLost id s b
  | _ => b

/-- A line written back for no unit in particular: the units whose output it held. -/
def lineWriteLost (p addr : Nat) (s : Status) (b : Blk) : Blk :=
  let l := addr / 128 * 128
  ((b.units.filter (fun u => u.pitch = p && (u.dirty.contains (lineKey l false) || u.dirty.contains (lineKey l true)))).map
    (·.uid)).foldl (fun b u => endUnit u s b) b

/-- A remote write that will not be completed. -/
def writeLost (w : RWrite) (s : Status) (b : Blk) : Blk :=
  match w.unit with
  | .compl q =>
    raise { cause := 0x0E, ctx := some (b.q q).ctx, queue := some q, unit := 0, detail := w.addr, detail2 := 1 } (discardRecord q b)
  | .hostAcc _ => fwdDropped w.die b
  | .mdc p => lineWriteLost p w.addr s b
  | u => unitWriteLost u s b

/-- The tag of a memory request. -/
def pktTag (k : DPkt) : Option Nat :=
  match decMsg k.ptype k.body with
  | some (.memRead m) | some (.memWrite m) => some m.tag
  | _ => none

/-- A request to another die of the chip has not been sent: it still waits for its link (R270). -/
def stillWaits (b : Blk) (chip die tag : Nat) : Bool :=
  chip == b.ident.chip && (b.link die).wait.any (fun k => pktTag k == some tag)

/-- Outstanding writes to there are lost. -/
def writesLost (f : Nat → Nat → Bool) (s : Status) (b : Blk) : Blk :=
  let gone (w : RWrite) : Bool := f w.chip w.die && !(stillWaits b w.chip w.die w.tag)
  let ws := b.xlat.rwrites.filter gone
  let b : Blk := { b with xlat := { b.xlat with rwrites := b.xlat.rwrites.filter (fun w => !gone w) } }
  ws.foldl (fun b w => writeLost w s b) b

/-- Outstanding reads fail; a host's read of another die's memory returns all ones (R270). -/
def readsLost (f : Nat → Nat → Bool) (s : Status) (b : Blk) : Blk :=
  let gone (r : RRead) : Bool := f r.chip r.die && !(stillWaits b r.chip r.die r.tag)
  let host := b.xlat.rreads.filter (fun r => gone r && (match r.unit with
    | .hostAcc _ => true
    | _ => false))
  let b : Blk := { b with xlat := { b.xlat with
    rreads := (b.xlat.rreads.filter (fun r => !host.contains r)).map (fun r => if gone r then { r with fail := some s } else r) } }
  host.foldl (fun b r => emit (.hostCpl (List.replicate r.n (0xFF, false))) b) b

/-- Every transaction that awaits an answer from there fails as its operator lays down (R283, R316). -/
def failAll (f : Nat → Nat → Bool) (s : Status) (b : Blk) : Blk :=
  writesLost f s (readsLost f s (contribsLost f s (fragsLost f s b)))

/-- The context whose work a die-to-die packet belongs to, where its body names one. -/
def pktCtx (k : DPkt) : Option Nat := (decMsg k.ptype k.body).bind msgCtx

/-- A forwarded register read is dropped: it returns all ones (R270), and a QCFG write that waited for it is not made. -/
def readDropped (p : Nat) (b : Blk) : Blk :=
  emit (.regData (BitVec.allOnes 64)) { b with d2d := { b.d2d with
    reads := b.d2d.reads.erase p
    moves := match b.d2d.moves.find? (fun m => m.1 = p) with
      | some m => b.d2d.moves.erase m
      | none => b.d2d.moves } }

/-- A die-to-die packet is lost: one that came from the Ridge is answered with UNREACH (R302), a forwarded access has the
outcome of R270. -/
def lostPkt (p : Nat) (k : DPkt) (b : Blk) : Blk :=
  match k.orig with
  | some r => answerUnreach r 4 b
  | none =>
    if k.ptype = 0x30 then fwdDropped p b
    else if k.ptype = 0x31 then readDropped p b
    else b

/-- Requests that this die passed on for another chip, and that the other die will not answer. -/
def proxiesLost (p : Nat) (b : Blk) : Blk :=
  let ps := b.d2d.proxies.filter (fun x => x.die = p)
  let b : Blk := { b with d2d := { b.d2d with proxies := b.d2d.proxies.filter (fun x => x.die ≠ p) } }
  ps.foldl (fun b x => answerUnreach x.orig 4 b) b

/-- What follows for the operators when the link to die `p` loses what it held (R271, R283, R285, R365). -/
def dieLost (p : Nat) (b : Blk) : Blk :=
  let f (c d : Nat) : Bool := c == b.ident.chip && d == p
  let b : Blk := { b with
    ridge := { b.ridge with agg := b.ridge.agg.filter (fun a => a.via ≠ .d2d p) }
    d2d := { b.d2d with asm := b.d2d.asm.del p }
    mg := { b.mg with fwd := b.mg.fwd.map (fun w => if w.2.2 = p then (0, w.2) else w) } }
  finishTrees (failBranches (fun x => x.kind = 1 && x.no = p) (barriersLinkDown (proxiesLost p (failAll f .d2dDown b))))

end Sys2Proof.Machine
end

