-- ==== Sys2Proof/Machine/D2d.lean ====
section
/-! DEFINITION. The die-to-die link: training (R283 to R285), capabilities (R286 to R288), flits and retry (R273 to R282), and the
forwarded accesses and memory packets that it carries (R270, R276, R277). -/
namespace Sys2Proof.Machine

/-! ### Training -/

/-- Module ports of the link to die p, in ascending order (R269). -/
def modulesOf (b : Blk) (p : Nat) : List Nat := (List.range 12).filter (fun k => (b.moduleMap p).testBit k)

/-- A vector over the halves of a link's modules: bit 2i the i-th module's low half, bit 2i + 1 its high half (R285). -/
def halvesVec (ms : List Nat) (f : Nat → Nat → Bool) : Nat :=
  (List.range ms.length).foldl (fun v i =>
    v + (if f (ms.getD i 0) 0 then 4 ^ i else 0) + (if f (ms.getD i 0) 1 then 2 * 4 ^ i else 0)) 0

/-- The halves that a die may propose (R284). -/
def usableHalves (b : Blk) (p : Nat) : Nat :=
  halvesVec (modulesOf b p) (fun k h => !(b.d2d.bad.get false (2 * k + h)))

/-- A sideband message (R285). -/
def sideband (p msg attempt halves cause : Nat) (b : Blk) : Blk :=
  emit (.sideband p (BitVec.ofNat 64 (msg + 2 ^ 8 * attempt + 2 ^ 16 * halves + 2 ^ 40 * cause))) b

/-- A link at the beginning of a training. -/
def Link.fresh (l : Link) (keep : Bool) : Link :=
  { l with state := .training, keep := keep, vector := 0, mine := none, theirs := none, proposed := false, attempts := 0,
           capSent := false, capGot := none, cause := 0 }

/-- Enter training. Barriers do not wait for a link that is not UP (R271). -/
def startTrain (p msg : Nat) (keep : Bool) (b : Blk) : Blk :=
  let up := b.linkUp p
  let b := sideband p msg 0 0 0 (b.setLink p ((b.link p).fresh keep))
  if up then barriersLinkDown b else b

/-- Send PROPOSAL once in a training (R285). -/
def propose (p : Nat) (b : Blk) : Blk :=
  let l := b.link p
  if l.proposed then b
  else
    let v := usableHalves b p
    sideband p 3 1 v 0 (b.setLink p { l with proposed := true, vector := v })

/-- The records of a link that is held DOWN: one without context and one for each context whose transaction fails (R394). -/
def heldRecords (p cause : Nat) (ctxs : List Nat) (b : Blk) : Blk :=
  ctxs.foldl (fun b c => raise { cause := 0x09, ctx := some c, shared := true, unit := 6, inst := p, detail := cause } b)
    (raise { cause := 0x09, unit := 6, inst := p, detail := cause } b)

/-- The link is held DOWN (R285, R287). -/
def downLink (p cause : Nat) (b : Blk) : Blk :=
  let l := b.link p
  let ctxs := (awaiting b (fun c d => c == b.ident.chip && d == p) ++ barrierCtxs p b).eraseDups
  let b := creditless (.d2d p) (b.setLink p { (default : Link) with state := .down, cause := cause, attempts := l.attempts })
  let b := heldRecords p cause ctxs (alert 3 b)
  let b := b.setLink p { b.link p with told := ctxs }
  retryHeld (dieLost p ((l.wait ++ l.inFlight.map (·.2)).foldl (fun b k => lostPkt p k b) b))

/-- Hold the link DOWN and tell the peer. -/
def holdDown (p cause : Nat) (b : Blk) : Blk := downLink p cause (sideband p 5 0 0 cause b)

/-- Forwarded items that have not been sent survive a reset of the link (R270; DEDUCED, log 36): register accesses, reports, and the
memory packets of host and peer accesses. -/
def survives (b : Blk) (k : DPkt) : Bool :=
  k.ptype == 0x30 || k.ptype == 0x31 || k.ptype == 0x34
    || (k.orig.isNone && (match pktTag k with
      | some t => b.xlat.rreads.any (fun r => r.tag = t && (match r.unit with
          | .hostAcc _ => true
          | _ => false))
        || b.xlat.rwrites.any (fun w => w.tag = t && (match w.unit with
          | .hostAcc _ => true
          | _ => false))
      | none => false))

/-- Clear the CPP state of a link, with what is lost by it (R283, R394). -/
def clearLink (p trigger : Nat) (b : Blk) : Blk :=
  let l := b.link p
  let stay := l.wait.filter (survives b)
  let lost := l.inFlight.map (·.2) ++ l.wait.filter (fun k => !survives b k)
  let ctxs := (awaiting b (fun c d => c == b.ident.chip && d == p) ++ barrierCtxs p b ++ lost.flatMap (fun k => (pktCtx k).toList)).eraseDups
  let b := creditless (.d2d p) (b.setLink p { l with
    state := .training, txSeq := 0, replay := [], rxNext := 0, rxBuf := [], rxStart := 0, rxSlot := 0, rxSkip := 0,
    rxValid := false, credits := [], inFlight := [], wait := stay, nakSeq := 4096, nakCount := 0, nakRetrained := false,
    nakOut := false, owed := [] })
  let halves := (modulesOf b p).flatMap (fun k => [2 * k, 2 * k + 1])
  let b := { b with d2d := { b.d2d with bad := b.d2d.bad.filter (fun e => !halves.contains e.1) } }
  let b := bump Ctr.ddPktsLost p lost.length (bump Ctr.ddLinkResets p 1 b)
  let b := raise { cause := 0x0D, unit := 6, inst := p, detail := p, detail2 := trigger } b
  let b := ctxs.foldl (fun b c =>
    raise { cause := 0x0D, ctx := some c, shared := true, unit := 6, inst := p, detail := p, detail2 := trigger } b) b
  dieLost p (lost.foldl (fun b k => lostPkt p k b) b)

/-- A link-layer reset of this side (R283). -/
def linkResetNow (p trigger : Nat) (b : Blk) : Blk := startTrain p 2 false (clearLink p trigger b)

/-- A retrain that keeps the CPP state (R283). -/
def retrainNow (p : Nat) (b : Blk) : Blk := startTrain p 1 true b

/-- D2D_HALF_FAIL (R284): the half stays unusable, and a link that is UP retrains. -/
def effD2dHalfFail (port : Nat) (high : Bool) (b : Blk) : Blk :=
  let b := { b with d2d := { b.d2d with bad := b.d2d.bad.set (2 * port + boolNat high) true } }
  match (List.range 4).find? (fun p => (b.moduleMap p).testBit port && b.linkUp p) with
  | some p => retrainNow p b
  | none => b

/-- A link that has not trained, of a HELD die, has modules that a peer may train with (R285, R372). -/
def answers (p : Nat) (b : Blk) : Bool := p ≠ b.ident.die && b.moduleMap p ≠ 0

/-- RETRAIN from die p (R285): a die that is not training answers it, a HELD one too (R372). -/
def effRetrain (p : Nat) (b : Blk) : Blk :=
  match (b.link p).state with
  | .down => b
  | .absent => if answers p b then propose p (startTrain p 1 false b) else b
  | .training => propose p b
  | .up => propose p (retrainNow p b)

/-- LINK_RESET from die p (R283): this side clears its CPP state too. In a training it begins the training again: the peer has begun
its own afresh. -/
def effLinkReset (p : Nat) (b : Blk) : Blk :=
  match (b.link p).state with
  | .absent => if answers p b then propose p (startTrain p 1 false b) else b
  | .training =>
    let b := if (b.link p).keep then clearLink p 1 b else b
    propose p (b.setLink p ((b.link p).fresh false))
  | .up | .down => propose p (startTrain p 1 false (clearLink p 1 b))

/-- The next attempt's vector is settled: train at it, or give up (R285). -/
def attemptAt (p n v : Nat) (b : Blk) : Blk :=
  if v = 0 ∨ 3 < n then holdDown p 1 b
  else b.setLink p { b.link p with vector := v, attempts := n, mine := none, theirs := none, began := b.clk.aon }

/-- PROPOSAL (R285). -/
def effProposal (p attempt halves : Nat) (b : Blk) : Blk :=
  let l := b.link p
  if l.state = .training ∧ l.attempts = 0 ∧ attempt = 1 then
    let b := propose p b
    attemptAt p 1 ((b.link p).vector &&& halves) b
  else b

/-! ### Capabilities -/

/-- Credits of each CPP channel, and its largest packet (R279). -/
def cppCredits : List Nat := [512, 1024, 512, 512, 64, 128, 256, 512]
def cppLargest : List Nat := [42, 258, 51, 259, 6, 66, 18, 18]

/-- REVISION of this block: 3.2.0 (R286). -/
def revision : Nat := 0x030200

/-- The capability message of this die (R286). -/
def capBody (b : Blk) (p : Nat) : List Byte :=
  let l := b.link p
  -- a link agreed at CPP 1.2 has neither CHIP_FEATURES nor REVISION
  let v3 := !(l.proto == 2 && l.keep)
  toLe 1 1 ++ toLe 1 3 ++ toLe 1 (b.ident.die + 128 * boolNat b.straps.lead) ++ toLe 1 0 ++ toLe 2 b.ident.chip ++ toLe 2 0
    ++ toLe 4 (0x3F &&& b.obj Obj.d2dFeatureMask 0x3F) ++ toLe 4 (if v3 then b.features else 0)
    ++ cppCredits.flatMap (toLe 2) ++ toLe 2 (l.rxNext + 2 ^ 15 * boolNat l.rxValid) ++ toLe 2 0
    ++ toLe 4 (if v3 then revision else 0)

def sendCap (p : Nat) (b : Blk) : Blk :=
  emit (.d2dFlit p (d2dFlitBytes 0 2 (b.link p).ackSeq false 0 0 15 (capBody b p))) b

/-- Read a CAP flit's message (R286). -/
def parseCap (l : List Byte) : CapB :=
  let m := l.drop 16
  { major := byteAt m 0, minor := byteAt m 1, die := byteAt m 2 % 4, lead := (byteAt m 2).testBit 7,
    chip := field m 4 2 % 16384, features := field m 8 4, chipFeatures := field m 12 4, credits := valuesAt m 16 2 8,
    rxNext := field m 32 2 % 4096, rxValid := (field m 32 2).testBit 15, revision := field m 36 4 % 2 ^ 24 }

/-- Why a capability message keeps the link DOWN (R280, R287); 0 when it does not. -/
def capCause (b : Blk) (c : CapB) : Nat :=
  if c.major ≠ 1 ∨ min 3 c.minor < 2 then 2
  else if c.chip ≠ b.ident.chip then 3
  else if c.die = b.ident.die then 4
  else if b.dies.length = 2 ∧ c.lead = b.straps.lead then 5
  else if (List.range 8).any (fun i => c.credits.getD i 0 < cppLargest.getD i 0) then 6
  else 0

/-- A flit number lies within what can be replayed. -/
def inReplay (l : List FlitR) (txSeq seq : Nat) : Bool :=
  decide ((txSeq + 4096 - seq) % 4096 ≤ l.length)

/-- The chip feature set takes what it is given, and never grows (R288). A shrunken set is announced on every UP link (R287). -/
def shrinkFeatures (m : Nat) (b : Blk) : Blk :=
  let old := b.features
  let b : Blk := { b with d2d := { b.d2d with features := b.d2d.features &&& m } }
  if b.features = old then b
  else ((List.range 4).filter b.linkUp).foldl (fun b p => sendCap p b) b

/-- The features that a capability message leaves (R288). -/
def takeFeatures (c : CapB) (b : Blk) : Blk :=
  shrinkFeatures (c.features &&& (if 3 ≤ min 3 c.minor then c.chipFeatures else 0xFFFFFFFF)) b

/-- Send the flits of the replay buffer again, but for the first `k` (R281). -/
def replayFrom (p k : Nat) (b : Blk) : Blk :=
  let l := b.link p
  let fl := l.replay.drop k
  let n := fl.length
  let outs := fl.map (fun f => Out.d2dFlit p (d2dFlitBytes f.seq 0 l.ackSeq false 0 0 f.first f.slots))
  let b := { b with out := b.out ++ outs }
  charge 0x0D n none none (bump Ctr.ddFlitsTx p n (bump Ctr.ddReplays p n b))

def replayAll (p : Nat) (b : Blk) : Blk := replayFrom p 0 b

/-- Flits of the replay buffer that the peer has taken, by its RX_NEXT: they are not sent again, but stay until an ACK_SEQ covers them
(R281, R283). -/
def takenFlits (l : Link) (rxNext : Nat) : Nat :=
  match l.replay with
  | [] => 0
  | f :: _ => (rxNext + 4096 - f.seq) % 4096

/-- Credits that were owed go back (R280). -/
def payCredits (p : Nat) (b : Blk) : Blk :=
  let l := b.link p
  l.owed.foldl (fun b o => d2dIdle p o.1 o.2 false l.ackSeq b) (b.setLink p { l with owed := [] })

/-- Drop the flits that an ACK_SEQ covers, and the packets that end in them (R281). -/
def ackTo (p ack : Nat) (b : Blk) : Blk :=
  let l := b.link p
  match l.replay with
  | [] => b
  | f :: _ =>
    let k := (ack + 4096 - f.seq) % 4096 + 1
    if k ≤ l.replay.length then
      b.setLink p { l with
        replay := l.replay.drop k
        inFlight := l.inFlight.filter (fun e => decide (k ≤ (e.1 + 4096 - f.seq) % 4096))
        nakCount := 0, nakSeq := 4096, nakRetrained := false }
    else b

/-- Both sides have agreed: the link goes UP, or is held DOWN or reset (R283, R287). -/
def linkUpNow (p : Nat) (c : CapB) (b : Blk) : Blk :=
  let cause := capCause b c
  let l := b.link p
  if cause ≠ 0 then holdDown p cause b
  else if l.keep ∧ (c.rxValid = false ∨ inReplay l.replay l.txSeq c.rxNext = false) then linkResetNow p 3 b
  else
    let kept := l.keep
    let b := b.setLink p { l with
      state := .up, proto := min 3 c.minor, peerRev := if 3 ≤ c.minor then c.revision else 0, peerLead := c.lead,
      credits := if kept then l.credits else c.credits, rxValid := true, keep := true, halves := l.vector }
    let b := takeFeatures c b
    let b := if kept then
        payCredits p (bump Ctr.ddRetrains p 1 (replayFrom p (takenFlits l c.rxNext) b))
      else b
    retryHeld (d2dPump p ((b.link p).wait.length + 1) b)

/-- The training has agreed: send CAP, and go on when the peer's has come (R287). -/
def agreed (p v : Nat) (b : Blk) : Blk :=
  let b := sendCap p (b.setLink p { b.link p with capSent := true, vector := v })
  match (b.link p).capGot with
  | some c => linkUpNow p c b
  | none => b

/-- Compare the two RESULT vectors of an attempt (R285). -/
def judgeAttempt (p : Nat) (b : Blk) : Blk :=
  let l := b.link p
  match l.mine, l.theirs with
  | some m, some t =>
    if m = t ∧ m ≠ 0 then agreed p m b else attemptAt p (l.attempts + 1) (m &&& t) b
  | _, _ => b

/-- An attempt is under way. -/
def attempting (l : Link) : Bool := l.state == .training && decide (0 < l.attempts) && !l.capSent

/-- TRAINING_ATTEMPT_END (R284, R285): the halves that trained; the others of the vector have been found failed. -/
def effTrainingAttemptEnd (p halves : Nat) (b : Blk) : Blk :=
  let l := b.link p
  if attempting l && l.mine.isNone then
    let m := halves &&& l.vector
    let ms := modulesOf b p
    let bad := (List.range ms.length).flatMap (fun i => [0, 1].filterMap (fun h =>
      if l.vector.testBit (2 * i + h) && !(m.testBit (2 * i + h)) then some (2 * ms.getD i 0 + h) else none))
    let b := { b with d2d := { b.d2d with bad := bad.foldl (fun t k => t.set k true) b.d2d.bad } }
    judgeAttempt p (sideband p 4 l.attempts m 0 (b.setLink p { l with mine := some m }))
  else b

/-- RESULT (R285). -/
def effResult (p attempt halves : Nat) (b : Blk) : Blk :=
  let l := b.link p
  if attempting l && l.attempts == attempt && l.theirs.isNone then judgeAttempt p (b.setLink p { l with theirs := some halves })
  else b

/-- TRAINING_TIMEOUT (R285): a RESULT that has not come 20,000 CK_AON cycles after the attempt began counts as zero. -/
def effTrainingTimeout (p : Nat) (b : Blk) : Blk :=
  let l := b.link p
  if attempting l && decide (l.began + 20000 ≤ b.clk.aon) && (l.mine.isNone || l.theirs.isNone) then
    judgeAttempt p (b.setLink p { l with mine := some (l.mine.getD 0), theirs := some (l.theirs.getD 0) })
  else b

/-- HOLD_DOWN from die p (R287). -/
def effHoldDown (p cause : Nat) (b : Blk) : Blk :=
  match (b.link p).state with
  | .absent | .down => b
  | .training | .up => downLink p cause b

/-! ### Flits -/

/-- The header of a flit is sound (R273). -/
def hcrcOk (l : List Byte) : Bool := field l 14 2 == crc16 (l.take 14)

/-- What walking a flit's slots gives: packets that passed, and the packet under assembly or the one that failed its PCRC, with
the flit and slot at which it begins. -/
inductive Walk where
  | ok (buf : List Byte) (at_ : Nat × Nat) (pkts : List (List Byte))
  | bad (at_ : Nat × Nat) (pkts : List (List Byte))
deriving DecidableEq, Repr

/-- PCRC of a packet (R274). -/
def pcrcOk (k : List Byte) : Bool := field k 14 2 == crc16 (k.take 14 ++ k.drop 16)

/-- Bytes of the packet whose header slot this is. -/
def pktLen (h : List Byte) : Nat := 16 * (1 + field h 2 2 % 1024)

/-- Walk the slots of flit `seq` from slot `i` (R273, R275). -/
def walkSlots (check : Bool) (seq : Nat) : Nat → List (List Byte) → List Byte → Nat × Nat → List (List Byte) → Walk
  | _, [], buf, st, acc => .ok buf st acc
  | i, s :: t, buf, st, acc =>
    if buf.isEmpty && byteAt s 0 == 0 then .ok [] (seq, i) acc
    else
      let st := if buf.isEmpty then (seq, i) else st
      let k := buf ++ s
      if k.length < pktLen k then walkSlots check seq (i + 1) t k st acc
      else if check && !(pcrcOk k) then .bad st acc
      else walkSlots check seq (i + 1) t [] (seq, i + 1) (acc ++ [k])

/-- The chip and die that a message's body says it comes from, where it says so. A barrier packet that came from the Ridge to
another die of the chip carries its sender's chip, plus 1, in bytes 14 to 15 (DESIGN CHOICE, log 20). -/
def msgSource : Msg → Option (Nat × Nat)
  | .fragReq m => some (m.srcChip, m.srcDie)
  | .contrib m => some (m.srcChip, m.srcDie)
  | .partialV m => some (m.chip, m.die)
  | .gradAck m => some (m.chip, m.die)
  | .pegArrive m => if m.ctx / 65536 = 0 then none else some (m.ctx / 65536 - 1, 0)
  | .pegResult m => if m.ctx / 65536 = 0 then none else some (m.ctx / 65536 - 1, 0)
  | _ => none

/-- The message without that mark. -/
def msgPlain : Msg → Msg
  | .pegArrive m => .pegArrive { m with ctx := m.ctx % 65536 }
  | .pegResult m => .pegResult { m with ctx := m.ctx % 65536 }
  | m => m

/-- A packet from die p enters the port sack. -/
def acceptD2d (p : Nat) (k : List Byte) (b : Blk) : Blk :=
  match (if d2dType (byteAt k 0) then decMsg (byteAt k 0) (k.drop 16) else none) with
  | none => d2dIdle p (byteAt k 1 % 8) (k.length / 16) false (b.link p).ackSeq b
  | some m =>
    let s := (msgSource m).getD (b.ident.chip, p)
    let st := match m with
      | .fragReq q => q.stream
      | _ => 0xFF
    let part := match msgCtx m with
      | some c => if s.1 = b.ident.chip then 0 else b.ctxPartId c
      | none => 0
    { b with port := b.port ++ [{ msg := msgPlain m, chip := s.1, die := s.2, via := .d2d p, rt := decide (st < 8),
                                  stream := if st < 8 then st else 0, part := part, units := k.length / 16,
                                  vc := byteAt k 1 % 8 }] }

/-- Send NAK (R281). -/
def sendNak (p : Nat) (b : Blk) : Blk :=
  let l := b.link p
  bump Ctr.ddNaks p 1 (d2dIdle p 0 0 true (lastSeq l.rxNext) (b.setLink p { l with nakOut := true }))

/-- A NAK has come: replay, and after 8 without progress retrain, then reset (R281, R282). -/
def takeNak (p ack : Nat) (b : Blk) : Blk :=
  let l := b.link p
  let n := if l.nakSeq = ack then l.nakCount + 1 else 1
  if 8 ≤ n then
    if l.nakRetrained then linkResetNow p 2 b
    else retrainNow p (b.setLink p { l with nakSeq := ack, nakCount := 0, nakRetrained := true })
  else replayAll p (b.setLink p { l with nakSeq := ack, nakCount := n })

/-- Credits come back (R280). -/
def takeCredit (p w : Nat) (b : Blk) : Blk :=
  if w.testBit 3 then
    let l := b.link p
    b.setLink p { l with credits := l.credits.set (w % 8) (l.credits.getD (w % 8) 0 + w / 16) }
  else b

/-- The acknowledgement and the credits of a flit, of any type (R273, R280). -/
def takeWords (p : Nat) (bytes : List Byte) (b : Blk) : Blk :=
  takeCredit p (field bytes 6 2) (takeCredit p (field bytes 4 2) (ackTo p (field bytes 2 2 % 4096) b))

/-- CAP (R287): in a training that has agreed, or on an UP link whose peer's feature set has shrunk. -/
def effCap (p : Nat) (bytes : List Byte) (b : Blk) : Blk :=
  if !(hcrcOk bytes) || bitsOf (field bytes 0 2) 13 12 ≠ 2 then b
  else
    let c := parseCap bytes
    match (b.link p).state with
    | .training =>
      let b := takeWords p bytes b
      if (b.link p).capSent then linkUpNow p c b else b.setLink p { b.link p with capGot := some c }
    | .up => takeFeatures c (takeWords p bytes b)
    | .absent | .down => b

/-- A DATA flit in order: its packets are delivered, or a packet fails and the flit is bad (R281). -/
def takeData (p : Nat) (bytes : List Byte) (b : Blk) : Blk :=
  let l := b.link p
  let seq := field bytes 0 2 % 4096
  let first := byteAt bytes 8 % 16
  let i := if l.rxBuf.isEmpty then max first l.rxSkip else 0
  match walkSlots true seq i ((pieces 16 (bytes.drop 16)).drop i) l.rxBuf (l.rxStart, l.rxSlot) [] with
  | .ok buf st ks =>
    let b := b.setLink p { l with
      rxNext := (seq + 1) % 4096, rxBuf := buf, rxStart := st.1, rxSlot := st.2, rxSkip := 0, nakOut := false }
    ks.foldl (fun b k => acceptD2d p k b) (d2dIdle p 0 0 false (b.link p).ackSeq b)
  | .bad st ks =>
    -- packets of the failed packet's first flit that have been delivered are passed over at its replay
    let b := b.setLink p { l with rxNext := st.1, rxBuf := [], rxStart := st.1, rxSlot := 0, rxSkip := st.2 }
    sendNak p (bump Ctr.ddCrcErrors p 1 (ks.foldl (fun b k => acceptD2d p k b) b))

/-- D2D_FLIT (R281): a flit from die p. -/
def effD2dFlit (p : Nat) (bytes : List Byte) (b : Blk) : Blk :=
  if !(b.linkUp p) then b
  else if !(hcrcOk bytes) then sendNak p (bump Ctr.ddCrcErrors p 1 b)
  else
    let ft := bitsOf (field bytes 0 2) 13 12
    let ackw := field bytes 2 2
    let b := takeWords p bytes b
    let b := d2dPump p ((b.link p).wait.length + 1) b
    let b := if ft < 2 && ackw.testBit 12 then takeNak p (ackw % 4096) b else b
    if ft = 0 ∧ b.linkUp p = true then
      if field bytes 0 2 % 4096 = (b.link p).rxNext then takeData p bytes b
      else
        let b := bump Ctr.ddCrcErrors p 1 b
        if (b.link p).nakOut then b else sendNak p b
    else b

/-! ### Forwarded accesses -/

/-- A write of the bivouac page (R251). -/
def bivouacWrite (off : Nat) (v : W64) (b : Blk) : Blk :=
  if off = 0x000 then bivouacBase v b
  else if off = 0x008 then { b with host := { b.host with en := v.toNat.testBit 0 } }
  else b

/-- The register that a forwarded access reads (R277). -/
def fwdValue (m : FwdB) (b : Blk) : W64 :=
  if m.kind = 1 then pageRead m.queue m.off b
  else if m.kind = 2 then xlatRead m.fn m.off b
  else if m.kind = 3 then
    if m.off = 0 then b.host.base else if m.off = 8 then BitVec.ofNat 64 (boolNat b.host.en) else 0
  else 0

/-- A forwarded item is accepted from the lead die alone (R287). -/
def fromLead (b : Blk) (r : Rx) : Bool :=
  match r.via with
  | .d2d p => (b.link p).peerLead
  | _ => false

/-- FWD_WRITE (R277). -/
def effFwdWrite (b : Blk) : Blk :=
  match oldest b (fun r => match r.msg with
    | .fwdWrite _ => true
    | _ => false) with
  | some (i, r) =>
    match r.msg with
    | .fwdWrite m =>
      let ok := fromLead b r
      let b := takeRx i r b
      if !ok then b
      else if m.kind = 1 then pageWriteHere m.fn m.queue m.off m.value b
      else if m.kind = 2 then xlatWriteHere m.fn m.off m.value r.die b
      else if m.kind = 3 then bivouacWrite m.off m.value b
      else b
    | _ => b
  | none => b

/-- FWD_READ (R277). -/
def effFwdRead (b : Blk) : Blk :=
  match oldest b (fun r => match r.msg with
    | .fwdRead _ => true
    | _ => false) with
  | some (i, r) =>
    match r.msg with
    | .fwdRead m =>
      let ok := fromLead b r
      let v := fwdValue m b
      let b := takeRx i r b
      if ok then answer r (.fwdData { m with value := v }) b else b
    | _ => b
  | none => b

/-- What the lead die had asked the state of a queue for (R27; DEDUCED, log 50): a QCFG write that waited goes on where the state
allows it, and a queue that has been let go is this die's again. -/
def stateTold (die n : Nat) (v : W64) (b : Blk) : Blk :=
  let st := v.toNat % 16
  match b.d2d.moves.find? (fun m => m.1 = die && m.2.2.1 = n) with
  | some m =>
    let b : Blk := { b with d2d := { b.d2d with moves := b.d2d.moves.erase m } }
    if st = 0 ∨ st = 1 ∨ st = 6 then moveQueue die m.2.1 n m.2.2.2 b else b
  | none =>
    if st = 0 ∧ servedBy b n = die then { b with front := { b.front with queueDie := b.front.queueDie.del n } } else b

/-- FWD_DATA (R277): a forwarded read completes. -/
def effFwdData (b : Blk) : Blk :=
  match oldest b (fun r => match r.msg with
    | .fwdData _ => true
    | _ => false) with
  | some (i, r) =>
    match r.msg with
    | .fwdData m =>
      let b := takeRx i r b
      let b := emit (.regData m.value) { b with d2d := { b.d2d with reads := b.d2d.reads.erase r.die } }
      if m.kind = 1 ∧ m.off = 0x030 then stateTold r.die m.queue m.value b else b
    | _ => b
  | none => b

/-- A die reports an invalidation: the oldest of that token that waits for it (R227). -/
def reported (die token : Nat) : List Inval → List Inval
  | [] => []
  | i :: t =>
    if bitsOf i.word.toNat 63 48 = token ∧ i.waiting.contains die = true then { i with waiting := i.waiting.erase die } :: t
    else i :: reported die token t

/-- FWD_REPORT (R227). -/
def effFwdReport (b : Blk) : Blk :=
  match oldest b (fun r => match r.msg with
    | .fwdReport _ => true
    | _ => false) with
  | some (i, r) =>
    match r.msg with
    | .fwdReport t =>
      let b := takeRx i r b
      { b with xlat := { b.xlat with invals := reported r.die t b.xlat.invals } }
    | _ => b
  | none => b

/-! ### Memory packets -/

/-- Answer a memory read in packets of up to 256 bytes, ascending; poison marks a whole packet (R276, R388). -/
def memAnswer (r : Rx) (m : MemB) (d : List PByte) (b : Blk) : Blk :=
  (writePieces m.addr d).foldl (fun b p =>
    answer r (.memData { m with addr := p.1, bytes := p.2.length, poison := anyPoison p.2, data := plain p.2 }) b) b

/-- Host memory as another die of the chip reads it on the lead die (R243, R246): the request names no bias, and goes out as of a
DEVICE_OWNED granule (DESIGN CHOICE, log 96). A refused read, or one of a lost host, gives poison (DEDUCED, log 37). -/
def hostServe (m : MemB) (b : Blk) : Blk × List PByte :=
  let bad := List.replicate m.bytes (0, true)
  if b.host.state ≠ 0 then (b, bad)
  else
    let b : Blk := { b with out := b.out ++ hostReadReq b false m.addr m.bytes }
    if hostRefuses b m.addr m.bytes then (hostRefusal .block none m.addr 0 b, bad) else (b, b.hostMem.read m.addr m.bytes)

/-- MEM_READ (R243, R276): this die's memory, or host memory on the lead die. While the host link is down it waits. -/
def effMemRead (b : Blk) : Blk :=
  match oldest b (fun r => match r.msg with
    | .memRead _ => true
    | _ => false) with
  | some (i, r) =>
    match r.msg with
    | .memRead m =>
      if m.host then
        if b.host.state = 1 then b
        else
          let g := hostServe m b
          memAnswer r m g.2 (takeRx i r g.1)
      else
        match mustWait b none (paOff m.addr) m.bytes with
        | some ls => sendSnoops ls b
        | none =>
          let g := gsRead none (paOff m.addr) m.bytes b
          memAnswer r m g.2 (takeRx i r g.1)
    | _ => b
  | none => b

/-- The answer of a MEM_WRITE. -/
def writeAnswer (r : Rx) (b : Blk) : Blk :=
  match r.msg with
  | .memWrite m => answer r (.memDone { m with data := [] }) b
  | _ => b

/-- MEM_WRITE (R243, R276). One of host memory is held while the host link is down (R259), and answered when it has been issued or
discarded. -/
def effMemWrite (b : Blk) : Blk :=
  match oldest b (fun r => match r.msg with
    | .memWrite _ => true
    | _ => false) with
  | some (i, r) =>
    match r.msg with
    | .memWrite m =>
      let d := m.data.map (·, m.poison)
      if m.host then
        let b := takeRx i r b
        match b.host.state with
        | 0 => writeAnswer r (hostPut .block none false m.addr d b).1
        | 1 => holdWrite { no := 0, ctx := none, addr := m.addr, data := d, ask := some r } b
        | _ => writeAnswer r b
      else
        match mustWait b none (paOff m.addr) m.bytes with
        | some ls => sendSnoops ls b
        | none => writeAnswer r (gsWrite none (paOff m.addr) d (takeRx i r b))
    | _ => b
  | none => b

/-- Send an answer on to the chip that asked, under its own tag (R302). -/
def proxyAnswer (x : Proxy) (m : Msg) (b : Blk) : Blk :=
  let e := encMsg m
  let h := x.orig.h
  ridgeQueue { h := { ptype := e.1, vc := ridgeVc e.1, len := (pad16 e.2).length / 16, dst := h.src,
                      src := chipDie b.ident.chip b.ident.die, part := h.part, rt := h.rt, stream := h.stream },
               body := e.2 } b

/-- The tag that the asking chip gave its request. -/
def Proxy.otag (x : Proxy) : Nat := field x.orig.body 10 2

/-- MEM_DATA (R276): the oldest read data of the port sack join their read. -/
def effMemData (b : Blk) : Blk :=
  match oldest b (fun r => match r.msg with
    | .memData _ => true
    | _ => false) with
  | some (i, r) =>
    match r.msg with
    | .memData m =>
      let b := heard r.chip (takeRx i r b)
      match b.d2d.proxies.find? (fun x => x.tag = m.tag && r.via = .d2d x.die) with
      | some x =>
        let left := x.left - m.bytes
        let ps : List Proxy :=
          if left = 0 then b.d2d.proxies.filter (fun y => y.tag ≠ x.tag)
          else b.d2d.proxies.map (fun y => if y.tag = x.tag then { y with left := left } else y)
        let b : Blk := { b with d2d := { b.d2d with proxies := ps } }
        proxyAnswer x (.memData { m with tag := x.otag }) b
      | none =>
        let d := m.data.map (·, m.poison)
        let rs : List RRead := b.xlat.rreads.map (fun q =>
          if q.tag = m.tag ∧ q.chip = r.chip ∧ q.die = r.die then { q with got := q.got ++ d } else q)
        let b : Blk := { b with xlat := { b.xlat with rreads := rs } }
        -- a host's read of another die's memory completes here
        match b.xlat.rreads.find? (fun q => q.tag = m.tag && decide (q.n ≤ q.got.length) && (match q.unit with
            | .hostAcc _ => true
            | _ => false)) with
        | some q => emit (.hostCpl q.got) (dropRread q.tag b)
        | none => b
    | _ => b
  | none => b

/-- MEM_DONE (R276). -/
def effMemDone (b : Blk) : Blk :=
  match oldest b (fun r => match r.msg with
    | .memDone _ => true
    | _ => false) with
  | some (i, r) =>
    match r.msg with
    | .memDone m =>
      let b := heard r.chip (takeRx i r b)
      match b.d2d.proxies.find? (fun x => x.tag = m.tag && r.via = .d2d x.die) with
      | some x =>
        proxyAnswer x (.memDone { m with tag := x.otag })
          { b with d2d := { b.d2d with proxies := b.d2d.proxies.filter (fun y => y.tag ≠ x.tag) } }
      | none =>
        { b with xlat := { b.xlat with
            rwrites := b.xlat.rwrites.filter (fun w => !(w.tag = m.tag && w.chip = r.chip && w.die = r.die)) } }
    | _ => b
  | none => b

def execD2dFlit (p : Nat) (bytes : List Byte) (s : State) : Host.Outcome State Fault Refusal :=
  fireReady (p < 4 && bytes.length == 256) (effD2dFlit p bytes) s
def execD2dHalfFail (port : Nat) (high : Bool) (s : State) : Host.Outcome State Fault Refusal :=
  fireReady (port < 12) (effD2dHalfFail port high) s
def execRetrain (p : Nat) (s : State) : Host.Outcome State Fault Refusal := fireReady (p < 4) (effRetrain p) s
def execLinkReset (p : Nat) (s : State) : Host.Outcome State Fault Refusal := fireReady (p < 4) (effLinkReset p) s
def execProposal (p attempt halves : Nat) (s : State) : Host.Outcome State Fault Refusal :=
  fireReady (p < 4 && attempt < 4 && halves < 2 ^ 24) (effProposal p attempt halves) s
def execResult (p attempt halves : Nat) (s : State) : Host.Outcome State Fault Refusal :=
  fireReady (p < 4 && attempt < 4 && halves < 2 ^ 24) (effResult p attempt halves) s
def execHoldDown (p cause : Nat) (s : State) : Host.Outcome State Fault Refusal :=
  fireReady (p < 4 && cause < 256) (effHoldDown p cause) s
def execTrainingAttemptEnd (p halves : Nat) (s : State) : Host.Outcome State Fault Refusal :=
  fireReady (p < 4 && halves < 2 ^ 24) (effTrainingAttemptEnd p halves) s
def execTrainingTimeout (p : Nat) (s : State) : Host.Outcome State Fault Refusal := fireReady (p < 4) (effTrainingTimeout p) s
def execCap (p : Nat) (bytes : List Byte) (s : State) : Host.Outcome State Fault Refusal :=
  fireReady (p < 4 && bytes.length == 256) (effCap p bytes) s
def execFwdWrite (s : State) : Host.Outcome State Fault Refusal := fireReady true effFwdWrite s
def execFwdRead (s : State) : Host.Outcome State Fault Refusal := fireReady true effFwdRead s
def execFwdData (s : State) : Host.Outcome State Fault Refusal := fireReady true effFwdData s
def execFwdReport (s : State) : Host.Outcome State Fault Refusal := fireReady true effFwdReport s
def execMemRead (s : State) : Host.Outcome State Fault Refusal := fireReady true effMemRead s
def execMemWrite (s : State) : Host.Outcome State Fault Refusal := fireReady true effMemWrite s
def execMemData (s : State) : Host.Outcome State Fault Refusal := fireReady true effMemData s
def execMemDone (s : State) : Host.Outcome State Fault Refusal := fireReady true effMemDone s

end Sys2Proof.Machine
end

