-- ==== Sys2Proof/Machine/Mgmt.lean ====
section
/-! DEFINITION. The Relrok dictionary: its objects and their values (R373 to R381), requests and responses (R359 to R367), the
forwarding between dies (R278, R365), and the two management bindings (R355 to R358). -/
namespace Sys2Proof.Machine

/-! ### Requests and objects -/

/-- The status codes of R360. -/
inductive DStatus where
  | ok | noObject | noSubindex | typeMismatch | access | notStopped | range | busy | dieUnreachable | malformed
deriving DecidableEq, Repr, Inhabited

def DStatus.code : DStatus → Nat
  | .ok => 0x00
  | .noObject => 0x01
  | .noSubindex => 0x02
  | .typeMismatch => 0x03
  | .access => 0x04
  | .notStopped => 0x05
  | .range => 0x06
  | .busy => 0x07
  | .dieUnreachable => 0x08
  | .malformed => 0x09

/-- Fields of a request body (R359). -/
def Req.op (r : Req) : Nat := byteAt r.body 0 % 16
def Req.tag (r : Req) : Nat := byteAt r.body 1
def Req.dieByte (r : Req) : Nat := byteAt r.body 2
def Req.index (r : Req) : Nat := field r.body 4 2
def Req.sub (r : Req) : Nat := byteAt r.body 6
def Req.ty (r : Req) : Nat := byteAt r.body 7
def Req.off (r : Req) : Nat := field r.body 8 4
def Req.len (r : Req) : Nat := field r.body 12 2
def Req.data (r : Req) : List Byte := r.body.drop 16
def Req.key (r : Req) : Nat := 256 * r.index + r.sub
def Req.value (r : Req) : Nat := le r.data

/-- Bytes of a value of a type; 0 for STR and BLOB (R360). -/
def typeSize (ty : Nat) : Nat :=
  match ty with
  | 1 | 7 => 1
  | 2 => 2
  | 3 | 5 | 6 => 4
  | 4 => 8
  | _ => 0

/-- STR or BLOB. -/
def isBlob (ty : Nat) : Bool := ty == 8 || ty == 9

/-- Subindices of a counter (R378). -/
def Per.subs : Per → Nat
  | .queue => 256
  | .ctx => 64
  | .block => 1
  | .subPort => 64
  | .link => 4

/-- The counters as object rows: counter k of group g has index 0x9800 + 0x20 g + k (R378). -/
def counterRows : List ObjRow :=
  (List.range counterPer.length).flatMap (fun g =>
    let l := counterPer.getD g []
    (List.range l.length).map (fun k =>
      let i := 0x9800 + 0x20 * g + k
      { i0 := i, i1 := i, s0 := 0, s1 := (l.getD k .block).subs - 1, ty := 4, acc := .ro, dflt := 0 }))

/-- Every object of the dictionary (R373). -/
def dictRows : List ObjRow := objRows ++ counterRows

/-- An index of which each subindex stands for the link to a die. -/
def linkIndex (i : Nat) : Bool := decide (0x6010 ≤ i ∧ i ≤ 0x6018) || decide (0x98C0 ≤ i ∧ i ≤ 0x98C8)

/-- A subindex that the tables list exists on this die: pitches are enabled, and no link leads to the die itself (R377, R379). -/
def subPresent (b : Blk) (i s : Nat) : Bool :=
  if 0x3001 ≤ i ∧ i ≤ 0x3004 then s < b.pitchCount
  else if 0x9A00 ≤ i ∧ i ≤ 0x9A1F then i - 0x9A00 < b.pitchCount
  else if linkIndex i then s ≠ b.ident.die
  else true

/-- The row of an object that exists on this die. -/
def objRow (b : Blk) (i s : Nat) : Option ObjRow :=
  if subPresent b i s then dictRows.find? (fun r => decide (r.i0 ≤ i ∧ i ≤ r.i1 ∧ r.s0 ≤ s ∧ s ≤ r.s1)) else none

/-- An index exists. -/
def hasIndex (i : Nat) : Bool := dictRows.any (fun r => decide (r.i0 ≤ i ∧ i ≤ r.i1))

/-- The unit of an RWS object is stopped (R369). -/
def unitStopped (b : Blk) (i s : Nat) : Bool :=
  let down (p : Nat) : Bool := (b.link p).state == .absent || (b.link p).state == .down
  let quiet (sp : Nat) : Bool := (b.port_ sp).state == .disabled || (b.port_ sp).state == .down
  !b.released
    || (256 * i + s == Obj.d2dFeatureMask && (List.range 4).all down)
    || (256 * i == Obj.d2dModuleMap && down s)
    || (256 * i == Obj.portCfg && quiet (2 * s) && quiet (2 * s + 1))

/-! ### Values -/

/-- A sub-port's PORT_STATE (R327). -/
def portState (p : SubPort) : Nat :=
  let st : Nat := match p.state with
    | .disabled => 0
    | .training => 1
    | .up => 2
    | .down => 3
  st + 4 * p.rate + 16 * boolNat p.width8 + 32 * boolNat p.fec272 + 64 * p.halves + 2 ^ 8 * p.revision + 2 ^ 12 * p.cause
    + 2 ^ 16 * p.chip + 2 ^ 30 * p.die

def linkStateCode : LinkState → Nat
  | .absent => 0
  | .training => 1
  | .up => 2
  | .down => 3

/-- CLK_STATUS (R353). -/
def clkStatus (b : Blk) : Nat :=
  boolNat b.pw.rootLocked + 2 * boolNat b.pw.stretching + 4 * boolNat b.pw.freqAck + 8 * boolNat b.pw.freqHeld
    + 16 * boolNat b.pw.throttleAck + 32 * boolNat (heavyLevel b)

/-- CORE_FLOOR_MHZ (R332): 1,750 while a sub-port is UP or TRAINING at 224 Gbit/s. -/
def coreFloor (b : Blk) : Nat :=
  if b.ridge.ports.any (fun e => (e.2.state == .up || (e.2.state == .training && e.2.step == .train)
    || (e.2.state == .training && e.2.step == .last)) && e.2.rate == 0) then 1750 else 900

/-- Identity, capability and state objects, 0x1000 to 0x3004 (R374, R375, R377). -/
def objLow (b : Blk) (i s : Nat) (row : ObjRow) : Nat :=
  match i with
  | 0x1002 => [b.build.pitches, b.pitchCount, b.sliceCount].getD s 0
  | 0x1003 => [b.ident.chip, b.ident.die, b.ident.serial, b.ident.licensee].getD s 0
  | 0x1004 => [boolNat b.straps.held, b.straps.i3cAddr, b.straps.pitchLimit, boolNat b.straps.hostUcie, boolNat b.straps.lead].getD s 0
  | 0x1008 => Config.vendorIana.toNat
  | 0x2000 => if s = 0 then boolNat b.released else b.mg.rwc.length
  | 0x3000 => 2 ^ b.pitchCount - 1
  | 0x3001 => dutyOf b s - 1
  | 0x3002 => (b.pitch s).grid.foldl (fun a g => a + g.data.length) 0
  | 0x3003 => fragsOut b s
  | 0x3004 => bagsOpen b s
  | _ => b.obj (256 * i + s) row.dflt

/-- Memory, host, die-to-die and Ridge objects, 0x4000 to 0x7040 (R237, R263, R291, R327). -/
def objMid (b : Blk) (i s : Nat) (row : ObjRow) : Nat :=
  match i with
  | 0x4000 => if s = 1 then (b.clk.core - b.xlat.base) % 2 ^ 64 else b.obj (256 * i + s) row.dflt
  | 0x5000 =>
    match s with
    | 1 => b.host.state
    | 2 => boolNat b.straps.hostUcie
    | 3 => if b.host.active then (Config.hostLinkWidth b.host.trainings).toNat else 0
    | _ => if b.host.active then (Config.hostLinkRate b.host.trainings).toNat else 0
  | 0x5101 => b.obj (256 * i + s) (if s = 0 then 256 else 0)
  | 0x5102 => b.obj (256 * i + s) (if s = 0 then 2 ^ 64 - 1 else 0)
  | 0x6000 =>
    match s with
    | 0 => b.ident.die
    | 1 => boolNat b.straps.lead
    | 4 => b.features
    | _ => b.obj (256 * i + s) row.dflt
  | 0x6010 => linkStateCode (b.link s).state
  | 0x6011 => b.moduleMap s
  | 0x6012 => (b.link s).halves
  | 0x6013 => (b.link s).cause
  | 0x6014 => (b.link s).proto
  | 0x6015 => (b.link s).peerRev
  | 0x6016 => (b.link s).attempts
  | 0x7003 => portState (b.port_ s)
  | _ => b.obj (256 * i + s) row.dflt

/-- Clock, power, energy, slack and error objects and the counters, 0x8000 and above (R353, R378, R380). -/
def objHigh (b : Blk) (i s : Nat) (row : ObjRow) : Nat :=
  match i with
  | 0x8000 =>
    match s with
    | 0 => clkStatus b
    | 1 => b.clk.aon % 2 ^ 64
    | 2 => b.obj (256 * i + s) row.dflt
    | _ => coreFloor b
  | 0x8010 => b.pw.cause
  | 0x9100 => energyCoef b s
  | 0x9200 => b.lan.ujCtx.get 0 s
  | 0x9201 => b.lan.ujQ.get 0 s
  | 0x9202 => b.lan.ujBlk
  | 0x9301 => b.lan.ewma.get 0 s
  | 0x9302 => b.lan.last.get 0 s
  | 0x9303 => b.lan.count.get 0 s
  | _ => if 0x9800 ≤ i ∧ i < 0x9A00 then counter b i s else b.obj (256 * i + s) row.dflt

/-- The current value of an object that is neither STR nor BLOB. -/
def objNow (b : Blk) (i s : Nat) (row : ObjRow) : Nat :=
  if i < 0x4000 then objLow b i s row else if i < 0x8000 then objMid b i s row else objHigh b i s row

/-- The default of an object (R368): what straps, build and IDENT give is the value they give. -/
def objDefault (b : Blk) (i s : Nat) (row : ObjRow) : Nat :=
  if (0x1002 ≤ i ∧ i ≤ 0x1008 ∧ i ≠ 0x1005) ∨ i = 0x3000 ∨ (i = 0x5000 ∧ s = 2) ∨ (i = 0x6000 ∧ s < 2) then objNow b i s row
  else if i = 0x2000 ∧ s = 0 then boolNat (!b.straps.held)
  else if i = 0x5101 ∧ s = 0 then 256
  else if i = 0x5102 ∧ s = 0 then 2 ^ 64 - 1
  else if i = 0x6000 ∧ s = 4 then 0x3F
  else if i = 0x6011 then b.build.moduleMap.getD s 0
  else if i = 0x9100 then energyDefault.getD s 0
  else row.dflt

/-- DETACH_LOG_LOG2's ring size (R262). -/
def detachSize (b : Blk) : Nat := 2 ^ b.obj Obj.detachLogLog2 6

/-- DETACH_LOG: the header and every entry not yet consumed (R263). -/
def detachBlob (b : Blk) : List Byte :=
  let base := b.obj Obj.detachLogBase 0
  if base = 0 then []
  else
    let h := b.obj Obj.dlHead 0
    let n := b.host.logWritten - h
    plain (b.mem.read base 64)
      ++ (List.range (min n (detachSize b))).flatMap (fun i => plain (b.mem.read (base + 64 + 32 * ((h + i) % detachSize b)) 32))

/-- A slack record (R351). -/
def slackBytes (r : Slack) : List Byte :=
  toLe 4 r.gen ++ toLe 1 r.barrier ++ toLe 1 r.status ++ toLe 2 0 ++ toLe 4 r.rank ++ toLe 4 r.participants ++ toLe 8 r.wait
    ++ toLe 8 r.aon

/-- OVERRANGE: a bit for each table of a context (R380). -/
def overrangeBlob (b : Blk) (c : Nat) : List Byte :=
  (List.range 512).map (fun i => BitVec.ofNat 8 ((List.range 8).foldl (fun a j =>
    a + (if b.gs.sticky.get false (tabKey c (8 * i + j)) then 2 ^ j else 0)) 0))

/-- The bytes of a STR or BLOB. -/
def blobNow (b : Blk) (i s : Nat) : List Byte :=
  if i = 0x1000 then [0x46, 0x6F, 0x72, 0x72, 0x61, 0x6C]
  else if i = 0x5010 then detachBlob b
  else if i = 0x7040 then b.ridge.declared.flatMap (fun e => toLe 2 e.1)
  else if i = 0x9300 then (Tbl.get [] b.lan.slack s).flatMap slackBytes
  else if 0x9A00 ≤ i ∧ i ≤ 0x9A1F then
    (List.range 4096).flatMap (fun n => toLe 4 ((b.pitch (i - 0x9A00)).sketch.get 0 (4096 * s + n)))
  else if i = 0xA000 then b.err.log.flatMap errBytes
  else if i = 0xA100 then overrangeBlob b s
  else []

/-! ### Responses -/

/-- A Relrok message from its MCTP type byte on (R358). -/
def relrokBytes (body : List Byte) : List Byte :=
  let v := Config.vendorIana.toNat
  [0x7F, BitVec.ofNat 8 (v / 2 ^ 24), BitVec.ofNat 8 (v / 2 ^ 16), BitVec.ofNat 8 (v / 2 ^ 8), BitVec.ofNat 8 v] ++ body

/-- The object's type, 0 where the object is not there. -/
def typeOf (b : Blk) (i s : Nat) : Nat := ((objRow b i s).map (·.ty)).getD 0

/-- A response body (R360). -/
def respBody (b : Blk) (r : Req) (st : DStatus) (i s ty flags : Nat) (data : List Byte) : List Byte :=
  toLe 1 (byteAt r.body 0 % 128) ++ toLe 1 r.tag ++ toLe 1 b.ident.die ++ toLe 1 st.code ++ toLe 2 i ++ toLe 1 s ++ toLe 1 ty ++ toLe 4 r.off
    ++ toLe 2 data.length ++ toLe 1 flags ++ toLe 1 0 ++ data

/-- Send a message to another die as DICT segments of up to 1,024 bytes (R278). -/
def sendDict (die : Nat) (msg : List Byte) (b : Blk) : Blk :=
  let ps := pieces 1024 msg
  let id := b.d2d.nextMsg
  let b : Blk := { b with d2d := { b.d2d with nextMsg := (id + 1) % 65536 } }
  (List.range ps.length).foldl (fun b i =>
    sendMsg b.ident.chip die {} (.dict { msgId := id, seg := i, last := i + 1 = ps.length, data := ps.getD i [] }) b) b

/-- Give a response to the binding that its request came by: an I3C response waits to be fetched (R356), an in-band one goes out
only while the host is attached (R357); a forwarded request is answered to the die that sent it (R365), once the link is UP where it
trains (R283). -/
def reply (r : Req) (body : List Byte) (b : Blk) : Blk :=
  match r.fwd with
  | some (die, _) => sendDict die (relrokBytes body) b
  | none =>
    match r.bi with
    | .i3c => { b with mg := { b.mg with responses := b.mg.responses ++ [relrokBytes body] } }
    | .inBand => if b.host.state = 0 then emit (.mctpMessage .inBand r.eid (relrokBytes body)) b else b

/-- Add to an object that the block counts. -/
def countObj (k : Nat) (b : Blk) : Blk := b.setObj k ((b.obj k 0 + 1) % 2 ^ 64)

/-- The head request is executed: it leaves the sack, is counted, and is answered (R360, R366, R367). -/
def finishReq (r : Req) (body : List Byte) (b : Blk) : Blk :=
  let b := { b with mg := { b.mg with sack := b.mg.sack.drop 1, fwd := none } }
  let b := countObj Obj.mgmtRequests b
  let b := if r.fwd.isNone then
      b.setObj Obj.mgmtLastSource (r.eid + 256 * (match r.bi with
        | .i3c => 0
        | .inBand => 1))
    else b
  reply r body b

/-- Answer with a status and no data. -/
def finishStatus (r : Req) (st : DStatus) (b : Blk) : Blk :=
  finishReq r (respBody b r st r.index r.sub (typeOf b r.index r.sub) 0 []) b

/-! ### Execution -/

/-- The request that executes next: the head of the sack, unless it has been forwarded (R366). -/
def headReq (b : Blk) : Option Req := if b.mg.fwd.isSome then none else b.mg.sack.head?

/-- The head is executed by this die (R365). -/
def execHere (b : Blk) (r : Req) : Bool := !b.straps.lead || r.dieByte.testBit 7 || r.dieByte % 4 == b.ident.die

/-- Forward the head unchanged, or answer DIE_UNREACHABLE (R365). -/
def forwardReq (r : Req) (b : Blk) : Blk :=
  let d := r.dieByte % 4
  if b.diePresent d && b.linkUp d then
    sendDict d (relrokBytes r.body) { b with mg := { b.mg with fwd := some (b.clk.mgmt + 4096, b.d2d.nextMsg, d) } }
  else finishStatus r .dieUnreachable b

/-- What R359 asks of every body: bit 7 of OP, a known OP, the reserved fields, and LENGTH. -/
def reqOk (r : Req) : Bool :=
  let o := byteAt r.body 0
  o / 16 == 8 && decide (1 ≤ r.op ∧ r.op ≤ 3) && bitsOf r.dieByte 6 2 == 0 && zeroAt r.body 3 1 && zeroAt r.body 14 2
    && decide (r.body.length = 16 + (if r.op = 2 then r.len else 0)) && !(r.op == 2 && r.ty == 0)
    && !(r.op ≠ 1 && r.off ≠ 0) && !(r.op == 3 && r.len ≠ 0)

/-- The checks of a READ or WRITE up to its value, in the order of the status codes, malformed bodies first (R359 to R362). -/
def checkReq (b : Blk) (r : Req) : Except DStatus ObjRow :=
  if !reqOk r then .error .malformed
  else if !hasIndex r.index then .error .noObject
  else
    match objRow b r.index r.sub with
    | none => .error .noSubindex
    | some row =>
      if r.ty ≠ 0 ∧ r.ty ≠ row.ty then .error .typeMismatch
      else if r.op = 1 then
        if isBlob row.ty then (if 1 ≤ r.len ∧ r.len ≤ 4064 then .ok row else .error .malformed)
        else if r.off ≠ 0 ∨ r.len ≠ 0 then .error .malformed
        else if row.acc = .wo then .error .access
        else .ok row
      else if isBlob row.ty = false ∧ r.len ≠ typeSize row.ty then .error .typeMismatch
      else if row.acc = .ro then .error .access
      else if row.acc = .rws ∧ unitStopped b r.index r.sub = false then .error .notStopped
      else if row.ty = 7 ∧ 1 < r.value then .error .range
      else .ok row

/-- Execute the head request here, or forward it. -/
def runHead (sel : Req → Bool) (act : Req → Blk → Blk) (b : Blk) : Blk :=
  match headReq b with
  | some r => if sel r then (if execHere b r then act r b else forwardReq r b) else b
  | none => b

/-- What a WRITE does to its object: its subindex and value. -/
abbrev WriteAct := Nat → Nat → Blk → Except DStatus Blk

/-- A write refused with RANGE leaves an error record (R361, R391). -/
def refuse (r : Req) (st : DStatus) (b : Blk) : Blk :=
  let b := if r.op = 2 ∧ st = .range then raise { cause := 0x15, unit := 8, detail := r.key } b else b
  finishStatus r st b

/-- Execute a WRITE: the checks, then its action. A response to a WRITE of an RWC object that waits carries PENDING. -/
def runWrite (act : WriteAct) (r : Req) (b : Blk) : Blk :=
  match checkReq b r with
  | .error st => refuse r st b
  | .ok _ =>
    match act r.sub r.value b with
    | .error st => refuse r st b
    | .ok b =>
      let pend := boolNat (b.mg.rwc.any (fun e => e.1 = r.key))
      finishReq r (respBody b r .ok r.index r.sub (typeOf b r.index r.sub) pend []) b

/-- The head is a WRITE of one of `n` subindices from key `k`. -/
def isWriteTo (k n : Nat) (r : Req) : Bool := r.op == 2 && decide (k ≤ r.key ∧ r.key < k + n)

/-- A row that executes the WRITE of its object at the head of the sack. -/
def onWrite (k n : Nat) (act : WriteAct) (b : Blk) : Blk := runHead (isWriteTo k n) (runWrite act) b

/-- An action of a BOOL object that only TRUE starts. -/
def whenTrue (f : Nat → Blk → Blk) : WriteAct := fun s v b => .ok (if v = 1 then f s b else b)

/-- An offset that names `n` bytes of installed memory, 64-byte aligned (R307, R311, R317). -/
def loadable (b : Blk) (off n : Nat) : Bool := off % 64 == 0 && decide (off + n ≤ b.installed)

/-! ### READ and DISCOVER -/

/-- The answer of a READ (R361 to R363). -/
def runRead (r : Req) (b : Blk) : Blk :=
  match checkReq b r with
  | .error st => refuse r st b
  | .ok row =>
    let i := r.index
    let s := r.sub
    if isBlob row.ty then
      let l := (blobNow b i s).drop r.off
      finishReq r (respBody b r .ok i s row.ty (if r.len < l.length then 2 else 0) (l.take r.len)) b
    else
      let p := b.mg.rwc.find? (fun e => e.1 = r.key)
      let v := match p with
        | some e => e.2
        | none => objNow b i s row
      finishReq r (respBody b r .ok i s row.ty (boolNat p.isSome) (toLe (typeSize row.ty) v)) b

/-- READ (R363). PEEK_DATA has a row of its own. -/
def effRead (b : Blk) : Blk := runHead (fun r => r.op == 1 && r.key ≠ Obj.peekData) runRead b

/-- The first key of a row at or after `k` that exists on the die. -/
def rowNext (b : Blk) (k : Nat) (row : ObjRow) : Option Nat :=
  let ks := (List.range (row.i1 + 1 - row.i0)).flatMap (fun i =>
    (List.range (row.s1 + 1 - row.s0)).map (fun s => 256 * (row.i0 + i) + row.s0 + s))
  ks.find? (fun x => decide (k ≤ x) && subPresent b (x / 256) (x % 256))

/-- The first object at or after a key (R364). -/
def nextObj (b : Blk) (k : Nat) : Option (Nat × ObjRow) :=
  dictRows.foldl (fun acc row =>
    match rowNext b k row, acc with
    | some x, some (y, _) => if x < y then some (x, row) else acc
    | some x, none => some (x, row)
    | none, _ => acc) none

def accessCode : Access → Nat
  | .ro => 0
  | .rw => 1
  | .wo => 2
  | .rws => 3
  | .rwc => 4

/-- The answer of a DISCOVER (R364). -/
def runDiscover (r : Req) (b : Blk) : Blk :=
  if !reqOk r then finishStatus r .malformed b
  else
    match nextObj b r.key with
    | none => finishReq r (respBody b r .noObject r.index r.sub 0 0 []) b
    | some (k, row) =>
      if r.ty ≠ 0 ∧ r.ty ≠ row.ty then finishReq r (respBody b r .typeMismatch (k / 256) (k % 256) row.ty 0 []) b
      else
        let d := if isBlob row.ty then 0 else objDefault b (k / 256) (k % 256) row
        finishReq r (respBody b r .ok (k / 256) (k % 256) row.ty 0
          (toLe 1 row.ty ++ toLe 1 (accessCode row.acc) ++ toLe 2 (typeSize row.ty) ++ toLe 8 d)) b

/-- DISCOVER (R364). -/
def effDiscover (b : Blk) : Blk := runHead (fun r => r.op == 3) runDiscover b

/-! ### Between the dies -/

/-- A whole Relrok message has come from die `p` (R278, R365): a request to serve, or the answer to the forwarded head. -/
def dictMessage (p msgId : Nat) (m : List Byte) (b : Blk) : Blk :=
  if m.take 5 ≠ relrokBytes [] ∨ m.length < 21 then b
  else
    let body := m.drop 5
    if !b.straps.lead then
      if (b.link p).peerLead then
        { b with mg := { b.mg with sack := b.mg.sack ++ [{ bi := .i3c, eid := 0, fwd := some (p, msgId), body := body }] } }
      else b
    else
      match b.mg.fwd, b.mg.sack.head? with
      | some (_, _, d), some r =>
        if d = p ∧ byteAt body 0 = r.op ∧ byteAt body 1 = r.tag ∧ (r.op = 3 ∨ (body.drop 4).take 3 = (r.body.drop 4).take 3) then
          finishReq r body b
        else b
      | _, _ => b

/-- DICT (R278): one segment joins its message, or the message is discarded. -/
def effDict (b : Blk) : Blk :=
  match oldest b (fun r => match r.msg with
    | .dict _ => true
    | _ => false) with
  | some (i, r) =>
    match r.msg with
    | .dict m =>
      let b := takeRx i r b
      let p := r.die
      let cur := if m.seg = 0 then some (m.msgId, 0, []) else (b.d2d.asm.find? (fun e => e.1 = p)).map (·.2)
      let drop : Blk := { b with d2d := { b.d2d with asm := b.d2d.asm.del p } }
      match cur with
      | some (id, n, l) =>
        let l' := l ++ m.data
        if id ≠ m.msgId ∨ n ≠ m.seg ∨ 4097 < l'.length then drop
        else if m.last then dictMessage p id l' drop
        else { b with d2d := { b.d2d with asm := Tbl.set b.d2d.asm p (id, n + 1, l') } }
      | none => drop
    | _ => b
  | none => b

/-- DICT_FORWARD_TIMEOUT (R365): 4,096 CK_MGMT cycles, or a link-layer reset, without an answer. -/
def effDictForwardTimeout (b : Blk) : Blk :=
  match b.mg.fwd, b.mg.sack.head? with
  | some (t, _, _), some r => if t ≤ b.clk.mgmt then finishStatus r .dieUnreachable b else b
  | _, _ => b

/-- D2D_RETRAIN (R283): a link that is UP retrains. -/
def effD2dRetrain (b : Blk) : Blk :=
  onWrite Obj.d2dRetrain 4 (whenTrue (fun p b => if b.linkUp p then retrainNow p b else b)) b

/-- D2D_LINK_RESET (R283). -/
def effD2dLinkReset (b : Blk) : Blk :=
  onWrite Obj.d2dLinkReset 4 (whenTrue (fun p b =>
    match (b.link p).state with
    | .absent => b
    | _ => linkResetNow p 0 b)) b

/-! ### The bindings -/

/-- Requests from a binding that reaches this die (R355, R357). -/
def bound (bi : Binding) (b : Blk) : Bool :=
  b.straps.lead && (match bi with
    | .i3c => true
    | .inBand => b.host.state == 0)

/-- Enter a request in the sack: behind all that wait, but an I3C request goes ahead of the in-band ones that arrived in its own
CK_MGMT cycle and have not started (R366). -/
def enterSack (r : Req) (b : Blk) : Blk :=
  let n := b.mg.sack.length
  let late := (b.mg.sack.reverse.takeWhile (fun (x : Req) => x.bi == .inBand && x.arrived == r.arrived)).length
  let keep := if b.mg.fwd.isSome then 1 else 0
  let k := if r.bi == .i3c then max keep (n - late) else n
  { b with mg := { b.mg with sack := b.mg.sack.take k ++ r :: b.mg.sack.drop k } }

/-- RELROK_MESSAGE (R357, R358, R366). -/
def effRelrokMessage (bi : Binding) (eid fn : Nat) (ok : Bool) (bytes : List Byte) (b : Blk) : Blk :=
  if !bound bi b then b
  else if (bi = .inBand ∧ fn ≠ 0) ∨ ok = false ∨ 4096 < bytes.length ∨ bytes.length < 20
      ∨ bytes.take 4 ≠ (relrokBytes []).drop 1 then
    countObj Obj.mgmtDropped b
  else
    let r : Req := { bi := bi, eid := eid, fwd := none, body := bytes.drop 4, arrived := b.clk.mgmt }
    if 16 ≤ b.mg.sack.length then
      reply r (respBody b r .busy r.index r.sub (typeOf b r.index r.sub) 0 []) (countObj Obj.mgmtBusy b)
    else enterSack r b

/-- SETDASA (R356): the controller names the static address, while that is the one that answers. -/
def effSetdasa (static dyn : Nat) (b : Blk) : Blk :=
  if b.straps.lead && b.straps.i3cAddr == static && b.mg.dynAddr.isNone then { b with mg := { b.mg with dynAddr := some dyn } } else b

/-- ENTDAA (R356). -/
def effEntdaa (dyn : Nat) (b : Blk) : Blk :=
  if b.straps.lead && b.mg.dynAddr.isNone then { b with mg := { b.mg with dynAddr := some dyn } } else b

/-- I3C_PRIVATE_READ (R356): the oldest waiting response, or a NACK; a die that is not the lead answers no address (R355). -/
def effI3cPrivateRead (addr : Nat) (b : Blk) : Blk :=
  if b.straps.lead && b.mg.dynAddr.getD b.straps.i3cAddr == addr then
    match b.mg.responses with
    | m :: rest => emit (.i3cData m) { b with mg := { b.mg with responses := rest } }
    | [] => emit .i3cNack b
  else b

/-- Endpoint ID of a binding. -/
def eidOf (bi : Binding) (b : Blk) : Nat :=
  match bi with
  | .i3c => b.mg.eidI3c
  | .inBand => b.mg.eidInBand

/-- Set Endpoint ID (R355): neither the null nor the broadcast ID is taken. -/
def effSetEndpointId (bi : Binding) (eid : Nat) (b : Blk) : Blk :=
  if !bound bi b then b
  else if eid = 0 ∨ eid = 0xFF then emit (.mctpControl bi [0x02]) b
  else
    let b := match bi with
      | .i3c => { b with mg := { b.mg with eidI3c := eid } }
      | .inBand => { b with mg := { b.mg with eidInBand := eid } }
    emit (.mctpControl bi [0, 0, BitVec.ofNat 8 eid, 0]) b

/-- Get Endpoint ID (R355). -/
def effGetEndpointId (bi : Binding) (b : Blk) : Blk :=
  if bound bi b then emit (.mctpControl bi [0, BitVec.ofNat 8 (eidOf bi b), 0, 0]) b else b

/-- Get MCTP Version Support (R355): DSP0236 version 1.3. -/
def effGetMctpVersionSupport (bi : Binding) (b : Blk) : Blk :=
  if bound bi b then emit (.mctpControl bi [0, 1, 0xF1, 0xF3, 0xFF, 0]) b else b

/-- Get Message Type Support (R355): control and vendor-defined IANA messages. -/
def effGetMessageTypeSupport (bi : Binding) (b : Blk) : Blk :=
  if bound bi b then emit (.mctpControl bi [0, 2, 0x00, 0x7F]) b else b

/-- Get Vendor Defined Message Support (R355): one set, of Holtivo's enterprise number. -/
def effGetVendorDefinedMessageSupport (bi : Binding) (b : Blk) : Blk :=
  if bound bi b then
    emit (.mctpControl bi ([0, 0xFF, 1] ++ (relrokBytes []).drop 1
      ++ [BitVec.ofNat 8 (Config.vendorCommandSet.toNat / 256), BitVec.ofNat 8 Config.vendorCommandSet.toNat])) b
  else b

def execRead (s : State) : Host.Outcome State Fault Refusal := fireReady true effRead s
def execDiscover (s : State) : Host.Outcome State Fault Refusal := fireReady true effDiscover s
def execDict (s : State) : Host.Outcome State Fault Refusal := fireReady true effDict s
def execDictForwardTimeout (s : State) : Host.Outcome State Fault Refusal := fireReady true effDictForwardTimeout s
def execD2dRetrain (s : State) : Host.Outcome State Fault Refusal := fireReady true effD2dRetrain s
def execD2dLinkReset (s : State) : Host.Outcome State Fault Refusal := fireReady true effD2dLinkReset s
def execRelrokMessage (bi : Binding) (eid fn : Nat) (ok : Bool) (bytes : List Byte) (s : State) :
    Host.Outcome State Fault Refusal :=
  fireReady (eid < 256 && fn < 64) (effRelrokMessage bi eid fn ok bytes) s
def execSetdasa (static dyn : Nat) (s : State) : Host.Outcome State Fault Refusal :=
  fireReady (static < 128 && dyn < 128) (effSetdasa static dyn) s
def execEntdaa (dyn : Nat) (s : State) : Host.Outcome State Fault Refusal := fireReady (dyn < 128) (effEntdaa dyn) s
def execI3cPrivateRead (addr : Nat) (s : State) : Host.Outcome State Fault Refusal :=
  fireReady (addr < 128) (effI3cPrivateRead addr) s
def execSetEndpointId (bi : Binding) (eid : Nat) (s : State) : Host.Outcome State Fault Refusal :=
  fireReady (eid < 256) (effSetEndpointId bi eid) s
def execGetEndpointId (bi : Binding) (s : State) : Host.Outcome State Fault Refusal := fireReady true (effGetEndpointId bi) s
def execGetMctpVersionSupport (bi : Binding) (s : State) : Host.Outcome State Fault Refusal :=
  fireReady true (effGetMctpVersionSupport bi) s
def execGetMessageTypeSupport (bi : Binding) (s : State) : Host.Outcome State Fault Refusal :=
  fireReady true (effGetMessageTypeSupport bi) s
def execGetVendorDefinedMessageSupport (bi : Binding) (s : State) : Host.Outcome State Fault Refusal :=
  fireReady true (effGetVendorDefinedMessageSupport bi) s

end Sys2Proof.Machine
end

