-- ==== Sys2Proof/Machine/Ridge.lean ====
section
/-! DEFINITION. The Ridge: ports and their negotiation (R294 to R299), flits and replay (R300), arrival and routing of packets (R302 to
R309, R313), reachability (R314 to R316), and the tables loaded from memory (R307, R311, R317). -/
namespace Sys2Proof.Machine

/-! ### Ports -/

/-- Fields of PORT_CFG (R327). -/
def portCfg (b : Blk) (p : Nat) : Nat := b.obj (Obj.portCfg + p) 1
def portSplit (b : Blk) (p : Nat) : Bool := (portCfg b p).testBit 1

/-- Largest packet and advertised credits of each channel, in units (R303). -/
def ridgeLargest : List Nat := [42, 258, 51, 259, 6, 5]
def ridgeCredits : List Nat := [512, 1024, 768, 512, 64, 32]

/-- Flits that a sub-port's replay buffer holds (R300). -/
def replayRoom (b : Blk) (sp : Nat) : Nat := if portSplit b (sp / 2) then 1024 else 2048

/-- The lane halves that a sub-port may use (R294, R297): of a split port, its own. -/
def portHalves (b : Blk) (sp : Nat) : Nat :=
  let s := b.port_ sp
  let all := boolNat (!s.badLo) + 2 * boolNat (!s.badHi)
  if portSplit b (sp / 2) then all &&& 2 ^ (sp % 2) else all

/-- Start a negotiation, keeping the link state in a retrain (R297, R298). -/
def portTrain (sp : Nat) (keep : Bool) (b : Blk) : Blk :=
  b.setPort sp { b.port_ sp with state := .training, step := .lock, peer := none, early := none, retraining := keep, cause := 0 }

/-- The ability message (R297). -/
def abilityBytes (b : Blk) (sp : Nat) : List Byte :=
  let c := portCfg b (sp / 2)
  let s := b.port_ sp
  toLe 1 3 ++ toLe 1 (bitsOf c 3 2 + 4 * bitsOf c 5 4 + 16 * bitsOf c 1 1) ++ toLe 1 (portHalves b sp) ++ toLe 1 sp
    ++ toLe 2 (chipDie b.ident.chip b.ident.die) ++ toLe 2 0 ++ ridgeCredits.flatMap (fun n => toLe 2 n ++ toLe 2 n)
    ++ toLe 2 (s.rxNext + 2 ^ 15 * boolNat s.rxValid) ++ toLe 30 0

def parseNeg (l : List Byte) : NegB :=
  let m := l.drop 12
  let mode := byteAt m 1
  { revision := byteAt m 0, maxRate := mode % 4, fec := bitsOf mode 3 2, split := mode.testBit 4, halves := byteAt m 2 % 4,
    subport := byteAt m 3, chip := field m 4 2 % 16384, die := field m 4 2 / 16384, credits := valuesAt m 8 2 12,
    rxNext := field m 32 2 % 4096, rxValid := (field m 32 2).testBit 15 }

def sendNeg (sp : Nat) (b : Blk) : Blk :=
  emit (.ridgeFlit sp (ridgeFlitBytes 0 2 (lastSeq (b.port_ sp).rxNext) false 0 0 0 15 (abilityBytes b sp))) b

/-- The contexts bound to the slots of packets in a sub-port's replay buffer (R394). -/
def portCtxs (b : Blk) (s : SubPort) : List Nat :=
  (s.inFlight.filterMap (fun e => if e.2.h.vc = 5 then none else (b.slotOfPart e.2.h.part).bind b.ctxOfSlot)).eraseDups

/-- The port goes DOWN: its link state is cleared, and what its replay buffer holds is undeliverable (R298, R320, R394). -/
def portDown (sp cause : Nat) (b : Blk) : Blk :=
  let s := b.port_ sp
  if s.state = .down then b.setPort sp { s with cause := cause }
  else
  let ctxs := portCtxs b s
  let s' : SubPort := { state := .down, cause := cause, rate := s.rate, width8 := s.width8, fec272 := s.fec272, halves := s.halves,
                        revision := s.revision, chip := s.chip, die := s.die, badLo := s.badLo, badHi := s.badHi }
  let b := alert 4 (bump Ctr.rgPortDowns sp 1 (creditless (.ridge sp) (b.setPort sp s')))
  let r : ErrRec := { cause := 0x0A, unit := 7, inst := sp, detail := portState s' }
  let b := ctxs.foldl (fun b c => raise { r with ctx := some c, shared := true } b) (raise r b)
  let b := s.inFlight.foldl (fun b e => answerUnreach e.2 3 b) b
  finishTrees (failBranches (fun x => x.kind = 2 && x.no = sp) b)

/-- Why two ability messages hold the port DOWN, 0 when they do not; causes in the order in which R297 names them (DEDUCED, log 38). -/
def abilityCause (b : Blk) (sp : Nat) (n : NegB) : Nat :=
  let f := bitsOf (portCfg b (sp / 2)) 5 4
  if portHalves b sp &&& n.halves = 0 then 1
  else if (f = 2 ∧ n.fec = 3) ∨ (f = 3 ∧ n.fec = 2) then 2
  else if min 3 n.revision < 2 then 3
  else if n.split ≠ portSplit b (sp / 2) then 4
  else if n.die ≠ b.ident.die then 5
  else 0

/-- Step 2 of R297: the mode that both messages give. -/
def settleMode (sp : Nat) (n : NegB) (b : Blk) : Blk :=
  let c := portCfg b (sp / 2)
  let f := bitsOf c 5 4
  let s := b.port_ sp
  let hv := portHalves b sp &&& n.halves
  let cause := abilityCause b sp n
  let s := { s with peer := some n, chip := n.chip, die := n.die }
  if cause ≠ 0 then portDown sp cause (b.setPort sp s)
  else
    b.setPort sp { s with
      step := .train, rate := min 2 (max (bitsOf c 3 2) n.maxRate), halves := hv, width8 := hv == 3,
      fec272 := f ≠ 2 && n.fec ≠ 2 && (f = 1 || f = 3 || n.fec = 1 || n.fec = 3), revision := min 3 n.revision }

/-- Send the flits of the replay buffer again (R281, R300). One that cannot be replayed takes the port down (R382). -/
def ridgeReplay (sp : Nat) (b : Blk) : Blk :=
  let s := b.port_ sp
  match s.replay.find? (fun f => f.ecc = 2) with
  | some f => portDown sp 1 (eccRecord 7 sp 6 f.seq none false b)
  | none =>
    let n := s.replay.length
    let fixed := (s.replay.filter (fun f => f.ecc = 1)).length
    let outs := s.replay.map (fun f => Out.ridgeFlit sp (ridgeFlitBytes f.seq 0 (lastSeq s.rxNext) false 0 0 0 f.first f.slots))
    let b := b.setPort sp { s with replay := s.replay.map (fun f => { f with ecc := 0 }) }
    let b := { b with out := b.out ++ outs }
    bump Ctr.eccCorrected 0 fixed (bump Ctr.rgFlitsTx sp n (bump Ctr.rgReplays sp n b))

/-- Drop the flits that an ACK_SEQ covers (R281). -/
def ridgeAck (sp ack : Nat) (b : Blk) : Blk :=
  let s := b.port_ sp
  match s.replay with
  | [] => b
  | f :: _ =>
    let k := (ack + 4096 - f.seq) % 4096 + 1
    if k ≤ s.replay.length then
      b.setPort sp { s with
        replay := s.replay.drop k
        inFlight := s.inFlight.filter (fun e => decide (k ≤ (e.1 + 4096 - f.seq) % 4096))
        nakCount := 0, nakSeq := 4096 }
    else b

/-- Credits that were owed go back (R280, R303). -/
def ridgePay (sp : Nat) (b : Blk) : Blk :=
  let s := b.port_ sp
  s.owed.foldl (fun b o => ridgeIdle sp o.1 o.2.1 o.2.2 false (lastSeq s.rxNext) b) (b.setPort sp { s with owed := [] })

/-- Step 4 of R297: the port is UP, or cannot keep what it has (R298, R303). -/
def portUp (sp : Nat) (n : NegB) (b : Blk) : Blk :=
  let s := b.port_ sp
  if (List.range 12).any (fun i => n.credits.getD i 0 < ridgeLargest.getD (i / 2) 0) then portDown sp 1 b
  else if s.retraining then
    if n.rxValid = false ∨ inReplay s.replay s.txSeq n.rxNext = false then portDown sp 1 b
    else
      let b := b.setPort sp { s with state := .up, retraining := false, nakOut := false }
      ridgePay sp (bump Ctr.rgRetrains sp 1 (ridgeReplay sp (ridgeAck sp ((n.rxNext + 4095) % 4096) b)))
  else b.setPort sp { s with state := .up, credits := n.credits, rxValid := true }

/-- LANE_LOCK (R297): the SerDes reports lock on every lane; the ability message goes out, and one that has come is used. -/
def effLaneLock (sp : Nat) (b : Blk) : Blk :=
  let s := b.port_ sp
  if s.state = .training ∧ s.step = .lock then
    let b := sendNeg sp (b.setPort sp { s with step := .ability, early := none })
    match s.early with
    | some n => settleMode sp n b
    | none => b
  else b

/-- PORT_TRAINING_END (R297): the credits go out, and the port is UP where the partner's have come; or the next lower rate is
tried. -/
def effPortTrainingEnd (sp : Nat) (ok : Bool) (b : Blk) : Blk :=
  let s := b.port_ sp
  if s.state = .training ∧ s.step = .train then
    if ok then
      let b := sendNeg sp (b.setPort sp { s with step := .last, early := none })
      match s.early with
      | some n => portUp sp n b
      | none => b
    else if s.rate < 2 then b.setPort sp { s with rate := s.rate + 1, early := none }
    else portDown sp 1 b
  else b

/-- Credits come back (R280, R300). -/
def ridgeTakeCredit (sp w : Nat) (b : Blk) : Blk :=
  if w.testBit 4 then
    let s := b.port_ sp
    let i := subIdx (w % 8) (bitsOf w 3 3)
    b.setPort sp { s with credits := s.credits.set i (s.credits.getD i 0 + w / 32) }
  else b

/-- NEG (R297): the partner's ability message, or its message at the trained mode. One that comes before the step that uses it is
kept, and one that reaches an UP port says that the partner retrains: the port retrains with it (DEDUCED, log 51). -/
def effNeg (sp : Nat) (bytes : List Byte) (b : Blk) : Blk :=
  let n := parseNeg bytes
  if field bytes 252 4 ≠ crc32 (bytes.take 252) ∨ bitsOf (field bytes 0 2) 13 12 ≠ 2 then b
  else
    let keeps := (b.port_ sp).state == .up || (b.port_ sp).retraining
    let b := if keeps then ridgeTakeCredit sp (field bytes 6 2) (ridgeTakeCredit sp (field bytes 4 2) b) else b
    let s := b.port_ sp
    match s.state, s.step with
    | .training, .ability => settleMode sp n b
    | .training, .last => portUp sp n b
    | .training, .lock => b.setPort sp { s with early := some n }
    | .training, .train => b.setPort sp { s with early := some n }
    | .up, _ =>
      let b := portTrain sp true b
      b.setPort sp { b.port_ sp with early := some n }
    | .down, _ => b
    | .disabled, _ => b

/-- LANE_FAIL (R298): the half is no longer usable, and an UP port retrains. -/
def effLaneFail (lane : Nat) (b : Blk) : Blk :=
  let p := lane / 8
  let high := decide (4 ≤ lane % 8)
  let sp := if portSplit b p && high then 2 * p + 1 else 2 * p
  let s := b.port_ sp
  let b := b.setPort sp (if high then { s with badHi := true } else { s with badLo := true })
  if s.state = .up then portTrain sp true b else b

/-- PORT_RETRAIN (R298): an UP port retrains, a DOWN one negotiates afresh. -/
def effPortRetrain (b : Blk) : Blk :=
  onWrite Obj.portRetrain 64 (whenTrue (fun sp b =>
    match (b.port_ sp).state with
    | .up => portTrain sp true b
    | .down => portTrain sp false b
    | _ => b)) b

/-- RESET_PORT (R334): the sub-port goes DOWN and negotiates afresh. -/
def effResetPort (b : Blk) : Blk :=
  onWrite Obj.resetPort 64 (whenTrue (fun sp b =>
    match (b.port_ sp).state with
    | .disabled => b
    | _ =>
      let b := portDown sp 0 b
      portTrain sp false (b.setPort sp {}))) b

/-- The sub-ports that PORT_CFG leaves enabled start, and the others are DISABLED (R294, R372). -/
def portApply (p : Nat) (b : Blk) : Blk :=
  let c := portCfg b p
  let one (sp : Nat) (on : Bool) (b : Blk) : Blk :=
    if !on then (if (b.port_ sp).state = .disabled then b else b.setPort sp {})
    else if (b.port_ sp).state = .disabled ∧ b.mg.released = true then portTrain sp false b
    else b
  one (2 * p + 1) (c.testBit 0 && c.testBit 1) (one (2 * p) (c.testBit 0) b)

/-! ### Arrival -/

/-- A MEM_READ or MEM_WRITE of another chip for another die of this one takes a tag of this die, and its answer is passed back
(R302; DEDUCED, log 39). -/
def proxyOut (die : Nat) (k : RPkt) (b : Blk) : Blk × List Byte :=
  let t := b.xlat.nextTag
  let x : Proxy := { tag := t, die := die, orig := k, left := if k.h.ptype = 0x20 then field k.body 8 2 else 0 }
  ({ b with
      xlat := { b.xlat with nextTag := (t + 1) % 65536 }
      d2d := { b.d2d with proxies := b.d2d.proxies ++ [x] } }, splice k.body 10 (toLe 2 t))

/-- A packet for another die of the chip crosses the die-to-die link, or is answered with UNREACH (R302). -/
def crossDie (die : Nat) (k : RPkt) (b : Blk) : Blk :=
  let l := b.link die
  if b.diePresent die && (l.state == .up || l.state == .training) then
    let t := k.h.ptype
    let r : Blk × List Byte :=
      if t = 0x20 ∨ t = 0x21 then proxyOut die k b
      else if t = 0x16 ∨ t = 0x17 then (b, splice k.body 14 (toLe 2 (k.h.src % 16384 + 1)))
      else (b, k.body)
    d2dSend die { ptype := t, vc := d2dVc t, body := r.2, prio := if k.h.rt then k.h.stream else 8, orig := some k } r.1
  else answerUnreach k 4 b

/-- R313: the die on which the packet arrives has no slot of its PART, or the context that its body names is not bound to it. -/
def partRefuses (b : Blk) (h : PktHdr) (m : Msg) : Bool :=
  h.vc ≠ 5 && (match b.slotOfPart h.part with
    | none => true
    | some n => (b.ridge.slots.get {} n).bad || (match msgCtx m with
      | some c => b.obj (Obj.ctxPart + c) 0xFF ≠ n
      | none => false))

/-- Count a packet refused by R313 against the context that it names, or that its slot is bound to. -/
def countRefused (b : Blk) (h : PktHdr) (m : Msg) : Blk :=
  match (match msgCtx m with
    | some c => some c
    | none => (b.slotOfPart h.part).bind b.ctxOfSlot) with
  | some c => bump Ctr.rgPartRefused c 1 b
  | none => b

/-- The packet enters this die's port sack. `group` 4096 names no entry, so that a refused copy fails its branch (R318). -/
def enterPort (k : RPkt) (m : Msg) (group : Nat) (b : Blk) : Blk :=
  let s := (msgSource m).getD (k.h.src % 16384, k.h.src / 16384)
  { b with port := b.port ++ [{ msg := m, chip := s.1, die := s.2, via := k.via, rt := k.h.rt, stream := k.h.stream,
                                part := k.h.part, group := group, units := k.units, vc := k.h.vc, sub := k.h.sub,
                                hdr := some k.h }] }

/-- Give back the buffer of a packet that the Ridge keeps no longer (R280). -/
def ridgeCredit (k : RPkt) (b : Blk) : Blk :=
  match k.via with
  | .ridge sp => giveRidge sp k.h.vc k.h.sub k.units b
  | _ => b

/-- The die of this chip that a packet is for: barrier packets cross to the combining die (R321), and the Ridge of the die that an
ECHO reaches answers it (R315). -/
def pktDie (b : Blk) (h : PktHdr) : Nat := if h.vc = 4 then 0 else if h.vc = 5 then b.ident.die else h.dst / 16384

/-- Deliver a unicast packet whose destination chip is this one (R302, R308, R313). -/
def deliverHere (k : RPkt) (m : Msg) (b : Blk) : Blk :=
  if k.via ≠ .local ∧ partRefuses b k.h m = true then ridgeCredit k (answerUnreach k 2 (countRefused b k.h m))
  else if pktDie b k.h ≠ b.ident.die then ridgeCredit k (crossDie (pktDie b k.h) k b)
  else enterPort k m 0 b

/-- A whole packet has arrived on sub-port `sp` (R302, R308, R318). -/
def acceptRidge (sp : Nat) (bytes : List Byte) (b : Blk) : Blk :=
  let h := decHdr (bytes.take 16)
  let k : RPkt := { h := h, body := bytes.drop 16, via := .ridge sp }
  let ctx := if h.vc = 5 then none else (b.slotOfPart h.part).bind b.ctxOfSlot
  let b := match ctx with
    | some c => bump Ctr.pwRidgeSlotsRx c k.units b
    | none => b
  let b := heard (h.src % 16384) (charge 0x0C k.units ctx none b)
  match (if ridgeType h.ptype then decMsg h.ptype k.body else none) with
  | none => ridgeCredit k (bump Ctr.rgBadType 0 1 b)
  | some m =>
    if h.ptype = 0x14 then
      let g := if h.mcast then h.dst % 4096 else 4096
      if bitsOf (groupEntry b g) 67 64 ≠ 0 ∧ partRefuses b h m = true then enterPort k m 4096 (countRefused b h m)
      else enterPort k m g b
    else if h.dst % 16384 = b.ident.chip then deliverHere k m b
    else ridgeCredit k (ridgeQueue k b)

/-- Send NAK. -/
def ridgeNak (sp : Nat) (b : Blk) : Blk :=
  let s := b.port_ sp
  ridgeIdle sp 0 0 0 true (lastSeq s.rxNext) (b.setPort sp { s with nakOut := true })

/-- A NAK has come: replay, or after 8 without progress retrain (R298, R300). -/
def ridgeTakeNak (sp ack : Nat) (b : Blk) : Blk :=
  let s := b.port_ sp
  let n := if s.nakSeq = ack then s.nakCount + 1 else 1
  if 8 ≤ n then portTrain sp true (b.setPort sp { s with nakSeq := 4096, nakCount := 0 })
  else ridgeReplay sp (b.setPort sp { s with nakSeq := ack, nakCount := n })

/-- A DATA flit in order: the packets that it completes are delivered. -/
def ridgeData (sp : Nat) (bytes : List Byte) (b : Blk) : Blk :=
  let s := b.port_ sp
  let seq := field bytes 0 2 % 4096
  let i := if s.rxBuf.isEmpty then byteAt bytes 8 % 16 else 0
  let w := walkSlots false seq i ((pieces 16 ((bytes.drop 12).take 240)).drop i) s.rxBuf (s.rxStart, 0) []
  match w with
  | .ok buf st ks =>
    let b := b.setPort sp { s with rxNext := (seq + 1) % 4096, rxBuf := buf, rxStart := st.1, nakOut := false }
    ks.foldl (fun b k => acceptRidge sp k b) (ridgeIdle sp 0 0 0 false seq b)
  | .bad _ _ => b

/-- RIDGE_FLIT (R281, R300): a flit from the partner of sub-port `sp`. -/
def effRidgeFlit (sp : Nat) (bytes : List Byte) (marked : Bool) (b : Blk) : Blk :=
  if (b.port_ sp).state ≠ .up then b
  else
    let b := if marked then bump Ctr.rgFecUncorrectable sp 1 b else b
    if marked = true ∨ field bytes 252 4 ≠ crc32 (bytes.take 252) then ridgeNak sp (bump Ctr.rgCrcErrors sp 1 b)
    else
      let ft := bitsOf (field bytes 0 2) 13 12
      let ackw := field bytes 2 2
      let b := ridgeTakeCredit sp (field bytes 6 2) (ridgeTakeCredit sp (field bytes 4 2) (ridgeAck sp (ackw % 4096) b))
      let b := if ft < 2 && ackw.testBit 12 then ridgeTakeNak sp (ackw % 4096) b else b
      if ft = 0 ∧ (b.port_ sp).state = .up then
        if field bytes 0 2 % 4096 = (b.port_ sp).rxNext then ridgeData sp bytes b
        else
          let b := bump Ctr.rgCrcErrors sp 1 b
          if (b.port_ sp).nakOut then b else ridgeNak sp b
      else b

/-! ### Routing -/

/-- What becomes of a packet that waits for routing. -/
inductive Route where
  | deliver
  | send (sp : Nat) (first : Bool)
  | drop (cause : Nat)
  | wait
deriving DecidableEq, Repr

/-- The sub-ports that an entry names within COUNT (R307). -/
def entryPorts (e : Nat) : List Nat :=
  ((List.range (bitsOf e 29 28 + 1)).map (fun i => bitsOf e (7 * i + 6) (7 * i))).filter (· < 64)

/-- CUR_DIM and SUB as the packet leaves on a sub-port (R309). -/
def leaveOn (b : Blk) (sp : Nat) (h : PktHdr) : PktHdr :=
  let a := b.obj (Obj.portAttr + sp) 0
  let h := { h with hops := h.hops + 1 }
  let h := if a % 8 ≠ h.dim then { h with dim := a % 8, sub := 0 } else h
  if a.testBit 3 then { h with sub := 1 } else h

/-- Free credits of the channel and sub-channel that the packet would use. -/
def freeCredits (b : Blk) (sp : Nat) (h : PktHdr) : Nat :=
  (b.port_ sp).credits.getD (subIdx h.vc (leaveOn b sp h).sub) 0

/-- The port has credits and replay room for all of the packet (R280, R300). -/
def portTakes (b : Blk) (sp : Nat) (k : RPkt) : Bool :=
  decide (k.units ≤ freeCredits b sp k.h) && decide ((b.port_ sp).replay.length + ceilDiv (16 * k.units) 240 ≤ replayRoom b sp)

/-- The candidate with the most free credits, the earlier on a tie (R308). -/
def mostFree (b : Blk) (h : PktHdr) : List Nat → Option Nat
  | [] => none
  | s :: t =>
    match mostFree b h t with
    | some r => if freeCredits b s h < freeCredits b r h then some r else some s
    | none => some s

/-- Route a packet (R308). -/
def routeOf (b : Blk) (k : RPkt) : Route :=
  let h := k.h
  match k.port with
  | some sp =>
    match (b.port_ sp).state with
    | .up => if portTakes b sp k then .send sp true else .wait
    | .training => .wait
    | .down | .disabled => .drop 3
  | none =>
    let chip := h.dst % 16384
    if chip = b.ident.chip then .deliver
    else if b.obj Obj.hopLimit 64 ≤ h.hops then .drop 1
    else
      let ps := entryPorts (b.ridge.route.get routeReset chip)
      let cand := ps.filter (fun s => (b.port_ s).state == .up && !(h.vc == 3 && (b.port_ s).revision == 2))
      match (if h.vc < 3 then mostFree b h cand else cand.head?) with
      | some s => if portTakes b s k then .send s (ps.head? = some s) else .wait
      | none =>
        if ps.any (fun s => (b.port_ s).state = .training) then .wait
        else if !ps.isEmpty && ps.all (fun s => (b.port_ s).state = .down) then .drop 3
        else .drop 0

/-- Order at an output arbiter, least first (R305): real-time by stream, then PEG, MGMT, and the other channels in turn; SUB 1 before
SUB 0. -/
def arbKey (b : Blk) (sp : Nat) (h : PktHdr) : Nat :=
  let s1 := 1 - (leaveOn b sp h).sub
  if h.rt then 2 * h.stream + s1
  else if h.vc = 4 then 16 + s1
  else if h.vc = 5 then 18 + s1
  else 20 + 2 * ((h.vc + 3 - (b.port_ sp).turn) % 4) + s1

/-- A packet that must not pass an earlier one (R306). -/
def heldBack (earlier : List RPkt) (k : RPkt) : Bool :=
  decide (3 ≤ k.h.vc) && earlier.any (fun e => e.h.vc = k.h.vc && e.h.dst = k.h.dst && e.port = k.port)

/-- The packet to serve next, and its route: what needs no output first, in order; then by the arbiters. -/
def pickRoute (b : Blk) (q : List RPkt) : Option (Nat × Route) :=
  let all := (List.range q.length).filterMap (fun i =>
    let k := q.getD i default
    if heldBack (q.take i) k then none
    else match routeOf b k with
      | .wait => none
      | r => some (i, r))
  all.foldl (fun acc e =>
    let key (e : Nat × Route) : Nat := match e.2 with
      | .send s _ => arbKey b s (q.getD e.1 default).h + 1
      | _ => 0
    match acc with
    | none => some e
    | some a => if key e < key a then some e else some a) none

/-- PACKET_ROUTE (R308, R309). -/
def effPacketRoute (b : Blk) : Blk :=
  match pickRoute b b.ridge.txq with
  | none => b
  | some (i, r) =>
    let k := b.ridge.txq.getD i default
    let b : Blk := { b with ridge := { b.ridge with txq := b.ridge.txq.eraseIdx i } }
    match r with
    | .wait => b
    | .deliver =>
      match decMsg k.h.ptype k.body with
      | some m => deliverHere { k with via := .local } m b
      | none => b
    | .drop c => if k.port.isSome then b else answerUnreach k c b
    | .send sp first =>
      let b := if first then b else bump Ctr.rgAdaptive 0 1 b
      let h := leaveOn b sp k.h
      let s := b.port_ sp
      ridgeEmit sp { k with h := h } (b.setPort sp { s with turn := if h.vc < 4 && !h.rt then h.vc else s.turn })

/-! ### Reachability -/

/-- Send ECHO to a chip (R315). -/
def sendEcho (chip : Nat) (b : Blk) : Blk :=
  let id := b.ridge.nextEcho
  let e := encMsg (.echo id)
  ridgeQueue { h := { ptype := e.1, vc := 5, len := (pad16 e.2).length / 16, dst := chipDie chip b.ident.die,
                      src := chipDie b.ident.chip b.ident.die },
               body := e.2 } { b with ridge := { b.ridge with nextEcho := (id + 1) % 2 ^ 32 } }

/-- The die awaits something from a chip (R315). -/
def awaited (b : Blk) (chip : Nat) : Bool :=
  !(awaiting b (fun c _ => c == chip)).isEmpty
    || b.ridge.nodes.any (fun x => (nodeKids b x.slot ++ (nodeParent b x.slot).toList).contains chip)
    || b.ridge.agg.any (fun a => a.branches.any (fun x =>
        x.kind = 2 && !x.failed && (b.port_ x.no).chip = chip && decide (x.count < a.rows)))

/-- A chip is declared unreachable (R316). -/
def declareChip (chip : Nat) (b : Blk) : Blk :=
  if chip = b.ident.chip ∨ b.ridge.declared.any (fun e => e.1 = chip) = true then b
  else
    let b : Blk := { b with ridge := { b.ridge with
      declared := b.ridge.declared.set chip b.clk.aon, reach := b.ridge.reach.del chip } }
    let b := alert 5 (bump Ctr.rgDeclared 0 1 (raise { cause := 0x08, unit := 7, detail := chip } b))
    let b := failAll (fun c _ => c == chip) .unreachable b
    let b := failBranches (fun x => x.kind = 2 && (b.port_ x.no).chip = chip) b
    barriersChipLost chip (finishTrees b)

/-- The transaction of a packet dropped with DIE_DOWN fails alone (R314): a fragment's bag, a message, a memory request, a barrier
instance. -/
def failOne (h : PktHdr) (body : List Byte) (b : Blk) : Blk :=
  let chip := h.dst % 16384
  let die := h.dst / 16384
  match h.ptype with
  | 0x10 =>
    let tag := field body 8 4
    let no := field body 6 2
    match b.bags.find? (fun x => x.tag = tag && x.frags.any (fun g => g.chip = chip && g.die = die && g.frag = no && g.vals.isNone)) with
    | some x => endUnit x.unit .unreachable b
    | none => b
  | 0x12 =>
    let tag := field body 16 4
    match tagOwner b tag with
    | some (d, _) => contribLost d.id (tag % 32) chip die 1 .unreachable b
    | none => b
  | 0x20 =>
    { b with xlat := { b.xlat with rreads := b.xlat.rreads.map (fun r =>
        if r.tag = field body 10 2 ∧ r.chip = chip ∧ r.die = die then { r with fail := some .unreachable } else r) } }
  | 0x21 =>
    let hit (w : RWrite) : Bool := w.tag = field body 10 2 && w.chip = chip && w.die = die
    match b.xlat.rwrites.find? hit with
    | some w => writeLost w .unreachable { b with xlat := { b.xlat with rwrites := b.xlat.rwrites.filter (fun w => !hit w) } }
    | none => b
  | 0x16 =>
    let m := decPegArrive body
    let k := barrierOf b m.part 0
    match findNode b k.1 m.barrier with
    | some x => if x.gen = m.gen then pegFinishAll (abortNode x 2 true b) else b
    | none => b
  | _ => b

/-- UNREACH (R314). -/
def effUnreach (b : Blk) : Blk :=
  match oldest b (fun r => match r.msg with
    | .unreach .. => true
    | _ => false) with
  | some (i, r) =>
    match r.msg with
    | .unreach h cause body =>
      let b := takeRx i r b
      if cause = 4 then failOne h body b else declareChip (h.dst % 16384) b
    | _ => b
  | none => b

/-- ECHO (R315): the Ridge answers. -/
def effEcho (b : Blk) : Blk :=
  match oldest b (fun r => match r.msg with
    | .echo _ => true
    | _ => false) with
  | some (i, r) =>
    match r.msg with
    | .echo n => answer r (.echoReply n) (takeRx i r b)
    | _ => b
  | none => b

/-- ECHO_REPLY (R315): that it arrived has been noted already. -/
def effEchoReply (b : Blk) : Blk :=
  match oldest b (fun r => match r.msg with
    | .echoReply _ => true
    | _ => false) with
  | some (i, r) => heard r.chip (takeRx i r b)
  | none => b

/-- The chips from which nothing is awaited any more leave the set: one that enters it again is counted afresh (R315). -/
def pruneReach (b : Blk) : Blk :=
  { b with ridge := { b.ridge with reach := b.ridge.reach.filter (fun e => awaited b e.1) } }

/-- REACH_IDLE_EXPIRY (R315): ECHO goes out; a chip from which nothing is awaited leaves the set. -/
def effReachIdleExpiry (chip : Nat) (b : Blk) : Blk :=
  match b.ridge.reach.find? (fun e => e.1 = chip) with
  | some (_, x) =>
    if x.echoAt.isSome || decide (b.clk.aon < x.last + b.obj Obj.reachIdle 100000) then b
    else if awaited b chip then
      sendEcho chip { b with ridge := { b.ridge with reach := b.ridge.reach.set chip { x with echoAt := some b.clk.aon } } }
    else { b with ridge := { b.ridge with reach := b.ridge.reach.del chip } }
  | none => b

/-- REACH_WAIT_EXPIRY (R316): no packet came after the ECHO. -/
def effReachWaitExpiry (chip : Nat) (b : Blk) : Blk :=
  match b.ridge.reach.find? (fun e => e.1 = chip) with
  | some (_, x) =>
    match x.echoAt with
    | some t =>
      if b.clk.aon < t + b.obj Obj.reachWait 100000 then b
      else if awaited b chip then declareChip chip b
      else { b with ridge := { b.ridge with reach := b.ridge.reach.del chip } }
    | none => b
  | none => b

/-- DECLARED_ECHO (R316): one ECHO every REACH_WAIT cycles while the declaration stands. -/
def effDeclaredEcho (chip : Nat) (b : Blk) : Blk :=
  match b.ridge.declared.find? (fun e => e.1 = chip) with
  | some (_, t) =>
    if t + b.obj Obj.reachWait 100000 ≤ b.clk.aon then
      sendEcho chip { b with ridge := { b.ridge with declared := b.ridge.declared.set chip b.clk.aon } }
    else b
  | none => b

/-! ### Tables -/

/-- The words of a table that lies in memory; a poisoned one is none (R382, DEDUCED, log 40). -/
def tableWords (w : Nat) (l : List PByte) : List (Option Nat) :=
  (pieces w l).map (fun d => if anyPoison d then none else some (le (plain d)))

/-- ROUTE_LOAD (R307): the load begins. -/
def effRouteLoad (b : Blk) : Blk :=
  onWrite Obj.routeLoad 1 (fun _ v b =>
    if b.ridge.loading.isSome ∨ loadable b v 65536 = false then .error .range
    else .ok { b with ridge := { b.ridge with loading := some v } }) b

/-- ROUTE_LOAD_DONE (R307, R316): the table is the one loaded, and every declaration ends. -/
def effRouteLoadDone (b : Blk) : Blk :=
  match b.ridge.loading with
  | none => b
  | some off =>
    let g := gsRead none off 65536 b
    let es := tableWords 4 g.2
    let t : Tbl Nat := (List.range 16384).filterMap (fun i =>
      let v := ((es.getD i none).getD routeReset) % 2 ^ 30
      if v = routeReset then none else some (i, v))
    { g.1 with ridge := { g.1.ridge with route := t, loading := none, declared := [] } }

/-- MCAST_LOAD (R317). -/
def effMcastLoad (b : Blk) : Blk :=
  onWrite Obj.mcastLoad 1 (fun _ v b =>
    if loadable b v 65536 then
      let g := gsRead none v 65536 b
      let es := tableWords 16 g.2
      let t : Tbl Nat := (List.range 4096).filterMap (fun i =>
        let x := ((es.getD i none).getD 0) % 2 ^ 69
        if x = 0 then none else some (i, x))
      .ok { g.1 with ridge := { g.1.ridge with mcast := t } }
    else .error .range) b

/-- PART_LOAD (R311): the record waits for the slot's quiescent point. -/
def effPartLoad (b : Blk) : Blk :=
  onWrite Obj.partLoad 16 (fun n v b =>
    if loadable b v 2176 then
      let g := gsRead none v 2176 b
      let x : PartSlot := g.1.ridge.slots.get {} n
      .ok { g.1 with ridge := { g.1.ridge with
              slots := g.1.ridge.slots.set n { x with loaded := some (if anyPoison g.2 then [] else plain g.2) } } }
    else .error .range) b

/-- Contexts bound to a slot. -/
def slotCtxs (b : Blk) (n : Nat) : List Nat := (List.range 64).filter (fun c => b.obj (Obj.ctxPart + c) 0xFF = n)

/-- The die holds a packet, received for a context, that it has not yet answered, placed or acknowledged. -/
def holdsFor (b : Blk) (c : Nat) : Bool :=
  b.port.any (fun r => r.via ≠ .local && msgCtx r.msg = some c)
    || b.frags.any (fun f => f.req.isSome && f.ctx = c)
    || b.gs.slices.any (fun e => e.2.inbox.any (fun m => m.b.ctx = c) || e.2.acks.any (fun a => a.ctx = c))
    || b.gs.logq.any (fun r => r.ctx = c && r.msg.isSome)

/-- The same for packets that name no context but carry the slot's partition (R311, R312). -/
def holdsPart (b : Blk) (n : Nat) : Bool :=
  b.port.any (fun r => (match r.via with
      | .ridge _ => true
      | .local | .d2d _ => false) && r.vc ≠ 5 && b.slotOfPart r.part = some n)
    || b.d2d.proxies.any (fun x => b.slotOfPart x.orig.h.part = some n)

/-- The slot's quiescent point (R311). -/
def slotQuiet (b : Blk) (n : Nat) : Bool :=
  let cs := slotCtxs b n
  let mine (d : Desc) : Bool := cs.contains (b.q d.q).ctx
  let far := awaiting b (fun c d => !(c == b.ident.chip && d == b.ident.die))
  !(b.ridge.nodes.any (fun x => x.slot = some n))
    && !(b.front.descs.any (fun d => mine d && (match d.barWait with
      | some w => w.sentAt.isSome && w.result.isNone
      | none => false)))
    && !(cs.any (fun c => far.contains c || holdsFor b c))
    && !(holdsPart b n)
    && !(b.ridge.agg.any (fun a => match a.op with
      | some id => b.front.descs.any (fun d => d.id = id && mine d)
      | none => b.slotOfPart a.part = some n))

/-- The accepted CTX_PART values that name the slot, or replace one that does. -/
def partMoves (b : Blk) (n : Nat) : List (Nat × Nat) :=
  b.mg.rwc.filter (fun e => decide (Obj.ctxPart ≤ e.1 ∧ e.1 < Obj.ctxPart + 64) && (e.2 = n || b.obj e.1 0xFF = n))

/-- A CTX_PART value moves between two slots, and the other one is quiet too. -/
def moveReady (b : Blk) (n : Nat) (e : Nat × Nat) : Bool :=
  [e.2, b.obj e.1 0xFF].all (fun m => m = n || decide (16 ≤ m) || slotQuiet b m)

/-- PARTITION_COMMIT (R311): the slot's accepted values take effect at its quiescent point. -/
def effPartitionCommit (n : Nat) (b : Blk) : Blk :=
  if slotQuiet b n then
    let ms := (partMoves b n).filter (moveReady b n)
    let b := ms.foldl (fun b e => { b.setObj e.1 e.2 with mg := { (b.setObj e.1 e.2).mg with rwc := b.mg.rwc.del e.1 } }) b
    let b := match b.mg.rwc.find? (fun e => e.1 = Obj.partId + n) with
      | some e => { b.setObj e.1 e.2 with mg := { (b.setObj e.1 e.2).mg with rwc := b.mg.rwc.del e.1 } }
      | none => b
    let x : PartSlot := b.ridge.slots.get {} n
    match x.loaded with
    | some r => { b with ridge := { b.ridge with slots := b.ridge.slots.set n { x with record := r, loaded := none, bad := r.isEmpty } } }
    | none => b
  else b

def execRidgeFlit (sp : Nat) (bytes : List Byte) (marked : Bool) (s : State) : Host.Outcome State Fault Refusal :=
  fireReady (sp < 64 && bytes.length == 256) (effRidgeFlit sp bytes marked) s
def execPacketRoute (s : State) : Host.Outcome State Fault Refusal := fireReady true effPacketRoute s
def execUnreach (s : State) : Host.Outcome State Fault Refusal := fireReady true effUnreach s
def execEcho (s : State) : Host.Outcome State Fault Refusal := fireReady true effEcho s
def execEchoReply (s : State) : Host.Outcome State Fault Refusal := fireReady true effEchoReply s
def execReachIdleExpiry (chip : Nat) (s : State) : Host.Outcome State Fault Refusal :=
  fireReady (chip < 16384) (effReachIdleExpiry chip) s
def execReachWaitExpiry (chip : Nat) (s : State) : Host.Outcome State Fault Refusal :=
  fireReady (chip < 16384) (effReachWaitExpiry chip) s
def execDeclaredEcho (chip : Nat) (s : State) : Host.Outcome State Fault Refusal :=
  fireReady (chip < 16384) (effDeclaredEcho chip) s
def execLaneLock (sp : Nat) (s : State) : Host.Outcome State Fault Refusal := fireReady (sp < 64) (effLaneLock sp) s
def execNeg (sp : Nat) (bytes : List Byte) (s : State) : Host.Outcome State Fault Refusal :=
  fireReady (sp < 64 && bytes.length == 256) (effNeg sp bytes) s
def execPortTrainingEnd (sp : Nat) (ok : Bool) (s : State) : Host.Outcome State Fault Refusal :=
  fireReady (sp < 64) (effPortTrainingEnd sp ok) s
def execLaneFail (lane : Nat) (s : State) : Host.Outcome State Fault Refusal := fireReady (lane < 256) (effLaneFail lane) s
def execPortRetrain (s : State) : Host.Outcome State Fault Refusal := fireReady true effPortRetrain s
def execResetPort (s : State) : Host.Outcome State Fault Refusal := fireReady true effResetPort s
def execRouteLoad (s : State) : Host.Outcome State Fault Refusal := fireReady true effRouteLoad s
def execRouteLoadDone (s : State) : Host.Outcome State Fault Refusal := fireReady true effRouteLoadDone s
def execMcastLoad (s : State) : Host.Outcome State Fault Refusal := fireReady true effMcastLoad s
def execPartLoad (s : State) : Host.Outcome State Fault Refusal := fireReady true effPartLoad s
def execPartitionCommit (n : Nat) (s : State) : Host.Outcome State Fault Refusal := fireReady (n < 16) (effPartitionCommit n) s

end Sys2Proof.Machine
end

