-- ==== Sys2Proof/Machine/Host.lean ====
section
/-! DEFINITION. The host link and its loss (R259 to R263), and the disabling of functions (R264 to R267). -/
namespace Sys2Proof.Machine

/-! ### Losing and regaining the host -/

/-- HOST_LINK_DOWN (R259): the link leaves its active state; requests are held and the timer starts. -/
def effHostLinkDown (b : Blk) : Blk :=
  if b.straps.lead && b.host.active then
    let b : Blk := { b with host := { b.host with active := false } }
    if b.host.state = 0 then
      detachEntry 1 none none none 0 0 (alert 2 { b with host := { b.host with state := 1, downAt := b.clk.aon } })
    else b
  else b

/-- A held write of host memory is not made: the host is lost or refuses it. Its descriptor is not complete without it (R250, R258,
R261), and a ring's record or tail word is discarded. -/
def heldGone (s : Status) (w : HeldWrite) (b : Blk) : Blk :=
  match w.unit with
  | some (.compl q) => if s = .hostLost then discardHost q (w.data.length == 16) b else discardRecord q b
  | some (.mdc p) => lineWriteLost p w.addr s b
  | some u => unitWriteLost u s b
  | none => b

/-- A held write of another die is answered when it is over. -/
def heldAnswer (w : HeldWrite) (b : Blk) : Blk :=
  match w.ask with
  | some r => writeAnswer r b
  | none => b

/-- Issue one held write (R260). -/
def issueOne (w : HeldWrite) (b : Blk) : Blk :=
  heldAnswer w (match hostPut (w.unit.getD .block) w.ctx w.shared w.addr w.data b with
    | (b, true) => b
    | (b, false) => heldGone .unreachable w b)

/-- Issue the writes that were held, oldest first (R260). -/
def issueHeld (b : Blk) : Blk :=
  b.host.heldWrites.foldl (fun b w => issueOne w b) { b with host := { b.host with heldWrites := [] } }

/-- LINK_RETRAINED (R260): within 200,000 CK_AON cycles; the held requests are issued. -/
def effLinkRetrained (b : Blk) : Blk :=
  if b.host.state = 1 ∧ b.clk.aon < b.host.downAt + 200000 then
    detachEntry 2 none none none 0 0
      (issueHeld { b with host := { b.host with state := 0, active := true, trainings := b.host.trainings + 1 } })
  else b

/-- A virtual address of a queue lies in host memory: for a ring its first address stands for all of it, as it translates at the
moment of the loss (DESIGN CHOICE, log 93). -/
def inHost (b : Blk) (n va : Nat) : Bool :=
  match (translate .front (.compl n) (clsOf b n) va false false b).2 with
  | .ok _ host _ _ _ => host
  | _ => false

/-- The queue has a descriptor ring or a completion ring in host memory (R261). -/
def hostRings (b : Blk) (n : Nat) : Bool :=
  let x := b.q n
  inHost b n x.ringBase.toNat || inHost b n x.cqBase.toNat

/-- A queue enters DETACHED (R261, R262). One in BIND_ERR stays there (DESIGN CHOICE, log 94). -/
def detachOne (n : Nat) (b : Blk) : Blk :=
  let x := b.q n
  match x.st with
  | .stopped | .running | .stalledEarly =>
    if hostRings b n then
      detachQueue 4 n (x.fetch % 2 ^ 32) (x.written % 2 ^ 32)
        (b.setQ n { x with st := .detached, burst := none, poll := none, stopping := false })
    else b
  | _ => b

/-- The host is lost (R261): `cause` 0 by the timer, 1 by management firmware. What needs host memory meets the loss at its next
access. -/
def loseHost (cause inReplay : Nat) (b : Blk) : Blk :=
  if b.host.state = 2 then b
  else
    let ws := b.host.heldWrites
    let held := ws.length
    let b := if b.host.state = 0 then alert 2 b else b
    let b : Blk := { b with host := { b.host with state := 2, heldWrites := [] } }
    let b := bump Ctr.hsWritesDiscarded 0 (held + inReplay) b
    let b := detachEntry 3 none none none cause 0 b
    let b := (List.range 256).foldl (fun b n => detachOne n b) b
    let b := ws.foldl (fun b w => heldAnswer w (heldGone .hostLost w b)) b
    detachEntry 5 none none none held inReplay b

/-- Re-attachment (R263): accepted only while the host is LOST and the link is active. -/
def attachHost (b : Blk) : Except DStatus Blk :=
  if b.host.state = 2 ∧ b.host.active = true then
    let one (n : Nat) (b : Blk) : Blk :=
      b.modQ n (fun x => match x.st with
        | .detached => if b.inflight n = 0 then { x with st := .stopped } else { x with reattach := true }
        | _ => x)
    let b := (List.range 256).foldl (fun b n => one n b) { b with host := { b.host with state := 0 } }
    .ok (detachEntry 7 none none none 0 0 b)
  else .error .range

/-- The head is a WRITE of HOST_STATE with this value. -/
def isHostState (v : Nat) (r : Req) : Bool := isWriteTo Obj.hostState 1 r && r.value == v

/-- HOST_LOST (R259, R261). -/
def effHostLost (byFirmware : Bool) (inReplay : Nat) (b : Blk) : Blk :=
  if byFirmware then runHead (isHostState 2) (runWrite (fun _ _ b => .ok (loseHost 1 inReplay b))) b
  else if b.host.state = 1 ∧ b.host.downAt + 200000 ≤ b.clk.aon then loseHost 0 inReplay b
  else b

/-- HOST_REATTACHED (R263). -/
def effHostReattached (b : Blk) : Blk := runHead (isHostState 0) (runWrite (fun _ _ b => attachHost b)) b

/-- HOST_LINK_ACTIVE (R263): the link of a lost host is active again. -/
def effHostLinkActive (b : Blk) : Blk :=
  if b.straps.lead && !b.host.active && b.host.state ≠ 1 then
    { b with host := { b.host with active := true, trainings := b.host.trainings + 1 } }
  else b

/-! ### Disabling a function -/

def Blk.fn (b : Blk) (f : Nat) : Fn := b.host.fns.get {} f

def Blk.setFn (b : Blk) (f : Nat) (x : Fn) : Blk := { b with host := { b.host with fns := b.host.fns.set f x } }

/-- The queues of a function (R240). -/
def fnQueues (b : Blk) (f : Nat) : List Nat := (List.range 256).filter (fun n => owns b f n)

/-- A queue enters DRAINING: what has not started completes with DISABLED, and a started KINDLE at once (R265, R266). -/
def drainQueue (n : Nat) (b : Blk) : Blk :=
  let b := b.modQ n (fun x => if servedBy b n ≠ b.ident.die then x else { x with st := .draining, burst := none, poll := none, stopping := false, reattach := false })
  ((b.descsOf n).map (·.id)).foldl (fun b id =>
    match b.desc? id with
    | none => b
    | some d =>
      if d.stage = .complete then b
      else if d.hasStarted then (if d.opcode = 0x05 then completeWith id .ok 0 0 b else b)
      else stopDesc id .disabled b) b

/-- Dies of the chip that serve queues of a function, as the lead die knows them. -/
def fnDies (f : Nat) (b : Blk) : List Nat := (b.front.queueDie.filter (fun e => owns b f e.1)).map (·.2) |>.eraseDups

/-- The lead die has another die write FN_DISABLE of a function, as a dictionary request that it sends itself (R265, R270; DESIGN
CHOICE, log 46). -/
def tellDie (f v die : Nat) (b : Blk) : Blk :=
  if b.linkUp die then
    sendDict die (relrokBytes ([0x82, 0xFF, BitVec.ofNat 8 die, 0] ++ toLe 2 0x5103 ++ toLe 1 f ++ [7] ++ toLe 4 0 ++ toLe 2 1 ++ [0, 0]
      ++ toLe 1 v)) b
  else fwdDropped die b

/-- A function is disabled (R264, R265). While a disable is in progress a second trigger changes nothing, and only an FLR begins
another once it is over (DESIGN CHOICE, log 95). -/
def disableOne (trigger f : Nat) (b : Blk) : Blk :=
  let x := b.fn f
  if x.trigger.isSome && !(x.drained && trigger == 1) then b
  else
    let ds := fnDies f b
    let b := b.setFn f { x with trigger := some (trigger, b.clk.half), drained := false, graceOver := false,
                                told := (x.told ++ ds).eraseDups }
    let b := ds.foldl (fun b d => tellDie f 1 d b) b
    (fnQueues b f).foldl (fun b n => drainQueue n b) (detachEntry 8 (some f) none none trigger 0 b)

/-- Disabling the PF disables every VF as well (R264): on the lead die, where the functions are. -/
def disableFn (trigger f : Nat) (b : Blk) : Blk :=
  if f = 0 && b.straps.lead then (List.range 64).foldl (fun b f => disableOne trigger f b) b else disableOne trigger f b

/-- A drained function is enabled again once nothing disables it (R267). -/
def enableFn (f : Nat) (b : Blk) : Blk :=
  let x := b.fn f
  if x.drained && !x.busMasterOff && (f == 0 || b.host.vfEnable) && b.obj (Obj.fnDisable + f) 0 == 0 then
    x.told.foldl (fun b d => tellDie f 0 d b) (b.setFn f {})
  else b

/-- FLR (R252, R264): a reset of the PF resets the window too. -/
def effFlr (fn : Nat) (b : Blk) : Blk :=
  if hostReaches b then
    disableFn 1 fn (if fn = 0 then { b with host := { b.host with base := 0, en := false } } else b)
  else b

/-- VF_ENABLE (R264). -/
def effVfEnable (on : Bool) (b : Blk) : Blk :=
  if !(hostReaches b) then b
  else
    let vfs := (List.range 63).map (· + 1)
    let b : Blk := { b with host := { b.host with vfEnable := on } }
    if on then vfs.foldl (fun b f => enableFn f b) b else vfs.foldl (fun b f => disableOne 2 f b) b

/-- BUS_MASTER (R264). -/
def effBusMaster (fn : Nat) (on : Bool) (b : Blk) : Blk :=
  if !(hostReaches b) then b
  else
    let b := b.setFn fn { b.fn fn with busMasterOff := !on }
    if on then enableFn fn b else disableFn 3 fn b

/-- FN_DISABLE (R264, R267): TRUE disables the function; FALSE lets it be enabled again. -/
def effFnDisable (b : Blk) : Blk :=
  onWrite Obj.fnDisable 64 (fun f v b =>
    let b := b.setObj (Obj.fnDisable + f) v
    .ok (if v = 1 then disableFn 4 f b else enableFn f b)) b

/-- End one started descriptor at the end of the grace (R266); whether it was aborted. -/
def graceEnd (id : Nat) (b : Blk) : Blk × Bool :=
  match b.desc? id with
  | none => (b, false)
  | some d =>
    if d.stage = .complete then (b, false)
    else if tileStop d.opcode || d.opcode == 0x03 || d.opcode == 0x23 then (stopDesc id .cancelled b, true)
    else
      match d.work with
      | .refresh _ =>
        let b := forgetUnit (.desc id) (closeTree id (modRefresh id (fun r => { r with done := true }) (addStatus id .cancelled b)))
        (refreshClose id b, true)
      | .bias r =>
        let b := modBias id (fun r => { r with stopped := true }) (forgetUnit (.desc id) b)
        (if r.waiting then b else biasEnd id b, true)
      | _ => if d.opcode = 0x24 ∨ d.opcode = 0x31 then (stopDesc id .cancelled b, true) else (b, false)

/-- GRACE_EXPIRY (R266): 180,000 CK_HALF cycles from the disable. -/
def effGraceExpiry (fn : Nat) (b : Blk) : Blk :=
  let x := b.fn fn
  match x.trigger with
  | none => b
  | some (_, t) =>
    if x.graceOver || x.drained || decide (b.clk.half < t + 180000) then b
    else
      let b := b.setFn fn { x with graceOver := true }
      let ids := (fnQueues b fn).flatMap (fun n => (b.descsOf n).map (·.id))
      let r := ids.foldl (fun (s : Blk × Nat) id => let e := graceEnd id s.1; (e.1, s.2 + boolNat e.2)) (b, 0)
      detachEntry 9 (some fn) none none r.2 0 (bump Ctr.fnAborted 0 r.2 r.1)

/-- Ask the dies that still serve queues of a function for their state (R267): a queue that is UNBOUND there is let go. -/
def askDrained (f : Nat) (b : Blk) : Blk :=
  (b.front.queueDie.filter (fun e => owns b f e.1)).foldl (fun b e => forwardRead e.2 1 f e.1 0x030 b) b

/-- FUNCTION_DRAINED (R267): every descriptor of the function has completed, and other dies have let its queues go. -/
def effFunctionDrained (fn : Nat) (b : Blk) : Blk :=
  let x := b.fn fn
  match x.trigger with
  | none => b
  | some (tr, _) =>
    let qs := fnQueues b fn
    if x.drained || b.front.descs.any (fun d => qs.contains d.q) then b
    else if b.front.queueDie.any (fun e => qs.contains e.1) then askDrained fn b
    else
      let b : Blk := { b with front := { b.front with
        queues := b.front.queues.filter (fun e => !qs.contains e.1)
        pegs := b.front.pegs.filter (fun e => !ownsCtx b fn (e.1 / 64)) } }
      let b := if tr = 1 ∨ tr = 2 then b else b.setObj (Obj.fnDisable + fn) 1
      enableFn fn (b.setFn fn { x with drained := true })

def execHostLinkDown (s : State) : Host.Outcome State Fault Refusal := fireReady true effHostLinkDown s
def execLinkRetrained (s : State) : Host.Outcome State Fault Refusal := fireReady true effLinkRetrained s
def execHostLost (byFirmware : Bool) (inReplay : Nat) (s : State) : Host.Outcome State Fault Refusal :=
  fireReady (inReplay < 65536) (effHostLost byFirmware inReplay) s
def execHostReattached (s : State) : Host.Outcome State Fault Refusal := fireReady true effHostReattached s
def execHostLinkActive (s : State) : Host.Outcome State Fault Refusal := fireReady true effHostLinkActive s
def execFlr (fn : Nat) (s : State) : Host.Outcome State Fault Refusal := fireReady (fn < 64) (effFlr fn) s
def execVfEnable (on : Bool) (s : State) : Host.Outcome State Fault Refusal := fireReady true (effVfEnable on) s
def execBusMaster (fn : Nat) (on : Bool) (s : State) : Host.Outcome State Fault Refusal := fireReady (fn < 64) (effBusMaster fn on) s
def execFnDisable (s : State) : Host.Outcome State Fault Refusal := fireReady true effFnDisable s
def execGraceExpiry (fn : Nat) (s : State) : Host.Outcome State Fault Refusal := fireReady (fn < 64) (effGraceExpiry fn) s
def execFunctionDrained (fn : Nat) (s : State) : Host.Outcome State Fault Refusal := fireReady (fn < 64) (effFunctionDrained fn) s

end Sys2Proof.Machine
end

