-- ==== Sys2Proof/Machine/Reset.lean ====
section
/-! DEFINITION. Cold and warm reset (R334 to R339, R371, R372). -/
namespace Sys2Proof.Machine

/-! ### What a reset leaves of memory -/

/-- A write under way belongs to a tile that is not committed. -/
def ofTile (u : UnitRef) : Bool :=
  match u with
  | .unit _ | .desc _ => true
  | _ => false

/-- Writes handed to the groundsheet port complete there, but the bytes of tiles not yet committed are undefined (R337). -/
def landWrites (b : Blk) : Mem :=
  b.gs.writes.foldl (fun m w =>
    if ofTile w.2.2.2 then m.forget w.2.1 w.2.2.1.length b.stamp else m.write w.2.1 w.2.2.1) b.mem

/-- Under a cold reset nothing says what becomes of the writes under way: their bytes are undefined (DESIGN CHOICE, log 47). -/
def loseWrites (b : Blk) : Mem := b.gs.writes.foldl (fun m w => m.forget w.2.1 w.2.2.1.length b.stamp) b.mem

/-- The levels of the pins that a reset does not touch. -/
def pinLevels (b : Blk) : Power :=
  { rootLocked := b.pw.rootLocked, warmRstN := b.pw.warmRstN, droop := b.pw.droop, freqReq := b.pw.freqReq,
    throttleReq := b.pw.throttleReq }

/-! ### Cold reset -/

/-- Every register at its reset value, with these straps and IDENT inputs (R334); memory, and what has left the block,
are not the block's (DESIGN CHOICE, log 47). -/
def coldBlk (st : Straps) (id : Ident) (b : Blk) : Blk :=
  { build := b.build, straps := st, ident := id, pw := pinLevels b, mem := loseWrites b, hostMem := b.hostMem,
    host := { trainings := b.host.trainings + 1 }, out := b.out, stamp := b.stamp + 1 }

/-- COLD_RESET_ASSERT (R334): the whole block is reset, its output enables deasserted and FREQ_ACK high. -/
def effColdResetAssert (b : Blk) : Blk := coldBlk b.straps b.ident b

/-- COLD_RESET (R335): COLD_RST_N rises; the straps and the IDENT inputs are taken, and CK_AON counts from here. -/
def effColdReset (st : Straps) (id : Ident) (b : Blk) : Blk :=
  match b.pw.phase with
  | .cold =>
    let c := coldBlk st id b
    { c with pw := { c.pw with phase := .lock } }
  | _ => b

/-- ROOT_LOCKED (R335): stable for 4 CK_AON cycles; the dividers start together. -/
def effRootLocked (b : Blk) : Blk :=
  match b.pw.phase with
  | .lock =>
    { b with
      clk := { aon := b.clk.aon, gs := b.clk.gs, d2d := b.clk.d2d }
      pw := { b.pw with phase := .dividers, rootLocked := true, since := 0, khzAon := b.clk.aon }
      lan := { b.lan with lastAon := b.clk.aon } }
  | _ => b

/-- The levels that the power inputs have when reset ends act from then on (R338). -/
def samplePins (b : Blk) : Blk :=
  let p := b.pw
  let b : Blk := { b with pw := { p with droop := false, freqReq := false, throttleReq := false } }
  let b := if p.droop then effDroopWarnRise b else b
  let b := if p.freqReq then effFreqReqRise b else b
  if p.throttleReq then effThrottleReqRise b else b

/-- RESET_END: 32 CK_CORE cycles after the first edge (R335). The enables are asserted, FREQ_ACK falls, the arrays' ramps
start (R341), a warm reset raises its alert (R376), and BLOCK_STATE takes its value (R372). -/
def effResetEnd (b : Blk) : Blk :=
  match b.pw.phase with
  | .dividers =>
    if 32 ≤ b.clk.core then
      let b : Blk := { b with
        pw := { b.pw with phase := .initialise, oe := true, freqAck := false }
        mg := { b.mg with released := !b.straps.held } }
      samplePins (blockRamp (if b.pw.cause = 0 then b else alert 6 b))
    else b
  | _ => b

/-- A released die's links and ports start: each link that has modules trains, and each enabled sub-port negotiates (R285,
R294, R372). The side that was reset signals LINK_RESET (R283, DEDUCED, log 48). -/
def startLinks (b : Blk) : Blk :=
  let one (p : Nat) (b : Blk) : Blk :=
    if p ≠ b.ident.die ∧ b.moduleMap p ≠ 0 ∧ (b.link p).state = .absent then startTrain p 2 false b else b
  (List.range 32).foldl (fun b p => portApply p b) ((List.range 4).foldl (fun b p => one p b) b)

/-- READY: 20,160 CK_CORE cycles after the first edge (R335). Links and ports are served from here (DEDUCED, log 48). -/
def effReady (b : Blk) : Blk :=
  match b.pw.phase with
  | .initialise =>
    if 20160 ≤ b.clk.core then
      let b : Blk := { b with pw := { b.pw with phase := .ready, readyPin := true } }
      if b.mg.released then startLinks b else b
    else b
  | _ => b

/-! ### Warm reset -/

/-- The objects that a warm reset keeps among the dictionary's values (R336). -/
def keptObj (k : Nat) : Bool := k == Obj.errLogWritten || k == Obj.errLogLost

/-- Links of the die, which send LINK_RESET as a warm reset begins (R337). -/
def resetLinks (b : Blk) : List Nat := (List.range 4).filter (fun p => (b.link p).state ≠ .absent)

/-- A warm reset begins (R336, R337). -/
def warmBegin (cause : Nat) (byPin : Bool) (b : Blk) : Blk :=
  let c : Blk :=
    { build := b.build, straps := b.straps, ident := b.ident
      clk := { aon := b.clk.aon, gs := b.clk.gs, d2d := b.clk.d2d }
      pw := { pinLevels b with phase := .warm, since := b.clk.aon, cause := cause, warmByPin := byPin }
      mem := landWrites b, hostMem := b.hostMem
      host := { trainings := b.host.trainings + 1 }
      d2d := { features := b.d2d.features }
      mg := { val := b.mg.val.filter (fun e => keptObj e.1) }
      err := { log := b.err.log }
      lan := { ujCtx := b.lan.ujCtx, ujQ := b.lan.ujQ, ujBlk := b.lan.ujBlk, lastAon := b.clk.aon }
      out := b.out, stamp := b.stamp + 1 }
  (resetLinks b).foldl (fun c p => sideband p 2 0 0 0 c) c

/-- What the level of WARM_RST_N does in each phase. -/
def warmPin (level : Bool) (b : Blk) : Blk :=
  match b.pw.phase with
  | .cold => b
  | .warm =>
    if level then (if b.pw.warmByPin then { b with pw := { b.pw with phase := .lock } } else b)
    else { b with pw := { b.pw with warmByPin := true, cause := 1 } }
  | .lock | .dividers | .initialise | .ready => if level then b else warmBegin 1 true b

/-- WARM_RST_N (R337): low for 16 CK_AON cycles it starts a warm reset, and its rise restarts the sequence. -/
def effWarmRstN (level : Bool) (b : Blk) : Blk := warmPin level { b with pw := { b.pw with warmRstN := level } }

/-- RESET_WARM (R337): executed and answered like any write; the reset comes 1,024 CK_MGMT cycles later. -/
def effResetWarm (b : Blk) : Blk :=
  onWrite Obj.resetWarm 1 (whenTrue (fun _ b =>
    if b.pw.warmAt.isSome then b else { b with pw := { b.pw with warmAt := some b.clk.mgmt } })) b

/-- WARM_RESET_TRIGGER (R337): the delay of RESET_WARM is over, or ROOT_LOCKED has fallen outside reset. -/
def effWarmResetTrigger (lockLost : Bool) (b : Blk) : Blk :=
  if lockLost then
    let b : Blk := { b with pw := { b.pw with rootLocked := false } }
    if afterReset b then warmBegin 3 false b else b
  else
    match b.pw.warmAt with
    | some t => if t + 1024 ≤ b.clk.mgmt then warmBegin 2 false b else b
    | none => b

/-- WARM_RESET_RESTART (R337): 64 CK_AON cycles after a trigger other than the pin. -/
def effWarmResetRestart (b : Blk) : Blk :=
  match b.pw.phase with
  | .warm =>
    if !b.pw.warmByPin && decide (b.pw.since + 64 ≤ b.clk.aon) then { b with pw := { b.pw with phase := .lock } } else b
  | _ => b

/-- Straps and IDENT inputs have the widths of R371 and R397. -/
def strapsOk (st : Straps) (id : Ident) : Bool :=
  decide (st.i3cAddr < 128 ∧ st.pitchLimit < 4 ∧ id.chip < 16384 ∧ id.die < 4 ∧ id.serial < 2 ^ 64 ∧ id.licensee < 2 ^ 32)

def execColdReset (st : Straps) (id : Ident) (s : State) : Host.Outcome State Fault Refusal :=
  fire (strapsOk st id) (effColdReset st id) s
def execColdResetAssert (s : State) : Host.Outcome State Fault Refusal := fire true effColdResetAssert s
def execRootLocked (s : State) : Host.Outcome State Fault Refusal := fire true effRootLocked s
def execResetEnd (s : State) : Host.Outcome State Fault Refusal := fire true effResetEnd s
def execReady (s : State) : Host.Outcome State Fault Refusal := fire true effReady s
def execWarmRstN (level : Bool) (s : State) : Host.Outcome State Fault Refusal := fire true (effWarmRstN level) s
def execResetWarm (s : State) : Host.Outcome State Fault Refusal := fireReady true effResetWarm s
def execWarmResetTrigger (lockLost : Bool) (s : State) : Host.Outcome State Fault Refusal :=
  fire true (effWarmResetTrigger lockLost) s
def execWarmResetRestart (s : State) : Host.Outcome State Fault Refusal := fire true effWarmResetRestart s

end Sys2Proof.Machine
end

