-- ==== Sys2Proof/Machine/Integrity.lean ====
section
/-! DEFINITION. Stuff sacks whose pointers disagree (R383 to R387), and the copying of error records (R391 to R393). -/
namespace Sys2Proof.Machine

/-! ### Sack resets -/

/-- The record of a sack reset (R387, R391): class 0 READ, 1 PORT, 2 INTERNAL, 3 RECORD. -/
def sackRecord (cls unit inst : Nat) (ctx : Option Nat) (shared : Bool) (b : Blk) : Blk :=
  raise { cause := 0x13, ctx := ctx, shared := shared, recovered := decide (cls < 2), unit := unit, inst := inst, detail := cls } b

/-- A unit's input sack: its producer reads every tile again and commits it again, in order (R387). -/
def reread (u : Unit) (b : Blk) : Blk :=
  match u.stage with
  | .input =>
    let x := b.pitch u.pitch
    let b := (dropReads (.unit u.uid) b).setPitch u.pitch { x with ahead := x.ahead.filter (fun h => h.1 ≠ u.op) }
    bump Ctr.sackItemsReplayed 0 u.have_.length
      (b.modUnit u.uid (fun u => { u with need := u.have_.map (fun h => (h.1, h.2.length)) ++ u.need, have_ := [] }))
  | _ => b

/-- The ports commit every unreleased packet again, in order of arrival: a fragment in service starts from its first row (R387). -/
def redeliver (b : Blk) : Blk :=
  let mine := b.frags.filter (fun f => f.req.isSome)
  bump Ctr.sackItemsReplayed 0 (b.port.length + mine.length)
    { b with frags := b.frags.map (fun f =>
        if f.req.isSome then { f with next := 0, acc := f.acc.map (fun _ => 0), off := 0 } else f) }

/-- Units of a pitch with a packet on its internal paths: those past their input that have not ended. -/
def inside (b : Blk) (p : Nat) : List Unit :=
  b.units.filter (fun u => u.pitch = p && (match u.stage with
    | .work | .combine | .pass | .write => true
    | .input => decide (0 < u.next) || b.bags.any (fun x => x.unit = u.uid)
    | .done => false))

/-- The internal paths of a pitch lose their packets: each unit with one fails (R387, R395), and contexts that share the sack each
get a record (R394). -/
def loseInside (p : Nat) (b : Blk) : Blk :=
  let us := inside b p
  let ctxs := (us.filterMap (fun u => (b.desc? u.op).map (fun d => (b.q d.q).ctx))).eraseDups
  let b := match ctxs with
    | [] => sackRecord 2 2 p none false b
    | [c] => sackRecord 2 2 p (some c) false b
    | _ => ctxs.foldl (fun b c => sackRecord 2 2 p (some c) true b) b
  us.foldl (fun b u => failUnit u.uid b) (bump Ctr.sackItemsLost 0 us.length b)

/-- A record of the fault staging sack is lost (R217, R387). -/
def loseFault (r : FaultRec) (b : Blk) : Blk :=
  let b := bump Ctr.ftLost r.ctx 1 { b with err := { b.err with faultLost := b.err.faultLost + 1 } }
  if (ctxHdr b r.ctx).ringOk then writeFaultTail r.ctx { b with xlat := { b.xlat with lost := addAt b.xlat.lost r.ctx 1 } } else b

/-- SACK_MISMATCH (R386, R387). -/
def effSackMismatch (k : SackId) (b : Blk) : Blk :=
  let b := bump Ctr.sackMismatch 0 1 b
  match k with
  | .read uid =>
    match b.unit? uid with
    | some u => sackRecord 0 2 u.pitch ((b.desc? u.op).map (fun d => (b.q d.q).ctx)) false (reread u b)
    | none => sackRecord 0 2 0 none false b
  | .fetch q =>
    let n := match (b.q q).burst with
      | some x => x.n
      | none => 0
    sackRecord 0 0 0 (some (b.q q).ctx) false (bump Ctr.sackItemsReplayed 0 n b)
  | .port => sackRecord 1 7 0 none false (redeliver b)
  | .internal p => loseInside p b
  | .error =>
    let n := b.err.staging.length
    sackRecord 3 8 0 none false (bump Ctr.sackItemsLost 0 n
      { b with err := { b.err with staging := [], errLost := b.err.errLost + n } })
  | .fault =>
    let rs := b.xlat.staging
    let b := rs.foldl (fun b r => loseFault r b) { b with xlat := { b.xlat with staging := [] } }
    sackRecord 3 1 0 none false (bump Ctr.sackItemsLost 0 rs.length b)
  | .trace =>
    let n := b.err.trace.length
    sackRecord 3 0 0 none false (bump Ctr.sackItemsLost 0 n
      { b with err := { b.err with trace := [], traceLost := b.err.traceLost + n } })

/-! ### Error records -/

/-- The ring's header: records written and records that it could not take (R392). -/
def ringHeader (b : Blk) : Blk :=
  let base := b.obj Obj.errRingBase 0
  if base = 0 then b else gsWriteB base (toLe 8 (b.err.ringWritten % 2 ^ 64) ++ toLe 8 (b.err.ringLost % 2 ^ 64)) b

/-- One record goes to the error ring, or is counted (R392). -/
def toRing (r : ErrRec) (b : Blk) : Blk :=
  let base := b.obj Obj.errRingBase 0
  let size := 2 ^ b.obj Obj.errRingLog2 6
  let n := b.err.ringWritten
  if base = 0 then b
  else if (n + 2 ^ 64 - b.obj Obj.errRingHead 0) % 2 ^ 64 < size then
    ringHeader { gsWriteB (base + 64 + 32 * (n % size)) (errBytes r) b with err := { b.err with ringWritten := n + 1 } }
  else ringHeader (bump Ctr.errRingLost 0 1 { b with err := { b.err with ringLost := b.err.ringLost + 1 } })

/-- One record enters the dictionary log, which keeps the 256 latest (R376, R380). -/
def toLog256 (r : ErrRec) (b : Blk) : Blk :=
  let full := decide (256 ≤ b.err.log.length)
  let b := countObj Obj.errLogWritten { b with err := { b.err with
    log := (if full then b.err.log.drop 1 else b.err.log) ++ [r] } }
  let b := if full then alert 1 (countObj Obj.errLogLost b) else b
  alert 0 b

/-- A copy of the oldest record may begin (R391). -/
def copyDue (b : Blk) (entered : Nat) : Bool :=
  match b.err.lastCopy with
  | some t => decide (max entered (t + 16) ≤ b.clk.half)
  | none => decide (entered ≤ b.clk.half)

/-- ERROR_RECORD_COPY (R391): one record, in order of entry, to the dictionary log and then to the ring. -/
def effErrorRecordCopy (b : Blk) : Blk :=
  match b.err.staging with
  | [] => b
  | (r, t) :: rest =>
    if copyDue b t then
      toRing r (toLog256 r { b with err := { b.err with staging := rest, lastCopy := some b.clk.half } })
    else b

/-- A sack's owner exists in every build. -/
def sackOk (k : SackId) : Bool :=
  match k with
  | .fetch q => decide (q < 256)
  | .internal p => decide (p < 32)
  | .read _ | .port | .error | .fault | .trace => true

def execSackMismatch (k : SackId) (s : State) : Host.Outcome State Fault Refusal := fireReady (sackOk k) (effSackMismatch k) s
def execErrorRecordCopy (s : State) : Host.Outcome State Fault Refusal := fireReady true effErrorRecordCopy s

end Sys2Proof.Machine
end

