-- ==== Sys2Proof/Machine/Dict.lean ====
section
/-! DEFINITION. Writes of registers and objects that have no row of their own (R241, R362), the commit points of RWC objects (R370),
and the objects whose write is an action: R235, R372, R375, R379 to R381. -/
namespace Sys2Proof.Machine

/-! ### The host's registers -/

/-- A write of the translation page (R211), by offset. -/
def xlatWrite (fn off : Nat) (v : W64) (b : Blk) : Blk :=
  if off = 0x000 then
    match bitsOf v.toNat 3 0 with
    | 1 => effInvalidateGranule fn v b
    | 2 => effInvalidateSegment fn v b
    | 3 => effInvalidateContext fn v b
    | 4 => effInvalidateAll fn v b
    | _ => b
  else if off = 0x008 then { b with xlat := { b.xlat with ackAddr := Tbl.set b.xlat.ackAddr fn (v &&& ackMask) } }
  else if off = 0x018 then (if v.toNat.testBit 8 then effResumeAbort fn v b else effResume fn v b)
  else if 0x100 ≤ off ∧ off < 0x900 then effFaultHeadWrite fn ((off - 0x100) / 0x200) ((off - 0x100) % 0x200 / 8) v b
  else b

/-- A write of a doorbell page (R27, R241). -/
def pageWriteBar (fn q off : Nat) (v : W64) (b : Blk) : Blk :=
  if off = 0x008 then effQcfgWrite fn q v b else pageWrite fn q off v (pageWriteHere fn q off v) b

/-- A VF's page j is that of its j-th queue (R241). -/
def vfQueue (b : Blk) (fn j : Nat) : Option Nat :=
  if j < b.obj (Obj.fnQueueCount + fn) 0 ∧ j ≤ 62 then some (b.obj (Obj.fnQueueFirst + fn) 0 + j) else none

/-- A write to BAR0 of a function (R241): an aligned 64-bit one, to an offset that the BAR map lists. -/
def barWrite (fn off bytes : Nat) (v : W64) (b : Blk) : Blk :=
  if !(hostReaches b) || bytes ≠ 8 || off % 8 ≠ 0 then b
  else if fn = 0 then
    if off < 0x100000 then pageWriteBar fn (off / 0x1000) (off % 0x1000) v b
    else if off < 0x101000 then xlatWrite fn (off - 0x100000) v b
    else if off < 0x102000 then bivouacWrite (off - 0x101000) v b
    else b
  else if off < 0x3F000 then
    match vfQueue b fn (off / 0x1000) with
    | some q => pageWriteBar fn q (off % 0x1000) v b
    | none => b
  else if off < 0x40000 then xlatWrite fn (off - 0x3F000) v b
  else b

/-! ### Values that an object takes -/

/-- The value last accepted: the one that waits, or the one in force. -/
def accepted (b : Blk) (k dflt : Nat) : Nat :=
  match b.mg.rwc.find? (fun e => e.1 = k) with
  | some e => e.2
  | none => b.obj k dflt

/-- Two ranges of queues have one in common. -/
def rangesMeet (f n g m : Nat) : Bool := decide (0 < n ∧ 0 < m ∧ f < g + m ∧ g < f + n)

/-- Functions' queue ranges, as accepted. -/
def fnRange (b : Blk) (f : Nat) : Nat × Nat :=
  (accepted b (Obj.fnQueueFirst + f) 0, accepted b (Obj.fnQueueCount + f) (if f = 0 then 256 else 0))

/-- A range that a write would give function `f` meets no other function's (R240). -/
def rangeFree (b : Blk) (f first n : Nat) : Bool :=
  (List.range 64).all (fun g => g == f || !(rangesMeet first n (fnRange b g).1 (fnRange b g).2))

/-- The ring that a write of ERR_RING_BASE or ERR_RING_LOG2 would leave fits (R380). -/
def ringFits (b : Blk) (base log2 : Nat) : Bool :=
  base == 0 || (decide (base % 4096 = 0) && decide (base + 64 + 32 * 2 ^ log2 ≤ b.installed))

/-- A module port that another link has (R269). -/
def moduleTaken (b : Blk) (p v : Nat) : Bool :=
  (List.range 4).any (fun q => q ≠ p && b.moduleMap q &&& v ≠ 0)

/-- Every enabled pitch's metadata cache has been invalidated since reset or since it was last disabled (R235). -/
def mdcFresh (b : Blk) : Bool := (List.range b.pitchCount).all (fun p => (b.pitch p).mdc.fresh)

/-- Values that an object of area 0x2000 to 0x5FFF refuses (R158, R235, R237, R240, R259, R263). -/
def valueOkLow (b : Blk) (i s v : Nat) : Bool :=
  match i with
  | 0x2100 => decide (v < 2)
  | 0x4000 => v % 65536 == 0
  | 0x4010 =>
    match s with
    | 1 => v == 0 || mdcFresh b
    | 2 => v == 0 || b.xlat.desc.fresh
    | _ => v == 0 || b.xlat.fault.fresh
  | 0x4020 => s ≠ 2 || decide (1 ≤ v ∧ v ≤ 16)
  | 0x5000 => false
  | 0x5010 =>
    match s with
    | 0 => v % 64 == 0
    | 1 => decide (6 ≤ v ∧ v ≤ 12)
    | _ => true
  | 0x5100 => rangeFree b s v (fnRange b s).2
  | 0x5101 => (s == 0 || decide (v ≤ 63)) && rangeFree b s (fnRange b s).1 v
  | _ => true

/-- The same for the areas from 0x6000 (R269, R311, R344, R353, R381). -/
def valueOkHigh (b : Blk) (i s v : Nat) : Bool :=
  match i with
  | 0x6011 => !(moduleTaken b s (v % 4096))
  | 0x7020 => decide (v < 0x1000) || v == 0xFFFF
  | 0x7022 => decide (v < 16) || v == 0xFF
  | 0x8020 => s == 2 || decide (v < 3)
  | 0xF001 => v % 8 == 0
  | _ => true

/-- Fields that an object has: what a write puts in its reserved bits is ignored. -/
def valueMask (i s : Nat) : Nat :=
  match i with
  | 0x2010 => 0xFF
  | 0x6000 => 0x3F
  | 0x6011 => 0xFFF
  | 0x7001 => 0x3F
  | 0x7002 => 0x0F
  | 0x8020 => if s = 2 then 0x0F else 0xFF
  | _ => 2 ^ 64 - 1

/-- Objects whose WRITE has a row of its own. -/
def ownRow (r : Req) : Bool :=
  (isWriteTo Obj.fnDisable 64 r) || (isHostState 0 r) || (isHostState 2 r) || (isWriteTo Obj.d2dRetrain 4 r)
    || (isWriteTo Obj.d2dLinkReset 4 r) || (isWriteTo Obj.portRetrain 64 r) || (isWriteTo Obj.resetPort 64 r)
    || (isWriteTo Obj.routeLoad 1 r) || (isWriteTo Obj.mcastLoad 1 r) || (isWriteTo Obj.partLoad 16 r)
    || (isWriteTo Obj.resetWarm 1 r) || (isWriteTo Obj.bootRelease 1 r) || (isWriteTo Obj.alertStatus 1 r)
    || (isWriteTo Obj.counterClear 1 r) || (isWriteTo Obj.sketchClear 1 r) || (isWriteTo Obj.errLogClear 1 r)
    || (isWriteTo Obj.errRingBase 2 r) || (isWriteTo Obj.cacheInvalidate 1 r) || (isWriteTo Obj.peekData 1 r)
    || (isWriteTo Obj.eccInject 1 r)

/-- A new module map of a link that is down or has none (R269): it trains if it may, or has no modules (DEDUCED, log 49). -/
def mapChanged (p : Nat) (b : Blk) : Blk :=
  let l := b.link p
  if b.moduleMap p = 0 then b.setLink p {}
  else if l.state = .absent ∧ b.mg.released = true then startTrain p 2 false b
  else b

/-- The write of an RW or RWS object takes effect (R362). -/
def setNow (i s v : Nat) (b : Blk) : Blk :=
  let b := b.setObj (256 * i + s) (v &&& valueMask i s)
  match i with
  | 0x6000 => if s = 3 then shrinkFeatures (v &&& valueMask i s) b else b
  | 0x6011 => mapChanged s b
  | 0x7001 => portApply s b
  | _ => b

/-- What a WRITE of an object without an action does: an RWC value is accepted and waits (R18), any other takes effect. -/
def plainWrite (r : Req) : WriteAct := fun s v b =>
  let i := r.index
  if !(valueOkLow b i s v) || !(valueOkHigh b i s v) then .error .range
  else
    match objRow b i s with
    | none => .error .noObject
    | some row =>
      if row.acc = .rwc then .ok { b with mg := { b.mg with rwc := b.mg.rwc.set (256 * i + s) (v &&& valueMask i s) } }
      else .ok (setNow i s v b)

/-- The head of the request sack, where it is a WRITE that no other row executes, or a body of no known OP (R359, R362). -/
def plainHead (r : Req) : Bool := (r.op == 2 && !(ownRow r)) || !(decide (1 ≤ r.op ∧ r.op ≤ 3))

/-- REGISTER_WRITE (R362). -/
def effRegisterWrite (t : RegWrite) (b : Blk) : Blk :=
  match t with
  | .bar fn off bytes v => barWrite fn off bytes v b
  | .dict => runHead plainHead (fun r b => if r.op = 2 then runWrite (plainWrite r) r b else refuse r .malformed b) b

/-! ### Commit points -/

/-- Every queue of two ranges is UNBOUND (R240). -/
def rangesUnbound (b : Blk) (r s : Nat × Nat) : Bool :=
  (List.range 256).all (fun q => ((b.q q).st == .unbound && !(b.front.queueDie.any (fun e => e.1 = q)))
    || !((r.1 ≤ q && q < r.1 + r.2) || (s.1 ≤ q && q < s.1 + s.2)))

/-- Function `f`'s range in force, and what it would be with object `k` at `v`. -/
def curRange (b : Blk) (f : Nat) : Nat × Nat :=
  (b.obj (Obj.fnQueueFirst + f) 0, b.obj (Obj.fnQueueCount + f) (if f = 0 then 256 else 0))

def newRange (b : Blk) (f i v : Nat) : Nat × Nat :=
  let r := curRange b f
  if i = 0x5100 then (v, r.2) else if i = 0x5101 then (r.1, v) else r

/-- The commit point of a function object (R240): the ranges in force never overlap either. -/
def fnCommits (b : Blk) (f i v : Nat) : Bool :=
  let n := newRange b f i v
  rangesUnbound b (curRange b f) n
    && (List.range 64).all (fun g => g == f || !(rangesMeet n.1 n.2 (curRange b g).1 (curRange b g).2))

/-- What the block sees at a device virtual address without asking for it. -/
inductive Glance where
  | here (l : List Byte)
  /-- No segment maps it, or the context has no tables. -/
  | nothing
  /-- It lies on another die or in host memory. -/
  | elsewhere
  /-- It cannot be read now. -/
  | hidden
deriving DecidableEq, Repr

def glance (b : Blk) (c : Cls) (va n : Nat) : Glance :=
  match (translate .front (.fetch 0) c va false false b).2 with
  | .ok pa host _ _ _ => if !host && b.isSelf pa then .here (b.mem.bytes (paOff pa) n) else .elsewhere
  | .fault cause _ _ => if cause = 1 ∨ cause = 4 then .nothing else .hidden
  | _ => .hidden

/-- The bytes there are zero, as far as the block sees; memory that is not there holds nothing. -/
def glanceZero (b : Blk) (c : Cls) (va n : Nat) : Bool :=
  match glance b c va n with
  | .here l => le l == 0
  | .nothing => true
  | .elsewhere | .hidden => false

/-- A table's descriptor as the block sees it: in this die's memory, or in a descriptor buffer. -/
def glanceTable (b : Blk) (c : Cls) (table : Nat) : Glance :=
  match glance b c ((ctxHdr b c.ctx).tableDir + 256 * table) 256 with
  | .here l => .here l
  | .nothing => .nothing
  | g =>
    match b.gs.dbuf.find? (fun e => e.2.1 = c.ctx && e.2.2.1 = table) with
    | some e => .here (plain e.2.2.2)
    | none => g

/-- Every bucket of a table's arena on this die is zero (R159), and its log holds no record (R162). A table whose descriptor lies
elsewhere, and in no buffer, is none that this die accumulates for (R158; DEDUCED, log 57). -/
def tableEmpty (b : Blk) (c : Cls) (table : Nat) : Bool :=
  match glanceTable b c table with
  | .nothing | .elsewhere => true
  | .hidden => false
  | .here l =>
    let t : Captured := { table := table, bytes := l, slot := 0 }
    byteAt l 0 == 0
      || ((t.arenaBase == 0 || decide (30 < t.arenaLog2)
          || (List.range (2 ^ t.arenaLog2)).all (fun j => glanceZero b c (bucketAddr t j) (bucketBytes t.dim)))
        && (t.overBase == 0 || glanceZero b c (t.overBase + 16) 8))

/-- A context's accumulation quiescent point (R158). -/
def accumQuiet (b : Blk) (c : Nat) : Bool :=
  let busy (d : Desc) : Bool := (b.q d.q).ctx == c && (d.opcode == 0x20 || d.opcode == 0x22)
    && (d.stage == .handed || d.stage == .running)
  let cls : Cls := { ctx := c }
  !(b.front.descs.any busy)
    && b.gs.logs.all (fun e => e.1 / 4096 ≠ c || (e.2.block == 0 && e.2.size == 0))
    && !(b.gs.logq.any (fun r => r.ctx == c))
    && b.gs.slices.all (fun e => !(e.2.inbox.any (fun m => m.b.ctx == c)) && !(e.2.run.any (fun x => x.ctx == c)))
    && (List.range 4096).all (fun t => tableEmpty b cls t)

/-- No packet is queued for a sub-port (R370). -/
def portQuiet (b : Blk) (sp : Nat) : Bool := !(b.ridge.txq.any (fun k => k.port == some sp))

/-- No stride detector would begin a prefetch at the read it has seen last (R236, R370; DEDUCED, log 97). -/
def detectorsQuiet (b : Blk) : Bool :=
  b.front.queues.all (fun e => decide (e.2.det.seen < 3)) && b.pitches.all (fun e => e.2.det.all (fun d => decide (d.2.seen < 3)))

/-- The commit point of an RWC object has come, with the value that waits (R370). -/
def commits (b : Blk) (i s v : Nat) : Bool :=
  match i with
  | 0x2100 => accumQuiet b s
  | 0x4010 =>
    match s with
    | 1 => (List.range b.pitchCount).all (fun p => (b.pitch p).mdc.misses.isEmpty)
    | 2 => b.xlat.desc.misses.isEmpty
    | _ => b.xlat.fault.misses.isEmpty
  | 0x4020 => detectorsQuiet b
  | 0x5100 | 0x5101 | 0x5102 => fnCommits b s i v
  | 0x7002 => portQuiet b s
  | 0x8020 =>
    match s with
    | 0 => !b.pw.stretching
    | 1 => !b.pw.throttleAck
    | _ => true
  | 0x9100 | 0x9101 => passDue b
  | _ => true

/-- A cache that is disabled must be invalidated before it is enabled again (R235). -/
def cacheSet (s v : Nat) (b : Blk) : Blk :=
  if v = 1 then b
  else
    match s with
    | 1 => { b with pitches := b.pitches.map (fun e => (e.1, { e.2 with mdc := { e.2.mdc with fresh := false } })) }
    | 2 => { b with xlat := { b.xlat with desc := { b.xlat.desc with fresh := false } } }
    | _ => { b with xlat := { b.xlat with fault := { b.xlat.fault with fresh := false } } }

/-- The value that waits takes effect, and no longer waits. -/
def commitNow (i s v : Nat) (b : Blk) : Blk :=
  let b := b.setObj (256 * i + s) v
  let b : Blk := { b with mg := { b.mg with rwc := b.mg.rwc.del (256 * i + s) } }
  if i = 0x4010 then cacheSet s v b else b

/-- RWC_COMMIT (R370). PART_ID and CTX_PART commit with their slot (R311). -/
def effRwcCommit (i s : Nat) (b : Blk) : Blk :=
  match b.mg.rwc.find? (fun e => e.1 = 256 * i + s) with
  | none => b
  | some (_, v) =>
    if i = 0x7020 then effPartitionCommit s b
    else if i = 0x7022 then
      let old := b.obj (256 * i + s) 0xFF
      if v < 16 then effPartitionCommit v b else if old < 16 then effPartitionCommit old b else commitNow i s v b
    else if commits b i s v then commitNow i s v b
    else b

/-! ### Objects whose write is an action -/

/-- BOOT_RELEASE (R372): a HELD block is RELEASED, and its links and ports start. -/
def effBootRelease (b : Blk) : Blk :=
  onWrite Obj.bootRelease 1 (whenTrue (fun _ b =>
    if b.mg.released then b else startLinks { b with mg := { b.mg with released := true } })) b

/-- ALERT_STATUS_WRITE (R375): writing 1 to a bit clears it. -/
def effAlertStatusWrite (b : Blk) : Blk :=
  onWrite Obj.alertStatus 1 (fun _ v b =>
    .ok (b.setObj Obj.alertStatus (b.obj Obj.alertStatus 0 &&& ((2 ^ 32 - 1) ^^^ v)))) b

/-- COUNTER_CLEAR (R379): the counters of a group, or of all. -/
def effCounterClear (b : Blk) : Blk :=
  onWrite Obj.counterClear 1 (fun _ v b =>
    if v < 10 ∨ v = 0xFF then
      .ok { b with lan := { b.lan with cnt := b.lan.cnt.filter (fun e => decide (v < 10 ∧ (e.1 / 256 - 0x9800) / 0x20 ≠ v)) } }
    else .error .range) b

/-- SKETCH_CLEAR (R379). -/
def effSketchClear (b : Blk) : Blk :=
  onWrite Obj.sketchClear 1 (whenTrue (fun _ b =>
    { b with pitches := b.pitches.map (fun e => (e.1, { e.2 with sketch := [] })) })) b

/-- ERR_LOG_CLEAR (R380): the counts stand. -/
def effErrLogClear (b : Blk) : Blk :=
  onWrite Obj.errLogClear 1 (whenTrue (fun _ b => { b with err := { b.err with log := [] } })) b

/-- ERR_RING_RESTART (R380): an accepted write of ERR_RING_BASE (subindex 0) or ERR_RING_LOG2 (1). -/
def effErrRingRestart (b : Blk) : Blk :=
  onWrite Obj.errRingBase 2 (fun s v b =>
    let base := if s = 0 then v else b.obj Obj.errRingBase 0
    let log2 := if s = 1 then v else b.obj Obj.errRingLog2 6
    if (s = 1 ∧ ¬(6 ≤ v ∧ v ≤ 16)) ∨ ringFits b base log2 = false then .error .range
    else
      let b := (b.setObj (Obj.errRingBase + s) v).setObj Obj.errRingHead 0
      .ok (ringHeader { b with err := { b.err with ringWritten := 0, ringLost := 0 } })) b

/-- A whole metadata cache is invalidated, dirty data discarded; its pitch's dedup window and grid buffer empty too (R99, R121). -/
def mdcDiscard (x : Pitch) : Pitch := { x with mdc := { x.mdc with lines := [], fresh := true }, window := [], grid := [] }

/-- Invalidate the metadata caches of the enabled pitches. -/
def discardMdcs (b : Blk) : Blk :=
  (List.range b.pitchCount).foldl (fun b p => b.setPitch p (mdcDiscard (b.pitch p))) b

/-- CACHE_INVALIDATE (R235). -/
def effCacheInvalidate (b : Blk) : Blk :=
  onWrite Obj.cacheInvalidate 1 (fun _ v b =>
    let b := if v.testBit 0 then discardMdcs b else b
    let b : Blk := if v.testBit 1 then { b with xlat := { b.xlat with desc := { b.xlat.desc with lines := [], fresh := true } } } else b
    let b : Blk := if v.testBit 2 then { b with xlat := { b.xlat with fault := { b.xlat.fault with lines := [], fresh := true } } } else b
    .ok b) b

/-- The diagnostic objects are enabled (R381). -/
def diagOn (b : Blk) : Bool := b.obj Obj.diagEnable 0 == 1

/-- PEEK_DATA_READ (R381): 8 bytes at PEEK_ADDR through the groundsheet port; past installed memory the port answers zeros and
makes its record (R210). -/
def effPeekDataRead (b : Blk) : Blk :=
  runHead (fun r => r.op == 1 && r.key == Obj.peekData) (fun r b =>
    match checkReq b r with
    | .error st => refuse r st b
    | .ok row =>
      if diagOn b then
        let g := gsRead none (b.obj Obj.peekAddr 0) 8 b
        finishReq r (respBody b r .ok r.index r.sub row.ty 0 (plain g.2)) g.1
      else refuse r .access b) b

/-- PEEK_DATA_WRITE (R381). -/
def effPeekDataWrite (b : Blk) : Blk :=
  onWrite Obj.peekData 1 (fun _ v b =>
    if diagOn b then .ok (gsWriteB (b.obj Obj.peekAddr 0) (toLe 8 v) b) else .error .access) b

/-- ECC_INJECT (R381): the next write to an entry of the structure takes the error. -/
def effEccInject (b : Blk) : Blk :=
  onWrite Obj.eccInject 1 (fun _ v b =>
    let st := v % 16
    let k := v / 16
    if diagOn b = false then .error .access
    else if 1 ≤ st ∧ st ≤ 6 ∧ (k = 1 ∨ k = 2) then
      .ok { b with err := { b.err with inject := b.err.inject.filter (fun e => e.1 ≠ st) ++ [(st, k)] } }
    else .error .range) b

/-- A BAR0 write names a function that exists and a power-of-two width. -/
def regWriteOk (t : RegWrite) : Bool :=
  match t with
  | .bar fn off bytes _ => decide (fn < 64 ∧ off < 2 ^ 22 ∧ (bytes = 1 ∨ bytes = 2 ∨ bytes = 4 ∨ bytes = 8))
  | .dict => true

def execRegisterWrite (t : RegWrite) (s : State) : Host.Outcome State Fault Refusal :=
  fireReady (regWriteOk t) (effRegisterWrite t) s
def execRwcCommit (index sub : Nat) (s : State) : Host.Outcome State Fault Refusal :=
  fireReady (index < 65536 && sub < 256) (effRwcCommit index sub) s
def execBootRelease (s : State) : Host.Outcome State Fault Refusal := fireReady true effBootRelease s
def execAlertStatusWrite (s : State) : Host.Outcome State Fault Refusal := fireReady true effAlertStatusWrite s
def execCounterClear (s : State) : Host.Outcome State Fault Refusal := fireReady true effCounterClear s
def execSketchClear (s : State) : Host.Outcome State Fault Refusal := fireReady true effSketchClear s
def execErrLogClear (s : State) : Host.Outcome State Fault Refusal := fireReady true effErrLogClear s
def execErrRingRestart (s : State) : Host.Outcome State Fault Refusal := fireReady true effErrRingRestart s
def execCacheInvalidate (s : State) : Host.Outcome State Fault Refusal := fireReady true effCacheInvalidate s
def execPeekDataRead (s : State) : Host.Outcome State Fault Refusal := fireReady true effPeekDataRead s
def execPeekDataWrite (s : State) : Host.Outcome State Fault Refusal := fireReady true effPeekDataWrite s
def execEccInject (s : State) : Host.Outcome State Fault Refusal := fireReady true effEccInject s

end Sys2Proof.Machine
end

