-- ==== Sys2Proof/Machine/Dispatch.lean ====
section
/-! DEFINITION. The meaning of every command, one arm per row of spec/opcode_table.json. -/
namespace Sys2Proof.Machine

def exec (i : Instr) (s : State) : Host.Outcome State Fault Refusal :=
  match i with
  | .doorbell fn q v => Sys2Proof.Machine.execDoorbell fn q v s
  | .qcfgWrite fn q v => Sys2Proof.Machine.execQcfgWrite fn q v s
  | .cqHeadWrite fn q v => Sys2Proof.Machine.execCqHeadWrite fn q v s
  | .start fn q => Sys2Proof.Machine.execStart fn q s
  | .stop fn q => Sys2Proof.Machine.execStop fn q s
  | .qreset fn q => Sys2Proof.Machine.execQreset fn q s
  | .unbind fn q => Sys2Proof.Machine.execUnbind fn q s
  | .registerWrite t => Sys2Proof.Machine.execRegisterWrite t s
  | .fetchBurst q => Sys2Proof.Machine.execFetchBurst q s
  | .slotCheck q => Sys2Proof.Machine.execSlotCheck q s
  | .repoll q => Sys2Proof.Machine.execRepoll q s
  | .stalledEarly q => Sys2Proof.Machine.execStalledEarly q s
  | .dispatch q => Sys2Proof.Machine.execDispatch q s
  | .completionWrite q => Sys2Proof.Machine.execCompletionWrite q s
  | .tailWordTimer q => Sys2Proof.Machine.execTailWordTimer q s
  | .nop q => Sys2Proof.Machine.execNop q s
  | .pegLocalWaitGe q => Sys2Proof.Machine.execPegLocalWaitGe q s
  | .pegLocalSet q => Sys2Proof.Machine.execPegLocalSet q s
  | .pegWaitPass q => Sys2Proof.Machine.execPegWaitPass q s
  | .pegGlobal q => Sys2Proof.Machine.execPegGlobal q s
  | .periodManual q => Sys2Proof.Machine.execPeriodManual q s
  | .periodAuto q => Sys2Proof.Machine.execPeriodAuto q s
  | .periodStop q => Sys2Proof.Machine.execPeriodStop q s
  | .periodAutoOpen st => Sys2Proof.Machine.execPeriodAutoOpen st s
  | .deadline st => Sys2Proof.Machine.execDeadline st s
  | .kindle q => Sys2Proof.Machine.execKindle q s
  | .kindleLeadEnd q => Sys2Proof.Machine.execKindleLeadEnd q s
  | .heavyRequestEnd => Sys2Proof.Machine.execHeavyRequestEnd s
  | .rearm q => Sys2Proof.Machine.execRearm q s
  | .cancel q => Sys2Proof.Machine.execCancel q s
  | .cancelMarker q => Sys2Proof.Machine.execCancelMarker q s
  | .maintClean q => Sys2Proof.Machine.execMaintClean q s
  | .maintInvalidate q => Sys2Proof.Machine.execMaintInvalidate q s
  | .maintCleanInvalidate q => Sys2Proof.Machine.execMaintCleanInvalidate q s
  | .lookup q => Sys2Proof.Machine.execLookup q s
  | .indexParse p => Sys2Proof.Machine.execIndexParse p s
  | .fragReq => Sys2Proof.Machine.execFragReq s
  | .sectorReturn p => Sys2Proof.Machine.execSectorReturn p s
  | .partialIn => Sys2Proof.Machine.execPartialIn s
  | .bagCommit uid => Sys2Proof.Machine.execBagCommit uid s
  | .lattice q => Sys2Proof.Machine.execLattice q s
  | .gridBufferLoad p => Sys2Proof.Machine.execGridBufferLoad p s
  | .latticePoint p => Sys2Proof.Machine.execLatticePoint p s
  | .arrayRun q => Sys2Proof.Machine.execArrayRun q s
  | .interact q => Sys2Proof.Machine.execInteract q s
  | .arrayPass p => Sys2Proof.Machine.execArrayPass p s
  | .shadowFill p => Sys2Proof.Machine.execShadowFill p s
  | .unitCommit uid => Sys2Proof.Machine.execUnitCommit uid s
  | .scatter q => Sys2Proof.Machine.execScatter q s
  | .scatterOccurrence p => Sys2Proof.Machine.execScatterOccurrence p s
  | .contrib => Sys2Proof.Machine.execContrib s
  | .contribPlace n => Sys2Proof.Machine.execContribPlace n s
  | .overflowAppend => Sys2Proof.Machine.execOverflowAppend s
  | .runBufferTimer n => Sys2Proof.Machine.execRunBufferTimer n s
  | .ackTimer n => Sys2Proof.Machine.execAckTimer n s
  | .gradAck => Sys2Proof.Machine.execGradAck s
  | .step q => Sys2Proof.Machine.execStep q s
  | .phaseOne id => Sys2Proof.Machine.execPhaseOne id s
  | .phaseOneEnd id => Sys2Proof.Machine.execPhaseOneEnd id s
  | .phaseTwo id => Sys2Proof.Machine.execPhaseTwo id s
  | .precond q => Sys2Proof.Machine.execPrecond q s
  | .refreshMarked q => Sys2Proof.Machine.execRefreshMarked q s
  | .refreshList q => Sys2Proof.Machine.execRefreshList q s
  | .refresh => Sys2Proof.Machine.execRefresh s
  | .refreshAck => Sys2Proof.Machine.execRefreshAck s
  | .refreshAckTimer => Sys2Proof.Machine.execRefreshAckTimer s
  | .tableSwap q => Sys2Proof.Machine.execTableSwap q s
  | .slotRetired id => Sys2Proof.Machine.execSlotRetired id s
  | .copy q => Sys2Proof.Machine.execCopy q s
  | .copyTile id => Sys2Proof.Machine.execCopyTile id s
  | .biasFlip q => Sys2Proof.Machine.execBiasFlip q s
  | .biasFlipGranule id => Sys2Proof.Machine.execBiasFlipGranule id s
  | .tileCommit uid => Sys2Proof.Machine.execTileCommit uid s
  | .faultBatchTimer => Sys2Proof.Machine.execFaultBatchTimer s
  | .faultHeadWrite fn die ctx v => Sys2Proof.Machine.execFaultHeadWrite fn die ctx v s
  | .resume fn v => Sys2Proof.Machine.execResume fn v s
  | .resumeAbort fn v => Sys2Proof.Machine.execResumeAbort fn v s
  | .invalidateGranule fn v => Sys2Proof.Machine.execInvalidateGranule fn v s
  | .invalidateSegment fn v => Sys2Proof.Machine.execInvalidateSegment fn v s
  | .invalidateContext fn v => Sys2Proof.Machine.execInvalidateContext fn v s
  | .invalidateAll fn v => Sys2Proof.Machine.execInvalidateAll fn v s
  | .invalidationDone => Sys2Proof.Machine.execInvalidationDone s
  | .mdcFill p => Sys2Proof.Machine.execMdcFill p s
  | .hintTake => Sys2Proof.Machine.execHintTake s
  | .hintDecline => Sys2Proof.Machine.execHintDecline s
  | .prefetch r => Sys2Proof.Machine.execPrefetch r s
  | .gsWdone tag => Sys2Proof.Machine.execGsWdone tag s
  | .hostMemAccess peer write caching off len data => Sys2Proof.Machine.execHostMemAccess peer write caching off len data s
  | .hostSnoop addr => Sys2Proof.Machine.execHostSnoop addr s
  | .bisnpResponse line data => Sys2Proof.Machine.execBisnpResponse line data s
  | .bivouacBaseWrite v => Sys2Proof.Machine.execBivouacBaseWrite v s
  | .bivouacWindowAccess write off len data => Sys2Proof.Machine.execBivouacWindowAccess write off len data s
  | .hostLinkDown => Sys2Proof.Machine.execHostLinkDown s
  | .linkRetrained => Sys2Proof.Machine.execLinkRetrained s
  | .hostLost byFirmware inReplay => Sys2Proof.Machine.execHostLost byFirmware inReplay s
  | .hostReattached => Sys2Proof.Machine.execHostReattached s
  | .flr fn => Sys2Proof.Machine.execFlr fn s
  | .vfEnable on => Sys2Proof.Machine.execVfEnable on s
  | .busMaster fn on => Sys2Proof.Machine.execBusMaster fn on s
  | .fnDisable => Sys2Proof.Machine.execFnDisable s
  | .graceExpiry fn => Sys2Proof.Machine.execGraceExpiry fn s
  | .functionDrained fn => Sys2Proof.Machine.execFunctionDrained fn s
  | .d2dFlit p bytes => Sys2Proof.Machine.execD2dFlit p bytes s
  | .d2dHalfFail port high => Sys2Proof.Machine.execD2dHalfFail port high s
  | .retrain p => Sys2Proof.Machine.execRetrain p s
  | .linkReset p => Sys2Proof.Machine.execLinkReset p s
  | .proposal p attempt halves => Sys2Proof.Machine.execProposal p attempt halves s
  | .result p attempt halves => Sys2Proof.Machine.execResult p attempt halves s
  | .holdDown p cause => Sys2Proof.Machine.execHoldDown p cause s
  | .trainingAttemptEnd p halves => Sys2Proof.Machine.execTrainingAttemptEnd p halves s
  | .trainingTimeout p => Sys2Proof.Machine.execTrainingTimeout p s
  | .cap p bytes => Sys2Proof.Machine.execCap p bytes s
  | .d2dRetrain => Sys2Proof.Machine.execD2dRetrain s
  | .d2dLinkReset => Sys2Proof.Machine.execD2dLinkReset s
  | .fwdWrite => Sys2Proof.Machine.execFwdWrite s
  | .fwdRead => Sys2Proof.Machine.execFwdRead s
  | .fwdData => Sys2Proof.Machine.execFwdData s
  | .fwdReport => Sys2Proof.Machine.execFwdReport s
  | .dict => Sys2Proof.Machine.execDict s
  | .dictForwardTimeout => Sys2Proof.Machine.execDictForwardTimeout s
  | .memRead => Sys2Proof.Machine.execMemRead s
  | .memWrite => Sys2Proof.Machine.execMemWrite s
  | .memData => Sys2Proof.Machine.execMemData s
  | .memDone => Sys2Proof.Machine.execMemDone s
  | .ridgeFlit sp bytes marked => Sys2Proof.Machine.execRidgeFlit sp bytes marked s
  | .packetRoute => Sys2Proof.Machine.execPacketRoute s
  | .unreach => Sys2Proof.Machine.execUnreach s
  | .echo => Sys2Proof.Machine.execEcho s
  | .echoReply => Sys2Proof.Machine.execEchoReply s
  | .reachIdleExpiry chip => Sys2Proof.Machine.execReachIdleExpiry chip s
  | .reachWaitExpiry chip => Sys2Proof.Machine.execReachWaitExpiry chip s
  | .declaredEcho chip => Sys2Proof.Machine.execDeclaredEcho chip s
  | .laneLock sp => Sys2Proof.Machine.execLaneLock sp s
  | .neg sp bytes => Sys2Proof.Machine.execNeg sp bytes s
  | .portTrainingEnd sp ok => Sys2Proof.Machine.execPortTrainingEnd sp ok s
  | .laneFail lane => Sys2Proof.Machine.execLaneFail lane s
  | .portRetrain => Sys2Proof.Machine.execPortRetrain s
  | .resetPort => Sys2Proof.Machine.execResetPort s
  | .routeLoad => Sys2Proof.Machine.execRouteLoad s
  | .routeLoadDone => Sys2Proof.Machine.execRouteLoadDone s
  | .mcastLoad => Sys2Proof.Machine.execMcastLoad s
  | .partLoad => Sys2Proof.Machine.execPartLoad s
  | .partitionCommit n => Sys2Proof.Machine.execPartitionCommit n s
  | .pegArrive => Sys2Proof.Machine.execPegArrive s
  | .pegResult => Sys2Proof.Machine.execPegResult s
  | .coldReset straps ident => Sys2Proof.Machine.execColdReset straps ident s
  | .rootLocked => Sys2Proof.Machine.execRootLocked s
  | .resetEnd => Sys2Proof.Machine.execResetEnd s
  | .ready => Sys2Proof.Machine.execReady s
  | .warmRstN level => Sys2Proof.Machine.execWarmRstN level s
  | .resetWarm => Sys2Proof.Machine.execResetWarm s
  | .warmResetTrigger lockLost => Sys2Proof.Machine.execWarmResetTrigger lockLost s
  | .warmResetRestart => Sys2Proof.Machine.execWarmResetRestart s
  | .droopWarnRise => Sys2Proof.Machine.execDroopWarnRise s
  | .droopWarnFall => Sys2Proof.Machine.execDroopWarnFall s
  | .stretchRelease => Sys2Proof.Machine.execStretchRelease s
  | .freqReqRise => Sys2Proof.Machine.execFreqReqRise s
  | .freqHoldEnd => Sys2Proof.Machine.execFreqHoldEnd s
  | .freqReqFall => Sys2Proof.Machine.execFreqReqFall s
  | .throttleReqRise => Sys2Proof.Machine.execThrottleReqRise s
  | .throttleReqFall => Sys2Proof.Machine.execThrottleReqFall s
  | .rampStart p => Sys2Proof.Machine.execRampStart p s
  | .rampStep p => Sys2Proof.Machine.execRampStep p s
  | .energyPass => Sys2Proof.Machine.execEnergyPass s
  | .coreKhzWindow => Sys2Proof.Machine.execCoreKhzWindow s
  | .setdasa static dyn => Sys2Proof.Machine.execSetdasa static dyn s
  | .entdaa dyn => Sys2Proof.Machine.execEntdaa dyn s
  | .i3cPrivateRead addr => Sys2Proof.Machine.execI3cPrivateRead addr s
  | .setEndpointId bi eid => Sys2Proof.Machine.execSetEndpointId bi eid s
  | .getEndpointId bi => Sys2Proof.Machine.execGetEndpointId bi s
  | .getMctpVersionSupport bi => Sys2Proof.Machine.execGetMctpVersionSupport bi s
  | .getMessageTypeSupport bi => Sys2Proof.Machine.execGetMessageTypeSupport bi s
  | .getVendorDefinedMessageSupport bi => Sys2Proof.Machine.execGetVendorDefinedMessageSupport bi s
  | .relrokMessage bi eid fn ok bytes => Sys2Proof.Machine.execRelrokMessage bi eid fn ok bytes s
  | .read => Sys2Proof.Machine.execRead s
  | .discover => Sys2Proof.Machine.execDiscover s
  | .rwcCommit index sub => Sys2Proof.Machine.execRwcCommit index sub s
  | .bootRelease => Sys2Proof.Machine.execBootRelease s
  | .alertStatusWrite => Sys2Proof.Machine.execAlertStatusWrite s
  | .counterClear => Sys2Proof.Machine.execCounterClear s
  | .sketchClear => Sys2Proof.Machine.execSketchClear s
  | .errLogClear => Sys2Proof.Machine.execErrLogClear s
  | .errRingRestart => Sys2Proof.Machine.execErrRingRestart s
  | .cacheInvalidate => Sys2Proof.Machine.execCacheInvalidate s
  | .peekDataRead => Sys2Proof.Machine.execPeekDataRead s
  | .peekDataWrite => Sys2Proof.Machine.execPeekDataWrite s
  | .eccInject => Sys2Proof.Machine.execEccInject s
  | .sackMismatch sack => Sys2Proof.Machine.execSackMismatch sack s
  | .errorRecordCopy => Sys2Proof.Machine.execErrorRecordCopy s
  | .coldResetAssert => Sys2Proof.Machine.execColdResetAssert s
  | .hostLinkActive => Sys2Proof.Machine.execHostLinkActive s

end Sys2Proof.Machine
end

