-- ==== Sys2Proof/Machine/Tick.lean ====
section
/-! DEFINITION. One cycle of CK_ROOT, which is what a step is when no command waits (DESIGN CHOICE, log 12): the clocks of R329 and R330, and the
counters kept per cycle, the fault batch that falls due (R215), the rechecks that waited for memory (R218), and the chips from
which nothing is awaited any more (R315). Whatever else time
brings about has a command of its own. -/
namespace Sys2Proof.Machine

/-- The pitch edge of this CK_CORE cycle is delivered (R343, R344). -/
def delivered (b : Blk) (core : Nat) : Bool :=
  !b.pw.stretching || (match b.obj Obj.stretchMode 0 with
    | 0 => core % 2 == 0
    | 1 => core % 4 == 0
    | _ => core % 4 != 3)

/-- The sub-port on which an eligible packet waits for credits (R308, R328). -/
def stallPort (b : Blk) (k : RPkt) : Option Nat :=
  let short (sp : Nat) : Option Nat := if k.units ≤ freeCredits b sp k.h then none else some sp
  match k.port with
  | some sp => if (b.port_ sp).state = .up then short sp else none
  | none =>
    let cand := (entryPorts (b.ridge.route.get routeReset (k.h.dst % 16384))).filter (fun s =>
      (b.port_ s).state == .up && !(k.h.vc == 3 && (b.port_ s).revision == 2))
    match routeOf b k, (if k.h.vc < 3 then mostFree b k.h cand else cand.head?) with
    | .wait, some sp => short sp
    | _, _ => none

/-- Sub-ports with such a packet, each once. -/
def stalledPorts (b : Blk) : List Nat := (b.ridge.txq.filterMap (stallPort b)).eraseDups

/-- A CK_CORE cycle of a block past reset: the counters of R328 and R354. -/
def coreCycle (b : Blk) : Blk :=
  let one (c : Nat) (on : Bool) (b : Blk) : Blk := if on then bump c 0 1 b else b
  let b' := one Ctr.pwStretchCycles b.pw.stretching (one Ctr.pwFreqHeldCycles b.pw.freqHeld
    (one Ctr.pwThrottleCycles b.pw.throttleAck (one Ctr.pwHeavyCycles b.pw.heavyAhead b)))
  (stalledPorts b).foldl (fun x sp => bump Ctr.rgCreditStall sp 1 x) b'

/-- Contexts with a parked unit: parked on a fault, or a record or message that waits on a full log (R163, R220). -/
def parkedCtxs (b : Blk) : List Nat :=
  (b.xlat.parked.map (·.ctx) ++ (b.gs.logq.filter (fun r => (b.log r.ctx r.table).full)).map (·.ctx)).eraseDups

/-- A CK_HALF cycle: contexts with a parked unit (R237). -/
def halfCycle (b : Blk) : Blk := (parkedCtxs b).foldl (fun x c => bump Ctr.ftParkCycles c 1 x) b

/-- A CK_D2D cycle: links on which a packet waits for credits (R280). -/
def d2dCycle (b : Blk) : Blk :=
  ((List.range 4).filter (fun p => b.linkUp p && (b.link p).wait.any (fun k =>
    decide ((b.link p).credits.getD k.vc 0 < k.units)))).foldl (fun x p => bump Ctr.ddCreditStall p 1 x) b

/-- The dividers run from t2 on (R335). -/
def dividing (b : Blk) : Bool :=
  match b.pw.phase with
  | .dividers | .initialise | .ready => true
  | .cold | .lock | .warm => false

/-- The divided clocks after one more root cycle (R329); the boundary clocks tick where they will (DESIGN CHOICE, log 6). -/
def nextClocks (b : Blk) : Clocks :=
  let k := b.clk
  let r := k.root + 1
  let run := dividing b
  let e (n : Nat) : Nat := if run ∧ r % n = 0 then 1 else 0
  let core := k.core + e 4
  { root := if run then r else k.root
    core := core
    half := k.half + e 8
    qtr := k.qtr + e 16
    mgmt := k.mgmt + e 72
    pitch := k.pitch + (if e 4 = 1 ∧ delivered b core = true then 1 else 0)
    aon := k.aon + boolNat (Config.aonEdge b.stamp)
    gs := k.gs + boolNat (Config.gsEdge b.stamp)
    d2d := k.d2d + boolNat (Config.d2dEdge b.stamp) }

/-- The clocks after one cycle of CK_ROOT, and the counts kept per cycle of a divided clock. -/
def counted (b : Blk) : Blk :=
  let k := nextClocks b
  let c : Blk := { b with clk := k, stamp := b.stamp + 1 }
  let c := if afterReset b ∧ k.core ≠ b.clk.core then coreCycle c else c
  let c := if afterReset b ∧ k.half ≠ b.clk.half then halfCycle c else c
  if afterReset b ∧ k.d2d ≠ b.clk.d2d then d2dCycle c else c

/-- One cycle of CK_ROOT. While COLD_RST_N is low nothing runs. -/
def tick (b : Blk) : Blk :=
  match b.pw.phase with
  | .cold => b
  | .ready => pruneReach (effFaultBatchTimer (recheckAgain (counted b)))
  | _ => counted b

end Sys2Proof.Machine
end

