-- ==== Sys2Proof/WellFormed.lean ====
section
/-! DEFINITION. The commands whose operands name something of this hardware: a function of 64 (R240), a queue of 256 (R26), a context of
64, a pitch of 32 (R2), a slice slot of 64, a stream of 8, a die of 4, a sub-port of 64 (R294), a flit of 256 bytes (R273, R300). No other
command can come. -/
namespace Sys2Proof

/-- A function and one of its queues. -/
def okFnQ (fn q : Nat) : Bool := decide (fn < 64 ∧ q < 256)
/-- A flit from one of `n` partners. -/
def okFlit (n k : Nat) (bytes : List Byte) : Bool := decide (k < n) && bytes.length == 256
/-- A vector of halves of up to 12 modules (R285). -/
def okHalves (p attempt halves : Nat) : Bool := decide (p < 4 ∧ attempt < 4 ∧ halves < 2 ^ 24)
/-- An access of up to 4,096 bytes below a bound. -/
def okAccess (bound off len : Nat) (data : List Byte) : Bool := decide (off < bound ∧ len ≤ 4096 ∧ data.length ≤ 4096)
/-- A write of the INVALIDATE register with this OP (R211). -/
def okInv (op fn : Nat) (v : W64) : Bool := decide (fn < 64 ∧ v.toNat % 16 = op)
/-- A write to BAR0 (R241). -/
def okReg : RegWrite → Bool
  | .bar fn off bytes _ => decide (fn < 64 ∧ off < 2 ^ 22 ∧ (bytes = 1 ∨ bytes = 2 ∨ bytes = 4 ∨ bytes = 8))
  | .dict => true
/-- A sack whose owner every build has (R387). -/
def okSack : SackId → Bool
  | .fetch q => decide (q < 256)
  | .internal p => decide (p < 32)
  | .read _ | .port | .error | .fault | .trace => true
/-- Straps and IDENT inputs of the widths of R371 and R397. -/
def okPins (st : Straps) (id : Ident) : Bool :=
  decide (st.i3cAddr < 128 ∧ st.pitchLimit < 4 ∧ id.chip < 16384 ∧ id.die < 4 ∧ id.serial < 2 ^ 64 ∧ id.licensee < 2 ^ 32)

/-- The command's operands are in range. -/
def WellFormed : Instr → Bool
  | .doorbell fn q _ | .qcfgWrite fn q _ | .cqHeadWrite fn q _ | .start fn q | .stop fn q | .qreset fn q | .unbind fn q => okFnQ fn q
  | .registerWrite t => okReg t
  | .fetchBurst q | .slotCheck q | .repoll q | .stalledEarly q | .dispatch q | .completionWrite q | .tailWordTimer q
    | .nop q | .pegLocalWaitGe q | .pegLocalSet q | .pegWaitPass q | .pegGlobal q | .periodManual q | .periodAuto q
    | .periodStop q | .kindle q | .kindleLeadEnd q | .rearm q | .cancel q | .cancelMarker q | .maintClean q
    | .maintInvalidate q | .maintCleanInvalidate q | .lookup q | .lattice q | .arrayRun q | .interact q | .scatter q
    | .step q | .precond q | .refreshMarked q | .refreshList q | .tableSwap q | .copy q | .biasFlip q => decide (q < 256)
  | .periodAutoOpen st | .deadline st => decide (st < 8)
  | .heavyRequestEnd | .fragReq | .partialIn | .bagCommit _ | .unitCommit _ | .contrib | .overflowAppend | .gradAck
    | .phaseOne _ | .phaseOneEnd _ | .phaseTwo _ | .refresh | .refreshAck | .refreshAckTimer | .slotRetired _
    | .copyTile _ | .biasFlipGranule _ | .tileCommit _ | .faultBatchTimer | .invalidationDone | .hintTake | .hintDecline
    | .prefetch _ | .bivouacBaseWrite _ | .hostLinkDown | .linkRetrained | .hostReattached | .vfEnable _ | .fnDisable
    | .d2dRetrain | .d2dLinkReset | .fwdWrite | .fwdRead | .fwdData | .fwdReport | .dict | .dictForwardTimeout
    | .memRead | .memWrite | .memData | .memDone | .packetRoute | .unreach | .echo | .echoReply | .portRetrain
    | .resetPort | .routeLoad | .routeLoadDone | .mcastLoad | .partLoad | .pegArrive | .pegResult | .rootLocked
    | .resetEnd | .ready | .warmRstN _ | .resetWarm | .warmResetTrigger _ | .warmResetRestart | .droopWarnRise
    | .droopWarnFall | .stretchRelease | .freqReqRise | .freqHoldEnd | .freqReqFall | .throttleReqRise
    | .throttleReqFall | .energyPass | .coreKhzWindow | .getEndpointId _ | .getMctpVersionSupport _
    | .getMessageTypeSupport _ | .getVendorDefinedMessageSupport _ | .read | .discover | .bootRelease
    | .alertStatusWrite | .counterClear | .sketchClear | .errLogClear | .errRingRestart | .cacheInvalidate
    | .peekDataRead | .peekDataWrite | .eccInject | .errorRecordCopy | .coldResetAssert | .hostLinkActive => true
  | .indexParse p | .sectorReturn p | .gridBufferLoad p | .latticePoint p | .arrayPass p | .shadowFill p
    | .scatterOccurrence p | .mdcFill p | .rampStart p | .rampStep p => decide (p < 32)
  | .contribPlace n | .runBufferTimer n | .ackTimer n => decide (n < 64)
  | .faultHeadWrite fn die ctx _ => decide (fn < 64 ∧ die < 4 ∧ ctx < 64)
  | .resume fn v => decide (fn < 64) && !v.toNat.testBit 8
  | .resumeAbort fn v => decide (fn < 64) && v.toNat.testBit 8
  | .invalidateGranule fn v => okInv 1 fn v
  | .invalidateSegment fn v => okInv 2 fn v
  | .invalidateContext fn v => okInv 3 fn v
  | .invalidateAll fn v => okInv 4 fn v
  | .gsWdone tag => decide (tag < 65536)
  | .hostMemAccess _ _ _ off len data => okAccess (2 ^ 43) off len data
  | .hostSnoop addr => decide (addr < 2 ^ 52)
  | .bisnpResponse line data => decide (line < 2 ^ 35) && (data.length == 0 || data.length == 64)
  | .bivouacWindowAccess _ off len data => okAccess (2 ^ 32) off len data
  | .hostLost _ inReplay => decide (inReplay < 65536)
  | .flr fn | .busMaster fn _ | .graceExpiry fn | .functionDrained fn => decide (fn < 64)
  | .d2dFlit p bytes | .cap p bytes => okFlit 4 p bytes
  | .d2dHalfFail port _ => decide (port < 12)
  | .retrain p | .linkReset p | .trainingTimeout p => decide (p < 4)
  | .proposal p attempt halves | .result p attempt halves => okHalves p attempt halves
  | .holdDown p cause => decide (p < 4 ∧ cause < 256)
  | .trainingAttemptEnd p halves => okHalves p 0 halves
  | .ridgeFlit sp bytes _ | .neg sp bytes => okFlit 64 sp bytes
  | .reachIdleExpiry chip | .reachWaitExpiry chip | .declaredEcho chip => decide (chip < 16384)
  | .laneLock sp | .portTrainingEnd sp _ => decide (sp < 64)
  | .laneFail lane => decide (lane < 256)
  | .partitionCommit n => decide (n < 16)
  | .coldReset straps ident => okPins straps ident
  | .setdasa static dyn => decide (static < 128 ∧ dyn < 128)
  | .entdaa dyn => decide (dyn < 128)
  | .i3cPrivateRead addr => decide (addr < 128)
  | .setEndpointId _ eid => decide (eid < 256)
  | .relrokMessage _ eid fn _ _ => decide (eid < 256 ∧ fn < 64)
  | .rwcCommit index sub => decide (index < 65536 ∧ sub < 256)
  | .sackMismatch sack => okSack sack

end Sys2Proof
end

