-- ==== Sys2Proof/Safety.lean ====
section
/-! DEFINITION. What the statements say of a run: a live block, how a command completes, and the invariant that every step keeps. -/
namespace Sys2Proof.Machine

/-- The block is past READY (R335). -/
def Live (s : State) : Prop := s.b.pw.phase = .ready

/-- The state after a command whose effect leaves the block as `b`: what follows from every event follows (`Blk.settle`), and the queue of
commands is as it was. -/
def State.after (s : State) (b : Blk) : State := { s with b := b.settle }

/-- A write of function `fn` to the page of queue `q` reaches this die: the host reaches the die, the function owns the queue (R240, R241) and is not
disabled (R265, R267), and no other die serves it (R26, R270). -/
def Served (s : State) (fn q : Nat) : Prop :=
  Live s ∧ fn < 64 ∧ q < 256 ∧ hostReaches s.b = true ∧ owns s.b fn q = true ∧ fnDisabled s.b fn = false ∧
    s.b.front.queueDie.find? (fun e => e.1 = q) = none

/-- The head of the request sack is a WRITE of one of `n` subindices from key `k` (256 times the index, plus the subindex) that this die executes and
that passes every check but its object's own (R359 to R366). -/
def Written (b : Blk) (k n : Nat) (r : Req) : Prop :=
  headReq b = some r ∧ isWriteTo k n r = true ∧ execHere b r = true ∧ ∃ row, checkReq b r = .ok row

/-- The block after the head request has been answered OK, without data; PENDING is set where its object has an accepted value that waits (R367). -/
def Blk.answered (b : Blk) (r : Req) : Blk :=
  finishReq r (respBody b r .ok r.index r.sub (typeOf b r.index r.sub) (boolNat (b.mg.rwc.any (fun e => e.1 = r.key))) []) b

/-- A queue that a STOP brings down, or that re-attaches, and that has nothing in flight does not stand: it is STOPPED (R407, R263). -/
def QueueSettled (descs : List Desc) (n : Nat) (x : Queue) : Prop :=
  descs.any (fun d => d.q = n) = true
    ∨ (¬(x.stopping = true ∧ (x.st = .running ∨ x.st = .stalledEarly)) ∧ ¬(x.reattach = true ∧ x.st = .detached))

/-- What holds of the block after every step: both memories are in canonical form, ALERT_N and HEAVY_AHEAD stand at the levels of R376 and
R348, and no queue waits for a STOPPED that is due. -/
structure Blk.Settled (b : Blk) : Prop where
  mem : b.mem.wf = true
  hostMem : b.hostMem.wf = true
  alertN : b.pw.alertN = true ↔ (b.obj Obj.alertStatus 0 &&& b.obj Obj.alertMask 0xFF) = 0
  heavyAhead : b.pw.heavyAhead = true ↔ b.pw.phase = .ready ∧ (heavyNow b &&& b.obj Obj.kindleMask 0x0F) ≠ 0
  queues : ∀ e ∈ b.front.queues, QueueSettled b.front.descs e.1 e.2

/-- The invariant. -/
def Inv (s : State) : Prop := s.b.Settled

/-- The commands that a block meets outside READY: the reset inputs and sequences (R334 to R337), and the power inputs and clocks of R338. -/
def MetInReset : Instr → Bool
  | .coldReset .. | .coldResetAssert | .rootLocked | .resetEnd | .ready | .warmRstN _ | .warmResetTrigger _ | .warmResetRestart
    | .droopWarnRise | .droopWarnFall | .stretchRelease | .freqReqRise | .freqHoldEnd | .freqReqFall | .throttleReqRise
    | .throttleReqFall | .rampStart _ | .rampStep _ | .energyPass | .coreKhzWindow => true
  | _ => false

/-! ### The values that a packet's fields admit -/

/-- The fields of the Ridge packet header within their widths (R301). -/
structure HdrFits (h : PktHdr) : Prop where
  ptype : h.ptype < 256
  vc : h.vc < 8
  sub : h.sub < 2
  len : h.len < 1024
  dst : h.dst < 65536
  src : h.src < 65536
  part : h.part < 4096
  hops : h.hops < 256
  dim : h.dim < 8
  stream : h.stream < 8

/-- A chip number and a die number within their fields. -/
abbrev ChipDieFits (chip die : Nat) : Prop := chip < 16384 ∧ die < 4

/-- The fields of a memory packet within their widths; a packet without data carries none (R276). -/
abbrev MemFits (withData : Bool) (b : MemB) : Prop :=
  b.addr < 2 ^ 64 ∧ b.bytes < 65536 ∧ b.tag < 65536 ∧ b.data.length = (if withData then b.bytes else 0)

/-- The fields of a forwarded register access within their widths (R277). -/
abbrev FwdFits (b : FwdB) : Prop := b.kind < 256 ∧ b.fn < 64 ∧ b.queue < 65536 ∧ b.off < 2 ^ 32

/-- Every field of a message body at a value that its width admits (R93, R94, R154, R166, R197, R276 to R278, R302, R314, R315, R321). -/
def MsgFits : Msg → Prop
  | .fragReq b => b.ctx < 64 ∧ b.slot < 4 ∧ b.stream < 256 ∧ b.table < 4096 ∧ b.frag < 65536 ∧ b.tag < 2 ^ 32 ∧
      ChipDieFits b.srcChip b.srcDie ∧ b.srcPitch < 32 ∧ b.rows.length < 256 ∧ (∀ r ∈ b.rows, r < 2 ^ 48) ∧
      b.weights.length = (if b.weighted then b.rows.length else 0)
  | .partialV b => b.status < 256 ∧ b.frag < 65536 ∧ b.tag < 2 ^ 32 ∧ ChipDieFits b.chip b.die ∧ b.vals.length < 65536 ∧
      (b.bf16 = true → ∀ v ∈ b.vals, v.toNat % 65536 = 0)
  | .contrib b => b.ctx < 64 ∧ b.width < 3 ∧ b.slot < 4 ∧ b.table < 4096 ∧ b.chunk < 16 ∧ b.row < 2 ^ 48 ∧ b.tag < 2 ^ 32 ∧
      b.occ < 2 ^ 32 ∧ ChipDieFits b.srcChip b.srcDie ∧ b.srcPitch < 32 ∧ b.elems.length < 256 ∧
      (∀ x ∈ b.elems, -(2 : Int) ^ (contribBits b.width - 1) ≤ x ∧ x < (2 : Int) ^ (contribBits b.width - 1))
  | .gradAck b => b.status < 256 ∧ b.msgs < 65536 ∧ b.tag < 2 ^ 32 ∧ b.occFrozen < 2 ^ 32 ∧ ChipDieFits b.chip b.die
  | .refresh b => b.ctx < 64 ∧ b.slot < 4 ∧ b.table < 4096 ∧ b.tag < 2 ^ 32 ∧ b.row < 2 ^ 48 ∧ ChipDieFits b.srcChip b.srcDie ∧
      b.data.length < 65536
  | .refreshAck tag rows _ => tag < 2 ^ 32 ∧ rows < 2 ^ 32
  | .pegArrive b => b.part < 4096 ∧ b.barrier < 16 ∧ b.reduce < 256 ∧ b.count < 256 ∧ b.vals.length = b.count ∧
      b.subtree < 65536 ∧ b.gen < 2 ^ 32 ∧ b.ctx < 2 ^ 32
  | .pegResult b => b.part < 4096 ∧ b.barrier < 16 ∧ b.status < 256 ∧ b.count < 256 ∧ b.rank < 65536 ∧ b.gen < 2 ^ 32 ∧
      b.ctx < 2 ^ 32 ∧ b.vals.length = (if b.status = 0 then b.count else 0)
  | .memRead b => MemFits false b
  | .memWrite b => MemFits true b
  | .memData b => MemFits true b
  | .memDone b => MemFits false b
  | .fwdWrite b => FwdFits b
  | .fwdRead b => FwdFits b
  | .fwdData b => FwdFits b
  | .fwdReport token => token < 65536
  | .dict b => b.msgId < 65536 ∧ b.seg < 256 ∧ b.data.length < 65536
  | .echo n => n < 2 ^ 32
  | .echoReply n => n < 2 ^ 32
  | .unreach h cause body => HdrFits h ∧ cause < 256 ∧ body.length = 32

end Sys2Proof.Machine
end

