-- ==== Sys2Proof/Certificates/Slice0/Obligations.lean ====
section
/-! DEFINITION. The statements for the provers. `s.after b` is the state after a command that leaves the block as `b` (Safety.lean), and `Live s`
says that the block is past READY. A statement about a command names the state in which it acts, and concludes with the next state that `exec`
answers; an effect that is a shared operation (completing a descriptor, answering a request, queueing a packet) stands under that operation's name,
and a statement of its own says what the operation does. -/
open Sys2Proof Sys2Proof.Machine

/-! ### The queue of commands, and every command -/

/-- A step takes the command at the front of the queue and runs it with the rest of the queue (DESIGN CHOICE, log 12). -/
def Obligations.StepRunsFrontCommand : Prop :=
  ∀ (c : Instr) (s : State), step { s with pending := c :: s.pending } = exec c s

/-- With no command waiting, a step is one cycle of CK_ROOT: the dividers count 4, 8, 16 and 72 root cycles from one common start (R329); then the
rechecks that waited for memory are made, a fault batch that is due is written, and chips from which nothing is awaited leave the set of R315. Where
no recheck is due and no fault record waits, nothing but the counts kept per cycle and that set changes (DESIGN CHOICE, log 12). -/
def Obligations.IdleStepIsOneRootCycle : Prop :=
  ∀ s : State, Live s → s.pending = [] →
    let c := counted s.b
    step s = .next (s.after (pruneReach (effFaultBatchTimer (recheckAgain c)))) ∧
    c.clk.root = s.b.clk.root + 1 ∧
    c.clk.core = s.b.clk.core + (if (s.b.clk.root + 1) % 4 = 0 then 1 else 0) ∧
    c.clk.half = s.b.clk.half + (if (s.b.clk.root + 1) % 8 = 0 then 1 else 0) ∧
    c.clk.qtr = s.b.clk.qtr + (if (s.b.clk.root + 1) % 16 = 0 then 1 else 0) ∧
    c.clk.mgmt = s.b.clk.mgmt + (if (s.b.clk.root + 1) % 72 = 0 then 1 else 0) ∧
    c = { s.b with clk := c.clk, stamp := s.b.stamp + 1, lan := c.lan } ∧
    (s.b.xlat.staging = [] → (∀ p ∈ s.b.xlat.parked, p.again = none) → ∃ t, step s = .next t ∧ t.pending = [] ∧ t.b.clk = c.clk ∧
      t.b.mem = s.b.mem.norm ∧ t.b.front.descs = s.b.front.descs ∧ t.b.xlat = s.b.xlat ∧ t.b.mg = s.b.mg ∧ t.b.port = s.b.port ∧
      t.b.d2d = s.b.d2d ∧ t.b.ridge = { s.b.ridge with reach := s.b.ridge.reach.filter (fun e => awaited c e.1) } ∧ t.b.host = s.b.host ∧
      t.b.out = s.b.out)

/-- A command answers a next state exactly when its operands name something of this hardware; otherwise it faults with `operand`. It never changes
the queue of commands, and it is never refused. -/
def Obligations.NextExactlyWhenOperandsExist : Prop :=
  ∀ (c : Instr) (s : State),
    (WellFormed c = true → ∃ t, exec c s = .next t ∧ t.pending = s.pending) ∧
    (WellFormed c = false → exec c s = .fault .operand)

/-- Outside READY no command acts but those of the reset sequences, the power inputs and the clocks (R334 to R338): every other one leaves the block
as it was, which in a state that meets the invariant is exactly the state before it. -/
def Obligations.NothingElseActsOutsideReady : Prop :=
  (∀ (c : Instr) (s : State), WellFormed c = true → MetInReset c = false → s.b.pw.phase ≠ .ready → exec c s = .next (s.after s.b)) ∧
  (∀ s : State, Inv s → s.after s.b = s)

/-- Every step keeps the invariant: memories in canonical form, ALERT_N low exactly while an unmasked cause stands (R376), HEAVY_AHEAD high exactly
while the heavy-phase request of READY asserts an unmasked class (R348), and no stopping or re-attaching queue with nothing in flight. -/
def Obligations.EveryStepKeepsInvariant : Prop := ∀ s t : State, Inv s → step s = .next t → Inv t

/-- The state after reset meets the invariant. -/
def Obligations.InvariantAtReset : Prop := Inv State.reset

/-- After reset: every queue is UNBOUND with the QCFG of R27's table (RING_LOG2 6, CQ_LOG2 6, STREAM 0xFF, WEIGHT 1, every other field 0), every
count and its epoch 0, nothing in flight; every peg counter is 0 (R49); the bivouac window does not decode and lies at 0 (R251); every granule of
the die is SHARED (R244); READY is high with ALERT_N high; and each port's first sub-port negotiates, the second being unused (R294, R372). -/
def Obligations.RegistersAtReset : Prop :=
  let b := State.reset.b
  (∀ n, (b.q n).st = .unbound ∧ (b.q n).ringLog2 = 6 ∧ (b.q n).cqLog2 = 6 ∧ (b.q n).ctx = 0 ∧ (b.q n).die = 0 ∧ (b.q n).stream = 0xFF ∧
    (b.q n).listLen = 0 ∧ (b.q n).persistent = false ∧ (b.q n).weight = 1 ∧ (b.q n).tail = 0 ∧ (b.q n).fetch = 0 ∧ (b.q n).epoch = 0 ∧
    (b.q n).phase = true ∧ b.inflight n = 0 ∧
    pageRead n 0x030 b = 0x10#64 ∧ pageRead n 0x040 b = 0) ∧
  (∀ c n, b.peg c n = 0) ∧ b.host.base = 0 ∧ b.host.en = false ∧ (∀ g, b.host.owned.get false g = false) ∧
  b.pw.readyPin = true ∧ b.pw.alertN = true ∧ b.pw.heavyAhead = false ∧ (∀ a, b.mem.byte a = Mem.unlisted) ∧
  (∀ p, p < 32 → (b.port_ (2 * p)).state = .training ∧ (b.port_ (2 * p + 1)).state = .disabled)

/-! ### Bytes and memory -/

/-- R7: bit 0 is the least significant, a field [hi:lo] takes both ends, bytes are numbered from the lowest address, and a field of several bytes is
little-endian. -/
def Obligations.FieldsAreLittleEndian : Prop :=
  (∀ v hi lo, lo ≤ hi → bitsOf v hi lo = (v >>> lo) % 2 ^ (hi - lo + 1)) ∧
  (∀ v n, (toLe n v).length = n ∧ le (toLe n v) = v % 256 ^ n) ∧
  (∀ (l : List Byte) off n, off + n ≤ l.length → field l off n = ((List.range n).map (fun i => byteAt l (off + i) * 256 ^ i)).sum)

/-- CHECK is the CRC-8 of R32's own program: most significant bit first, polynomial 0x2F, initial value 0xFF, and 0x20 over "123456789". -/
def Obligations.CheckIsCrc8OfR32 : Prop :=
  let step8 (crc : Nat) : Nat := if crc &&& 0x80 ≠ 0 then ((crc <<< 1) ^^^ 0x2F) &&& 0xFF else (crc <<< 1) &&& 0xFF
  (∀ l : List Byte, crc8 l = l.foldl (fun crc x => step8 (step8 (step8 (step8 (step8 (step8 (step8 (step8 (crc ^^^ x.toNat))))))))) 0xFF) ∧
  crc8 [0x31, 0x32, 0x33, 0x34, 0x35, 0x36, 0x37, 0x38, 0x39] = 0x20

/-- A memory reads as it was last written: the bytes written, with their poison, and every other defined byte as before; and it stays in canonical
form. Writing a sector whole with clean data clears its poison, and writing poison sets it (R388, R390). -/
def Obligations.MemoryReadsWhatWasWritten : Prop :=
  ∀ (m : Mem) (a : Nat) (d : List PByte), m.wf = true →
    (m.write a d).wf = true ∧
    (∀ i, i < d.length → (m.write a d).byte (a + i) = (d.getD i (0, false)).1) ∧
    (∀ x, x < a ∨ a + d.length ≤ x → m.undefAt x = none → (m.write a d).byte x = m.byte x) ∧
    (∀ k, (m.write a d).poisoned.contains k = true ↔
      (∃ i, i < d.length ∧ (d.getD i (0, false)).2 = true ∧ sectorOf (a + i) = k) ∨
      (m.poisoned.contains k = true ∧ ¬(a ≤ 64 * k ∧ 64 * k + 64 ≤ a + d.length)))

/-! ### Shared operations -/

/-- The status of a completion record is the weightiest of those that apply, in the precedence of R40, with the codes of its table. -/
def Obligations.RecordStatusFollowsPrecedence : Prop :=
  precedence.map Status.code = [0x05, 0x04, 0x03, 0x02, 0x0A, 0x0B, 0x09, 0x08, 0x0C, 0x07, 0x06, 0x01, 0x00] ∧
  Status.code .stalledEarly = 0x0D ∧
  ∀ l : List Status,
    (∀ (k : Nat) s, precedence[k]? = some s → s ∈ l → (∀ (j : Nat) t, j < k → precedence[j]? = some t → t ∉ l) → recordStatus l = s) ∧
    ((∀ s ∈ precedence, s ∉ l) → recordStatus l = .ok)

/-- Completing a descriptor (R39, R42): it is complete, its work is over, its record joins its queue's records to write, in order of completion, and
no other descriptor nor queue changes; a descriptor that no other waits behind (R55). A PEG_GLOBAL that does not end OK carries AUX 0xFFFFFFFF (R52).
Memory, translation, links, ports, the dictionary and the error records are as they were. -/
def Obligations.CompletionQueuesOneRecord : Prop :=
  ∀ (b : Blk) (id aux dropped : Nat) (st : Status) (d : Desc),
    b.desc? id = some d → d.stage ≠ .complete → (∀ e ∈ b.front.descs, e.behind ≠ some id) →
    let c := completeWith id st aux dropped b
    let d1 : Desc := { d with dropped := dropped, statuses := if d.statuses.contains st then d.statuses else d.statuses ++ [st] }
    c.desc? id = some { d1 with stage := .complete, work := .none,
                                aux := if d.opcode = 0x03 ∧ recordStatus d1.applying ≠ .ok then 0xFFFFFFFF else aux } ∧
    (∀ i, i ≠ id → c.desc? i = b.desc? i) ∧
    (c.q d.q).recq = (b.q d.q).recq ++ [.desc id] ∧ (c.q d.q).st = (b.q d.q).st ∧ (c.q d.q).fetch = (b.q d.q).fetch ∧
    (∀ n, n ≠ d.q → c.q n = b.q n) ∧
    c.front.pegs = b.front.pegs ∧ c.front.streams = b.front.streams ∧ c.front.heavy = b.front.heavy ∧
    c.mem = b.mem ∧ c.hostMem = b.hostMem ∧ c.xlat = b.xlat ∧ c.units = b.units ∧ c.gs = b.gs ∧ c.port = b.port ∧ c.d2d = b.d2d ∧
    c.ridge = b.ridge ∧ c.host = b.host ∧ c.mg = b.mg ∧ c.err = b.err ∧ c.pw = b.pw ∧ c.out = b.out

/-- Adding to a counter (R378): that counter rises modulo 2^64, every other one and everything else stands. -/
def Obligations.CounterAddsModulo64 : Prop :=
  ∀ (b : Blk) (c k n c' k' : Nat), k < 256 → k' < 256 →
    counter (bump c k n b) c' k' = (if c' = c ∧ k' = k then (counter b c k + n) % 2 ^ 64 else counter b c' k') ∧
    bump c k n b = { b with lan := { b.lan with cnt := (bump c k n b).lan.cnt } }

/-- An error record enters the staging sack with AON_CYCLES and the die's number (R391); a full sack of 64 loses its oldest (R384, R393), which is
counted; the record is counted for the block and for its context (R396). Nothing outside the error records and the counters changes. -/
def Obligations.ErrorRecordEntersStaging : Prop :=
  ∀ (b : Blk) (r : ErrRec),
    let r' := { r with aon := b.clk.aon % 2 ^ 64, die := b.ident.die }
    let c := raise r b
    c.err.staging = (if 64 ≤ b.err.staging.length then b.err.staging.drop 1 else b.err.staging) ++ [(r', b.clk.half)] ∧
    c.err.log = b.err.log ∧ c.err.trace = b.err.trace ∧
    counter c Ctr.errRecords 0 = (counter b Ctr.errRecords 0 + 1) % 2 ^ 64 ∧
    (64 ≤ b.err.staging.length → counter c Ctr.errStagingLost 0 = (counter b Ctr.errStagingLost 0 + 1) % 2 ^ 64) ∧
    (∀ x, r.ctx = some x → x < 256 → counter c Ctr.errCtxRecords x = (counter b Ctr.errCtxRecords x + 1) % 2 ^ 64) ∧
    c = { b with err := c.err, lan := c.lan }

/-- Executing the request at the head of the sack (R366, R367): it leaves the sack, MGMT_REQUESTS counts it, MGMT_LAST_SOURCE names its source where
it came by a binding, and an I3C response waits behind those that wait while an in-band one goes out if the host is attached (R356, R357). -/
def Obligations.RequestIsCountedAndAnswered : Prop :=
  ∀ (b : Blk) (r : Req) (body : List Byte), r.fwd = none →
    let c := finishReq r body b
    c.mg.sack = b.mg.sack.drop 1 ∧ c.mg.fwd = none ∧
    c.obj Obj.mgmtRequests 0 = (b.obj Obj.mgmtRequests 0 + 1) % 2 ^ 64 ∧
    (r.bi = .i3c → c.obj Obj.mgmtLastSource 0 = r.eid ∧ c.mg.responses = b.mg.responses ++ [relrokBytes body] ∧ c.out = b.out) ∧
    (r.bi = .inBand → c.obj Obj.mgmtLastSource 0 = r.eid + 256 ∧ c.mg.responses = b.mg.responses ∧
      c.out = (if b.host.state = 0 then b.out ++ [.mctpMessage .inBand r.eid (relrokBytes body)] else b.out)) ∧
    c = { b with mg := c.mg, out := c.out }

/-! ### Packets -/

/-- Every message body survives its packet: the type and the padded body that carry it decode to it, with every field at every value that its width
admits (R275 to R278, R302, R314, R315). So does the Ridge packet header of R301: its 16 bytes decode to it. -/
def Obligations.MessageSurvivesItsPacket : Prop :=
  (∀ m : Msg, MsgFits m → decMsg (encMsg m).1 (pad16 (encMsg m).2) = some m) ∧
  (∀ h : PktHdr, HdrFits h → (encHdr h).length = 16 ∧ decHdr (encHdr h) = h)

/-! ### The front end -/

/-- DOORBELL (R30, R43, R44), on a queue that is bound: the 32 bits of TAIL name the one count from `base` on that they are congruent to. Where that
count is within the ring (or 65,536 replays of a persistent queue) and not behind TAIL, TAIL becomes it, a new EPOCH cancels from CANCEL_FROM first,
and a queue that is not STOPPING fetches at once, ignoring what an earlier poll has outstanding; where there is none, the write is rejected, counted
and recorded with the value written. Of a queue that is UNBOUND, BIND_ERR or DRAINING, and before the block is released, the write is ignored. -/
def Obligations.DoorbellSetsTailOrIsRejected : Prop :=
  ∀ (s : State) (fn q : Nat) (v : W64), Served s fn q →
    let x := s.b.q q
    (s.b.released = false ∨ x.st = .unbound ∨ x.st = .bindErr ∨ x.st = .draining → exec (.doorbell fn q v) s = .next (s.after s.b)) ∧
    (s.b.released = true → x.st ≠ .unbound → x.st ≠ .bindErr → x.st ≠ .draining →
      let base := if x.persistent then replaysDone s.b q else x.fetch
      let limit := if x.persistent then 65536 else x.ringSize
      let epoch := bitsOf v.toNat 39 32
      let again (b : Blk) : Blk := if x.stopping = false ∧ (x.st = .stalledEarly ∨ x.poll ≠ none) then dropReads (.fetch q) b else b
      let take (t : Nat) (y : Queue) : Queue :=
        let z := { y with tail := t, short := false }
        if z.stopping = true then z else if z.st = .stalledEarly then pollNow { z with st := .running }
          else if z.poll ≠ none then pollNow z else z
      (∀ t, t % 2 ^ 32 = v.toNat % 2 ^ 32 → base ≤ t → t ≤ base + limit → x.tail ≤ t →
        (epoch = x.epoch → exec (.doorbell fn q v) s = .next (s.after ((again s.b).setQ q (take t x)))) ∧
        (epoch ≠ x.epoch → exec (.doorbell fn q v) s = .next (s.after ((again
          ((cancelRange q (bitsOf v.toNat 63 48) epoch none s.b).modQ q (fun y => { y with epoch := epoch }))).modQ q (take t))))) ∧
      ((∀ t, t % 2 ^ 32 = v.toNat % 2 ^ 32 → base ≤ t → t ≤ base + limit → t < x.tail) →
        exec (.doorbell fn q v) s = .next (s.after (bump Ctr.doorbellRejected q 1
          (raise { cause := 0x01, ctx := some x.ctx, queue := some q, unit := 0, detail := v.toNat } s.b)))))

/-- The other registers of a doorbell page (R27, R29, R42, R407): START of a STOPPED queue runs it, of a STALLED_EARLY one polls at once, and of one that
is STOPPING withdraws the STOP; STOP of a RUNNING or STALLED_EARLY queue stops its fetching, and it is STOPPED at once when nothing of it is in
flight; QRESET of a STOPPED queue zeroes its counts and EPOCH; UNBIND of a STOPPED or BIND_ERR queue returns it to reset; CQ_HEAD takes what is
written; in any other state these commands do nothing. A QCFG that R29 calls valid binds the queue STOPPED on the die that it names, another makes it
BIND_ERR, and a QCFG written in a state that does not allow it is ignored. -/
def Obligations.QueueControlsChangeState : Prop :=
  ∀ (s : State) (fn q : Nat) (v : W64), Served s fn q →
    let x := s.b.q q
    let mayBind := x.st = .unbound ∨ x.st = .stopped ∨ x.st = .bindErr
    (x.st = .stopped → exec (.start fn q) s =
      .next (s.after (s.b.setQ q { x with st := .running, stopping := false, poll := none, burst := none }))) ∧
    (x.st = .stalledEarly → exec (.start fn q) s =
      .next (s.after ((dropReads (.fetch q) s.b).setQ q (pollNow { x with st := .running, stopping := false })))) ∧
    (x.st = .running → exec (.start fn q) s = .next (s.after (s.b.setQ q { x with stopping := false }))) ∧
    (x.st ≠ .stopped → x.st ≠ .stalledEarly → x.st ≠ .running → exec (.start fn q) s = .next (s.after (s.b.setQ q x))) ∧
    (x.st = .running ∨ x.st = .stalledEarly → ∃ t, exec (.stop fn q) s = .next t ∧
      t = s.after (s.b.setQ q { x with stopping := true, poll := none, burst := none }) ∧
      (s.b.inflight q = 0 → t.b.q q = { x with st := .stopped, stopping := false, poll := none, burst := none })) ∧
    (x.st ≠ .running → x.st ≠ .stalledEarly → exec (.stop fn q) s = .next (s.after (s.b.setQ q x))) ∧
    (x.st = .stopped → exec (.qreset fn q) s = .next (s.after (s.b.setQ q
      { x with fetch := 0, tail := 0, written := 0, reported := 0, epoch := 0, patches := [], rearmFail := none, short := false }))) ∧
    (x.st ≠ .stopped → exec (.qreset fn q) s = .next (s.after (s.b.setQ q x))) ∧
    (x.st = .stopped ∨ x.st = .bindErr → exec (.unbind fn q) s = .next (s.after (s.b.setQ q {}))) ∧
    (x.st ≠ .stopped → x.st ≠ .bindErr → exec (.unbind fn q) s = .next (s.after s.b)) ∧
    exec (.cqHeadWrite fn q v) s = .next (s.after (s.b.setQ q { x with cqHead := v })) ∧
    (mayBind → qcfgValid s.b fn q (v &&& qcfgMask) = true → bitsOf v.toNat 23 22 = s.b.ident.die →
      exec (.qcfgWrite fn q v) s = .next (s.after (s.b.setQ q { x with cfg := v &&& qcfgMask, st := .stopped }))) ∧
    (mayBind → qcfgValid s.b fn q (v &&& qcfgMask) = true → bitsOf v.toNat 23 22 ≠ s.b.ident.die →
      reachFail s.b 0 s.b.ident.chip (bitsOf v.toNat 23 22) = none →
      let b0 := s.b.setQ q {}
      exec (.qcfgWrite fn q v) s = .next (s.after (sendMsg s.b.ident.chip (bitsOf v.toNat 23 22) {}
        (.fwdWrite { kind := 1, fn := fn, queue := q, off := 0x008, value := v })
        { b0 with front := { b0.front with queueDie := b0.front.queueDie.set q (bitsOf v.toNat 23 22) } }))) ∧
    (mayBind → qcfgValid s.b fn q (v &&& qcfgMask) = false →
      exec (.qcfgWrite fn q v) s = .next (s.after (s.b.setQ q { x with st := .bindErr }))) ∧
    (¬mayBind → exec (.qcfgWrite fn q v) s = .next (s.after s.b))

/-- A write to the page of a queue outside the function's range is ignored and counted, whatever the register (R241); one of a disabled function is
ignored but for CQ_HEAD, whose records still leave (R265, R267; DEDUCED, log 46); one to a queue that another die serves is forwarded there over the
link, or dropped, counted and recorded where that die cannot be reached (R270); and a write in a block that the host does not reach is ignored. A QCFG
that names a third die, and an UNBIND, ask the die that serves the queue for its QSTATUS as well (DEDUCED, log 50). -/
def Obligations.PageWritesStayWithTheirFunction : Prop :=
  ∀ (s : State) (fn q : Nat) (v : W64), Live s → fn < 64 → q < 256 →
    let all := [Instr.doorbell fn q v, .qcfgWrite fn q v, .cqHeadWrite fn q v, .start fn q, .stop fn q, .qreset fn q, .unbind fn q]
    (hostReaches s.b = false → ∀ c ∈ all, exec c s = .next (s.after s.b)) ∧
    (hostReaches s.b = true → owns s.b fn q = false → ∀ c ∈ all, exec c s = .next (s.after (bump Ctr.hsForeignWrites 0 1 s.b))) ∧
    (hostReaches s.b = true → owns s.b fn q = true → fnDisabled s.b fn = true →
      ∀ c ∈ all, c ≠ .cqHeadWrite fn q v → exec c s = .next (s.after s.b)) ∧
    (hostReaches s.b = true → owns s.b fn q = true → fnDisabled s.b fn = false →
      ∀ k d, s.b.front.queueDie.find? (fun e => e.1 = q) = some (k, d) → d ≠ s.b.ident.die →
      let write (off : Nat) (w : W64) : Blk := sendMsg s.b.ident.chip d {} (.fwdWrite { kind := 1, fn := fn, queue := q, off := off, value := w }) s.b
      let lost : Blk := bump Ctr.ddFwdDropped d 1 (raise { cause := 0x07, unit := 6, inst := d, detail := d } s.b)
      let ask (b : Blk) : Blk := forwardRead d 1 fn q 0x030 b
      let plainOnes := [(Instr.doorbell fn q v, 0x000, v), (.cqHeadWrite fn q v, 0x028, v), (.start fn q, 0x038, 1#64), (.stop fn q, 0x038, 2#64),
        (.qreset fn q, 0x038, 4#64)]
      let moves := bitsOf v.toNat 23 22 ≠ d ∧ qcfgFields s.b fn q (v &&& qcfgMask) = true
      (reachFail s.b 0 s.b.ident.chip d = none →
        (∀ c off w, (c, off, w) ∈ plainOnes → exec c s = .next (s.after (write off w))) ∧
        exec (.unbind fn q) s = .next (s.after (ask (write 0x038 8#64))) ∧
        (¬moves → exec (.qcfgWrite fn q v) s = .next (s.after (write 0x008 v))) ∧
        (moves → exec (.qcfgWrite fn q v) s = .next (s.after (ask { s.b with d2d := { s.b.d2d with moves := s.b.d2d.moves ++ [(d, fn, q, v)] } })))) ∧
      (∀ e, reachFail s.b 0 s.b.ident.chip d = some e →
        (∀ c off w, (c, off, w) ∈ plainOnes → exec c s = .next (s.after lost)) ∧
        exec (.unbind fn q) s = .next (s.after (ask lost)) ∧
        (¬moves → exec (.qcfgWrite fn q v) s = .next (s.after lost)) ∧
        (moves → exec (.qcfgWrite fn q v) s = .next (s.after (ask s.b))))) ∧
    (∀ (b : Blk) d,
      (reachFail b 0 b.ident.chip d = none → forwardRead d 1 fn q 0x030 b =
        sendMsg b.ident.chip d {} (.fwdRead { kind := 1, fn := fn, queue := q, off := 0x030, value := 0 })
          { b with d2d := { b.d2d with reads := b.d2d.reads ++ [d] } }) ∧
      (reachFail b 0 b.ident.chip d ≠ none → forwardRead d 1 fn q 0x030 b = { b with out := b.out ++ [.regData (BitVec.allOnes 64)] }))

/-- Fetching (R35, R43), in a RUNNING queue that is not stopping, with its fetch not parked and nothing cancelled. FETCH_BURST asks for up to 16
slots, not past TAIL nor the end of the ring or list, where the fetched descriptors leave room. A re-poll reads again 64 CK_HALF cycles after the last,
at most 255 times. 16,384 cycles after the first read the queue is STALLED_EARLY: what its fetch has outstanding is ignored, and it is counted,
recorded, and a record of status 0x0D waits for the completion ring. -/
def Obligations.FetchingFollowsTailAndRepolls : Prop :=
  ∀ (s : State) (q : Nat), Live s → q < 256 →
    let x := s.b.q q
    fetching s.b q = true → x.cancels = [] →
    (x.burst = none → x.poll = none → x.short = false → x.fetch < x.tailSlots → fetchRoom s.b q = true →
      exec (.fetchBurst q) s = .next (s.after (s.b.setQ q { x with burst := some {
          first := x.fetch
          n := min 16 (min (x.tailSlots - x.fetch) (x.span - x.fetch % x.span))
          repoll := false } }))) ∧
    (x.burst ≠ none ∨ x.poll ≠ none ∨ x.short = true ∨ x.tailSlots ≤ x.fetch ∨ fetchRoom s.b q = false →
      exec (.fetchBurst q) s = .next (s.after (s.b.setQ q x))) ∧
    (∀ p, x.poll = some p → x.burst = none → x.fetch < x.tailSlots → fetchRoom s.b q = true → p.k < 255 → p.t0 + 64 * (p.k + 1) ≤ s.b.clk.half →
      exec (.repoll q) s = .next (s.after (s.b.setQ q { x with
        burst := some { first := x.fetch, n := min 16 (min (x.tailSlots - x.fetch) (x.span - x.fetch % x.span)), repoll := true },
        poll := some { t0 := p.t0, k := p.k + 1 } }))) ∧
    (∀ p, x.poll = some p → 255 ≤ p.k ∨ s.b.clk.half < p.t0 + 64 * (p.k + 1) → exec (.repoll q) s = .next (s.after s.b)) ∧
    (∀ p, x.poll = some p → p.t0 + 16384 ≤ s.b.clk.half →
      let ignored : Blk := { s.b with xlat := { s.b.xlat with
        held := s.b.xlat.held.filter (fun h => h.1 ≠ .fetch q), rreads := s.b.xlat.rreads.filter (fun r => r.unit ≠ .fetch q) } }
      exec (.stalledEarly q) s = .next (s.after (bump Ctr.stalledEarly q 1
        (raise { cause := 0x02, ctx := some x.ctx, queue := some q, unit := 0, detail := x.fetch % x.span }
          (ignored.setQ q { x with st := .stalledEarly, poll := none, burst := none,
                                   recq := x.recq ++ [.event .stalledEarly 0 (x.fetch % x.span) p.t0 none] }))))) ∧
    (∀ p, x.poll = some p → s.b.clk.half < p.t0 + 16384 → exec (.stalledEarly q) s = .next (s.after s.b))

/-- SLOT_CHECK (R33, R34) of a burst that has come back, in a queue that fetches, with nothing cancelled. Its slots are judged one descriptor after
another. A slot of the wrong phase, or whose LEN or CHECK is wrong, is not yet written: re-polling begins, or goes on. A descriptor that reaches past
TAIL leaves the queue waiting, and one that reaches past the burst is fetched again. One whose CHECK is right is a descriptor in flight: held for
dispatch when its header and body pass R34, and otherwise complete with MALFORMED, but for a STEP, which is held for its arrival (R173). One with
PERIOD_TAGGED set is tied to the PERIOD before it that has yet to open, or to the open period, and is LATE when there is neither (R55). The
last clauses say all this of a burst of one slot. -/
def Obligations.CheckedSlotIsHeldOrMalformed : Prop :=
  (∀ (s : State) (q : Nat), Live s → q < 256 → fetching s.b q = true → (s.b.q q).burst ≠ none →
    exec (.slotCheck q) s = .next (s.after (judgeSlots q 16 s.b))) ∧
  (∀ (q fuel : Nat) (b : Blk) (bu : Burst) (d : List PByte) (r : Blk), let x := b.q q
    x.cancels = [] → x.burst = some bu → x.fetch < bu.first + bu.n → x.fetch < x.tailSlots → fetchRoom (b.setQ q x) q = true →
    rdSlot q (x.fetch % x.span) bu.repoll (b.setQ q x) = (r, .ok d) →
    let l := plain d
    let len := byteAt l 6
    let k := min len (x.span - x.fetch % x.span)
    let again (c : Blk) : Blk := c.modQ q (fun y => { y with burst := none, poll := some (y.poll.getD { t0 := c.clk.half, k := 0 }) })
    (anyPoison d = true → judgeSlots q (fuel + 1) b = again (raise
      { cause := 0x12, ctx := some x.ctx, queue := some q, unit := 0, detail2 := x.ringBase.toNat + 64 * (x.fetch % x.span) } r)) ∧
    (anyPoison d = false → (byteAt l 1).testBit 0 ≠ x.phase → judgeSlots q (fuel + 1) b = again r) ∧
    (anyPoison d = false → (byteAt l 1).testBit 0 = x.phase → len = 0 ∨ 4 < len →
      judgeSlots q (fuel + 1) b = again (bump Ctr.slotCheckFailed q 1 r)) ∧
    (anyPoison d = false → (byteAt l 1).testBit 0 = x.phase → 1 ≤ len → len ≤ 4 →
      (x.tailSlots < x.fetch + k →
        judgeSlots q (fuel + 1) b = r.modQ q (fun y => { y with burst := none, poll := none, short := true })) ∧
      (x.fetch + k ≤ x.tailSlots → bu.first + bu.n < x.fetch + k → judgeSlots q (fuel + 1) b = r.modQ q (fun y => { y with burst := none })) ∧
      (x.fetch + k ≤ x.tailSlots → x.fetch + k ≤ bu.first + bu.n → ∀ b2 rest,
        rdSlots q bu.repoll (k - 1) (x.fetch % x.span + 1) r = (b2, .ok rest) → anyPoison rest = false →
        let all := plain (d ++ rest)
        (crc8 (all.take 7 ++ all.drop 8) ≠ byteAt all 7 → judgeSlots q (fuel + 1) b = again (bump Ctr.slotCheckFailed q 1 b2)) ∧
        (crc8 (all.take 7 ++ all.drop 8) = byteAt all 7 → judgeSlots q (fuel + 1) b =
          judgeSlots q fuel (dropRingLines q x.fetch k (takeDesc q x.fetch k (decide (len ≤ x.span - x.fetch % x.span)) all b2)))))) ∧
  (∀ (q pos k : Nat) (whole : Bool) (l : List Byte) (b : Blk), let x := b.q q
    x.cancels = [] → x.rearmFail = none → x.patches = [] → (∀ e ∈ b.front.descs, e.id < b.front.nextId ∧ e.behind ≠ some b.front.nextId) →
    let new : Desc := { id := b.front.nextId, q := q, slot := pos % x.span, pos := pos, slots := k, replay := pos / x.span, bytes := l,
                        stage := .held, bad := !(slotOk l x whole), checkedAt := b.clk.half }
    let c := takeDesc q pos k whole l b
    let st := b.front.streams.get {} x.stream
    let before := (b.descsOf q).filter (fun e => e.opcode = 0x04 && (e.stage = .held || e.stage = .handed))
    c.front.nextId = b.front.nextId + 1 ∧ (∀ i, i ≠ new.id → c.desc? i = b.desc? i) ∧ (c.q q).fetch = pos + k ∧ (c.q q).poll = none ∧
    (slotOk l x whole = false → byteAt l 0 ≠ 0x22 →
      c.desc? new.id = some { new with stage := .complete, statuses := [.malformed], aux := if new.opcode = 0x03 then 0xFFFFFFFF else 0 } ∧
      (c.q q).recq = x.recq ++ [.desc new.id]) ∧
    (slotOk l x whole = false → byteAt l 0 = 0x22 → c.desc? new.id = some { new with statuses := [.malformed] }) ∧
    (slotOk l x whole = true → (byteAt l 1).testBit 2 = false → c.desc? new.id = some new) ∧
    (slotOk l x whole = true → (byteAt l 1).testBit 2 = true →
      (∀ p, before.getLast? = some p → c.desc? new.id = some { new with behind := some p.id }) ∧
      (before = [] → st.open_ = true → st.passed = false → c.desc? new.id = some { new with period := some st.num }) ∧
      (before = [] → st.open_ = false ∨ st.passed = true → ∃ e, c.desc? new.id = some e ∧ e.stage = .complete ∧ e.statuses = [.late] ∧
        (c.q q).recq = x.recq ++ [.desc new.id]))) ∧
  (∀ (s : State) (q : Nat) (bu : Burst) (d : List PByte), Live s → q < 256 →
    let x := s.b.q q
    let r := rdSlot q (x.fetch % x.span) bu.repoll (s.b.setQ q x)
    let l := plain d
    let y := { x with det := x.det.feed ((x.ringBase.toNat + 64 * (x.fetch % x.span)) / 128) }
    fetching s.b q = true → x.cancels = [] → x.rearmFail = none → x.patches = [] → x.burst = some bu → bu.first = x.fetch → bu.n = 1 →
    x.fetch < x.tailSlots → fetchRoom s.b q = true → r.2 = .ok d → anyPoison d = false →
    let begun := { y with burst := none, poll := some (x.poll.getD { t0 := s.b.clk.half, k := 0 }) }
    ((byteAt l 1).testBit 0 ≠ x.phase → exec (.slotCheck q) s = .next (s.after (r.1.setQ q begun))) ∧
    ((byteAt l 1).testBit 0 = x.phase → byteAt l 6 = 0 ∨ 4 < byteAt l 6 ∨ (byteAt l 6 = 1 ∧ crc8 (l.take 7 ++ l.drop 8) ≠ byteAt l 7) →
      exec (.slotCheck q) s = .next (s.after ((bump Ctr.slotCheckFailed q 1 r.1).setQ q begun))) ∧
    ((byteAt l 1).testBit 0 = x.phase → byteAt l 6 = 1 → crc8 (l.take 7 ++ l.drop 8) = byteAt l 7 →
      let new : Desc := { id := s.b.front.nextId, q := q, slot := x.fetch % x.span, pos := x.fetch, slots := 1,
                          replay := x.fetch / x.span, bytes := l, stage := .held, bad := !(slotOk l x true), checkedAt := s.b.clk.half }
      slotOk l x true = true → (byteAt l 1).testBit 2 = false → (∀ e ∈ s.b.front.descs, e.id < s.b.front.nextId) →
        ∃ t, exec (.slotCheck q) s = .next t ∧ t.b.front.descs = s.b.front.descs ++ [new] ∧ t.b.front.nextId = s.b.front.nextId + 1 ∧
          t.b.q q = { y with fetch := x.fetch + 1, poll := none, burst := none } ∧ t.b.mem = r.1.mem.norm))

/-- DISPATCH (R36 to R38) of the descriptor whose turn it is, in a queue with no rearm entry waiting. A malformed one completes MALFORMED; one that
names nothing to read and passes its checks is handed to its unit, and the queue's share of the round is spent; one whose lists and tables have
been read is handed over with them, and one that fails a check then completes with its statuses. A STEP that fails goes to its unit even so, which
makes it arrive with an abort vote (R173). While a read still waits or is parked, nothing is dispatched. -/
def Obligations.DispatchHandsOrCompletes : Prop :=
  (∀ (s : State) (q : Nat) (d : Desc), Live s → q < 256 → nextDispatch s.b q = some d → mayDispatch s.b q = true → d.patched = false →
    (s.b.q q).patches = [] →
    let b0 := s.b.modDesc d.id (fun _ => d)
    (d.bad = true → d.opcode ≠ 0x22 → exec (.dispatch q) s = .next (s.after (completeWith d.id .malformed 0 0 (spendCredit q b0)))) ∧
    (d.bad = true → d.opcode = 0x22 → exec (.dispatch q) s = .next (s.after (hand d.id (addStatus d.id .malformed
      ((spendCredit q b0).modDesc d.id (fun d => { d with bad := true })))))) ∧
    (d.bad = false → nextPre d = none → judge (spendCredit q b0) d = [] →
      exec (.dispatch q) s = .next (s.after (hand d.id (spendCredit q b0)))) ∧
    (d.bad = false → ∀ b1 d1, runPre d.id 4200 b0 = (b1, .ready) → b1.desc? d.id = some d1 →
      (judge (spendCredit q b1) d1 = [] → exec (.dispatch q) s = .next (s.after (hand d.id (spendCredit q b1)))) ∧
      (∀ ss, judge (spendCredit q b1) d1 = ss → ss ≠ [] →
        let c := ss.foldl (fun b st => addStatus d.id st b) (spendCredit q b1)
        exec (.dispatch q) s = .next (s.after (if d.opcode = 0x22 then hand d.id c else complete d.id c)))) ∧
    (d.bad = false → ∀ b1 st, runPre d.id 4200 b0 = (b1, .status st) → exec (.dispatch q) s = .next (s.after
      (if d.opcode = 0x22 then hand d.id (addStatus d.id st (spendCredit q b1)) else completeWith d.id st 0 0 (spendCredit q b1)))) ∧
    (d.bad = false → ∀ b1, runPre d.id 4200 b0 = (b1, .later) → exec (.dispatch q) s = .next (s.after b1))) ∧
  (∀ (s : State) (q : Nat), Live s → q < 256 → nextDispatch s.b q = none ∨ mayDispatch s.b q = false →
    exec (.dispatch q) s = .next (s.after s.b))

/-- COMPLETION_WRITE (R39, R41, R42) of the oldest completion, where the ring has room and its write is made: the statistics record goes first, and
has to be visible (R41, R201); the peg counters that the descriptor names rise (R49), the 16 bytes of R39 are written at the next place of the ring,
the descriptor leaves, every status that applies is counted, and the tail word follows where it is due. An event's record has SEQ 0xFFFF, and the
marker of a CANCEL completes that CANCEL once it is written (R47). A full ring takes none. A fault batch that is due
then goes too (R215). The tail word is 4 bytes of the count written and 4 of zero (R41). -/
def Obligations.CompletionWritesRecordThenTail : Prop :=
  ∀ (s : State) (q : Nat), Live s → q < 256 → s.b.isParked (.compl q) = false →
    let x := s.b.q q
    let room := x.written - x.cqHead.toNat < x.cqSize
    let place := x.cqBase.toNat + 16 * (x.written % x.cqSize)
    let put (l : List Byte) (rest : List RecItem) (r : Blk) : Blk := (traceRecord q l (r.modQ q (fun y => { y with
      written := y.written + 1, tailSince := if y.reported = y.written then r.clk.half else y.tailSince }))).modQ q (fun y => { y with recq := rest })
    let tail (c : Blk) : Blk := if tailDue c q then writeTail q c else c
    let next (c : Blk) : Host.Outcome State Fault Refusal := .next (s.after (if batchDue c then faultBatch c else c))
    (¬room → exec (.completionWrite q) s = next s.b) ∧
    (∀ id rest d, room → x.recq = .desc id :: rest → s.b.desc? id = some d → d.stats = none →
      (s.b.writesDone (.desc id) = false → exec (.completionWrite q) s = next s.b) ∧
      (d.pegged = false → s.b.writesDone (.desc id) = true →
        let l := toLe 2 d.seq ++ toLe 1 (recordStatus d.applying).code ++ toLe 1 q ++ toLe 4 d.dropped ++ toLe 4 d.aux
          ++ toLe 4 (min (s.b.clk.half - d.checkedAt) 0xFFFFFFFF)
        let b0 := pegIncrements d (s.b.modDesc id (fun d => { d with pegged := true }))
        ∀ r, ringWrite q place l b0 = (r, true) →
          exec (.completionWrite q) s = next (tail (retire id (countStatuses q d.applying (put l rest r)))))) ∧
    (∀ id rest d va st b1, room → x.recq = .desc id :: rest → s.b.desc? id = some d → d.stats = some (va, st) → s.b.writesDone (.desc id) = true →
      wr (.slice 0) (.desc id) (clsOf s.b d.q) va (st.map (·, false)) s.b = (b1, .ok) →
      let b2 := b1.modDesc id (fun d => { d with stats := none })
      b2.writesDone (.desc id) = false → exec (.completionWrite q) s = next b2) ∧
    (∀ st dropped aux since by_ rest, room → x.recq = .event st dropped aux since by_ :: rest →
      let l := toLe 2 0xFFFF ++ toLe 1 st.code ++ toLe 1 q ++ toLe 4 dropped ++ toLe 4 aux ++ toLe 4 (min (s.b.clk.half - since) 0xFFFFFFFF)
      ∀ r, ringWrite q place l s.b = (r, true) →
        exec (.completionWrite q) s = next (tail (match by_ with
          | some id => completeWith id .ok dropped 0 (put l rest r)
          | none => put l rest r))) ∧
    (∀ d : Desc, d.pegInc = true → ∀ c n, n < 64 → c < 64 →
      (pegIncrements d s.b).peg c n = s.b.peg c n + (if c = (s.b.q d.q).ctx ∧ n / 4 = d.pegGroup ∧ d.pegMask.testBit (n % 4) then 1 else 0)) ∧
    (tailDue s.b q = true → ∀ r, ringWrite q x.cqTailAddr.toNat (toLe 4 x.written ++ toLe 4 0) s.b = (r, true) →
      exec (.tailWordTimer q) s = .next (s.after (r.setQ q { r.q q with reported := (r.q q).written }))) ∧
    (tailDue s.b q = false → exec (.tailWordTimer q) s = .next (s.after s.b))

/-! ### Operators of the front end -/

/-- NOP completes OK (R406). PEG_LOCAL WAIT_GE completes when (counter − TARGET) read as signed is not negative, and waits otherwise; a waiting one
completes once that holds; SET gives the counter its TARGET; AUX is the counter's low 32 bits (R50). -/
def Obligations.NopAndPegLocalComplete : Prop :=
  ∀ (s : State) (q : Nat) (d : Desc), Live s → q < 256 →
    let ctx := (s.b.q q).ctx
    let n := d.f 9 1
    (handedOf s.b q [0x01] = some d → exec (.nop q) s = .next (s.after (completeWith d.id .ok 0 0 s.b))) ∧
    (handedOf s.b q [0x02] = some d →
      (d.f 8 1 = 0 → (s.b.peg ctx n - d.target).msb = false →
        exec (.pegLocalWaitGe q) s = .next (s.after (completeWith d.id .ok ((s.b.peg ctx n).toNat % 2 ^ 32) 0 s.b))) ∧
      (d.f 8 1 = 0 → (s.b.peg ctx n - d.target).msb = true →
        exec (.pegLocalWaitGe q) s = .next (s.after (s.b.modDesc d.id (fun d => { d with stage := .running, work := .pegWait })))) ∧
      (d.f 8 1 = 1 →
        exec (.pegLocalSet q) s = .next (s.after (completeWith d.id .ok (d.target.toNat % 2 ^ 32) 0
          { s.b with front := { s.b.front with pegs := s.b.front.pegs.set (64 * ctx + n) d.target } })))) ∧
    ((s.b.descsOf q).find? (fun d => d.stage == .running && d.work == .pegWait && !((s.b.peg ctx (d.f 9 1) - d.target).msb)) = some d →
      exec (.pegWaitPass q) s = .next (s.after (completeWith d.id .ok ((s.b.peg ctx n).toNat % 2 ^ 32) 0 s.b)))

/-- Periods (R54 to R57): PERIOD closes the open period of its stream, which drops what is left of it with LATE, and opens the next one at once, with its
deadline DEADLINE cycles later and the first tagged dispatch 32 cycles later; AUTO opens again every PERIOD_CYCLES from the last opening; STOP opens
none; at the deadline what is unfinished of the period is LATE, and the period has passed. The tagged descriptors behind a PERIOD take the period
that it opens, and are LATE when it opens none. Before its cycle a deadline, and an automatic opening, changes nothing. -/
def Obligations.PeriodsOpenCloseAndPass : Prop :=
  (∀ (s : State), Live s →
    (∀ (q : Nat) (d : Desc), q < 256 → handedOf s.b q [0x04] = some d →
      let st := (s.b.q q).stream
      let b0 := closePeriod st s.b
      let num := (s.b.stream st).num + 1
      let opened (auto : Option (Nat × Nat)) : Stream :=
        { open_ := true, num := num, openedAt := s.b.clk.core, deadlineAt := some (s.b.clk.core + d.f 16 4),
          passed := false, auto := auto, readyAt := s.b.clk.core + 32 }
      let done (auto : Option (Nat × Nat)) : Blk := completeWith d.id .ok 0 0 (tagBehind d.id num (b0.setStream st (opened auto)))
      (d.f 8 1 = 0 → exec (.periodManual q) s = .next (s.after (done none))) ∧
      (d.f 8 1 = 1 → exec (.periodAuto q) s = .next (s.after (done (some (d.f 12 4, d.f 16 4))))) ∧
      (d.f 8 1 = 2 → exec (.periodStop q) s = .next (s.after (completeWith d.id .ok 0 0 b0)))) ∧
    (∀ st, st < 8 →
      let x := s.b.stream st
      let b0 := closePeriod st s.b
      (b0.stream st).open_ = false ∧ (b0.stream st).deadlineAt = none ∧ (b0.stream st).num = x.num ∧
      (∀ p dl, x.auto = some (p, dl) →
        (x.openedAt + p ≤ s.b.clk.core → exec (.periodAutoOpen st) s = .next (s.after (b0.setStream st
          { open_ := true, num := x.num + 1, openedAt := x.openedAt + p, deadlineAt := some (x.openedAt + p + dl),
            passed := false, auto := some (p, dl), readyAt := x.openedAt + p + 32 }))) ∧
        (s.b.clk.core < x.openedAt + p → exec (.periodAutoOpen st) s = .next (s.after s.b))) ∧
      (∀ t, x.deadlineAt = some t → x.open_ = true →
        (t ≤ s.b.clk.core → exec (.deadline st) s =
          .next (s.after ((dropPeriod st s.b).setStream st { x with deadlineAt := none, passed := true }))) ∧
        (s.b.clk.core < t → exec (.deadline st) s = .next (s.after s.b))))) ∧
  (∀ (st : Nat) (b : Blk), (b.front.descs.map (·.id)).Nodup →
    let c := dropPeriod st b
    let left (d : Desc) : Prop := d.stage ≠ .complete ∧ d.period = some (b.stream st).num ∧ (b.q d.q).stream = st
    (∀ d ∈ b.front.descs, left d → ∀ e ∈ b.front.descs, e.behind ≠ some d.id) →
      (∀ d ∈ b.front.descs, left d → ∃ e, c.desc? d.id = some e ∧ e.stage = .complete ∧ .late ∈ e.statuses) ∧
      (∀ d ∈ b.front.descs, ¬left d → c.desc? d.id = some d) ∧
      (∀ t, c.stream t = b.stream t)) ∧
  (∀ (st : Nat) (b : Blk),
    let c := if (b.stream st).open_ then dropPeriod st b else b
    closePeriod st b = c.setStream st { c.stream st with open_ := false, deadlineAt := none, auto := none }) ∧
  (∀ (id num i : Nat) (b : Blk), (tagBehind id num b).desc? i =
    (b.desc? i).map (fun d => if d.behind = some id then { d with behind := none, period := some num } else d)) ∧
  (∀ (id : Nat) (b : Blk) (d e : Desc), (b.front.descs.map (·.id)).Nodup → b.desc? id = some d → d.stage ≠ .complete → d.behind ≠ some id →
    b.desc? e.id = some e → e.behind = some id → e.stage ≠ .complete →
    ∃ g, (completeWith id .ok 0 0 b).desc? e.id = some g ∧ g.stage = .complete ∧ .late ∈ g.statuses)

/-- KINDLE (R61, R348): its class bits stand in the heavy-phase request from dispatch to the end of its lead and its duration, and it completes at the end
of its lead; shares whose end has passed leave the request. CANCEL (R45, R47) cancels from its slot of its target queue of its own context, whose
marker completes it; one of an unbound queue completes at once, and one of another context is MALFORMED. An empty range touches nothing, and its
marker is due at once. CANCEL_MARKER queues the marker's record, with the slots skipped and the EPOCH. -/
def Obligations.KindleAndCancelTakeEffect : Prop :=
  ∀ (s : State) (q : Nat) (d : Desc), Live s → q < 256 →
    (handedOf s.b q [0x05] = some d →
      let now := s.b.clk.core
      let share : Heavy := { cls := d.f 8 1, fin := now + d.f 12 4 + d.f 16 4 }
      exec (.kindle q) s = .next (s.after (startWork d.id (.kindle (now + d.f 12 4))
        { s.b with front := { s.b.front with heavy := s.b.front.heavy ++ [share] } }))) ∧
    ((s.b.descsOf q).find? (fun d => match d.work with
        | .kindle t => d.stage == .running && decide (t ≤ s.b.clk.core)
        | _ => false) = some d →
      exec (.kindleLeadEnd q) s = .next (s.after (completeWith d.id .ok 0 0 s.b))) ∧
    (∃ t, exec .heavyRequestEnd s = .next t ∧ (∀ h ∈ t.b.front.heavy, s.b.clk.core < h.fin) ∧
      (∀ h ∈ s.b.front.heavy, s.b.clk.core < h.fin → h ∈ t.b.front.heavy) ∧ heavyNow t.b = heavyNow s.b) ∧
    (handedOf s.b q [0x07] = some d →
      let n := d.f 8 1
      let x := s.b.q n
      (x.st = .unbound ∨ x.st = .bindErr → exec (.cancel q) s = .next (s.after (completeWith d.id .ok 0 0 s.b))) ∧
      (x.st ≠ .unbound → x.st ≠ .bindErr → x.ctx ≠ (s.b.q q).ctx →
        exec (.cancel q) s = .next (s.after (completeWith d.id .malformed 0 0 s.b))) ∧
      (x.st ≠ .unbound → x.st ≠ .bindErr → x.ctx = (s.b.q q).ctx →
        exec (.cancel q) s = .next (s.after (cancelRange n (d.f 10 2) x.epoch (some d.id) (startWork d.id .cancel s.b))))) ∧
    (∀ (n slot epoch : Nat) by_, cancelFrom s.b n slot = none → cancelRange n slot epoch by_ s.b = s.b.setQ n { s.b.q n with
      cancels := (s.b.q n).cancels ++ [{ skipFrom := (s.b.q n).fetch, skipTo := (s.b.q n).fetch, skipped := 0, reached := true, members := [],
                                         epoch := epoch, fixedAt := s.b.clk.half, dropped := 0, byDesc := by_ }] }) ∧
    (∀ r, (s.b.q q).cancels.find? (markerReady s.b) = some r →
      exec (.cancelMarker q) s = .next (s.after ((s.b.modQ q (fun x => { x with cancels := x.cancels.filter (fun c => c ≠ r) })).modQ q
        (fun x => { x with recq := x.recq ++ [.event .cancelled r.dropped (r.skipped % 65536 + 65536 * r.epoch) r.fixedAt r.byDesc] })))) ∧
    ((s.b.q q).cancels.find? (markerReady s.b) = none → exec (.cancelMarker q) s = .next (s.after s.b))

/-- REARM (R59, R60): a table of 1 to 1,024 entries that reads clean and passes its rules is kept for this replay's later descriptors, and the REARM
completes OK; where a descriptor already held is one that an entry cannot patch, the replay fails from that descriptor on. A count out of range, or a
table that breaks a rule, completes the REARM MALFORMED and fails the replay behind it; a poisoned table cancels it (R389). A replay that fails
completes its held descriptors from a slot on with MALFORMED, but for a STEP, which is held for its arrival. -/
def Obligations.RearmKeepsItsPatches : Prop :=
  ∀ (s : State) (q : Nat) (d : Desc), Live s → q < 256 → handedOf s.b q [0x06] = some d →
    let k := d.f 8 2
    let failFrom (slot : Nat) (b : Blk) : Blk :=
      let c := b.modQ q (fun x => { x with rearmFail := some (d.replay, slot) })
      (((c.descsOf q).filter (fun e => e.stage == .held && e.replay == d.replay && slot ≤ e.slot)).map (·.id)).foldl (fun b i =>
        if (b.desc? i).any (fun e => e.opcode == 0x22) = true then addStatus i .malformed ((dropWork i b).modDesc i (fun e => { e with bad := true }))
        else completeWith i .malformed 0 0 (dropWork i b)) c
    let failed (st : Status) (b : Blk) : Blk := failFrom (d.slot + 1) (completeWith d.id st 0 0 b)
    (k = 0 ∨ 1024 < k → exec (.rearm q) s = .next (s.after (failed .malformed s.b))) ∧
    (1 ≤ k → k ≤ 1024 → ∀ b1 l, rd .front (.desc d.id) (clsOf s.b q) (d.f 16 8) (16 * k) s.b = (b1, .ok l) →
      (anyPoison l = true → exec (.rearm q) s = .next (s.after (failed .cancelled (raise (d.err b1 0x12 0 0 (d.f 16 8)) b1)))) ∧
      (anyPoison l = false →
        let es := pieces 16 (plain l)
        (rearmTableOk (b1.q q) d es = false → exec (.rearm q) s = .next (s.after (failed .malformed b1))) ∧
        (rearmTableOk (b1.q q) d es = true →
          let c := completeWith d.id .ok 0 0 (b1.modQ q (fun x => { x with
            patches := x.patches.filter (fun p => d.replay ≤ p.replay) ++ es.map (fun e =>
              { replay := d.replay, slot := field e 0 2, word := byteAt e 2, value := BitVec.ofNat 64 (field e 8 8) }) }))
          let cannot (e : Desc) : Bool :=
            e.stage == .held && e.replay == d.replay && patchBad (es.map (patchOf d.replay)) d.replay e.slot e.slots e.len
          ((c.descsOf q).find? cannot = none → exec (.rearm q) s = .next (s.after c)) ∧
          (∀ e, (c.descsOf q).find? cannot = some e → exec (.rearm q) s = .next (s.after (failFrom e.slot c))))))

/-- MAINT (R62): on the caches of its TARGETS, each pitch cleaned before it is invalidated; AUX counts the lines written back. What an invalidation has
selected is in the cache no longer, and the dedup window, the grid buffer and the slices' descriptor buffers are empty (R68, R99, R121); what a clean
has selected is not dirty. -/
def Obligations.MaintCleansAndInvalidates : Prop :=
  ∀ (s : State) (q : Nat) (d : Desc), Live s → q < 256 → handedOf s.b q [0x08] = some d →
    let sel := maintSelects d s.b
    (∀ c op, (c, op) ∈ [(Instr.maintClean q, 1), (.maintInvalidate q, 2), (.maintCleanInvalidate q, 3)] → d.f 8 1 = op →
      let r := if (d.f 10 1).testBit 0 then maintPitches d sel (List.range s.b.pitchCount) s.b else (s.b, 0)
      let b1 := if (d.f 10 1).testBit 0 ∧ op.testBit 1 then { r.1 with gs := { r.1.gs with dbuf := [] } } else r.1
      let x := r.1.xlat
      exec c s = .next (s.after (completeWith d.id .ok r.2 0 { b1 with xlat := { x with
        desc := if (d.f 10 1).testBit 1 then maintClean1 d sel x.desc else x.desc
        fault := if (d.f 10 1).testBit 2 then maintClean1 d sel x.fault else x.fault } }))) ∧
    (∀ (p : Nat) (b : Blk),
      let m := (maintPitch d sel p b).1
      ((d.f 8 1).testBit 1 = true → (∀ e ∈ (m.pitch p).mdc.lines, sel e.1 e.2 = false) ∧ (m.pitch p).window = [] ∧ (m.pitch p).grid = []) ∧
      ((d.f 8 1).testBit 0 = true → ∀ e ∈ (m.pitch p).mdc.lines, sel e.1 e.2 = true → e.2.dirty = false) ∧
      (∀ j, j ≠ p → m.pitch j = b.pitch j))

/-- Barriers (R51 to R53, R271, R322, R323): the queue's PEG_GLOBAL is taken, and the first of the queue's that may arrive reads its operands and sends its
arrival to the chip's combining die; the node takes the oldest arrival in the port sack, once every die and child has arrived it reduces the values
in the order of R322 and, at the root, spreads the result with base rank 0; a result for this chip is given to those that wait for it, and what has
its result then completes. -/
def Obligations.BarriersArriveCombineAndReturn : Prop :=
  ∀ (s : State), Live s →
    (∀ (q : Nat) (d : Desc), q < 256 → handedOf s.b q [0x03] = some d →
      let b0 := startWork d.id (.peg { barrier := d.f 10 1 % 16, gen := d.f 16 4, reduce := d.f 8 1, count := d.f 9 1, sentAt := none, own := none }) s.b
      ∀ e w, (b0.descsOf q).find? (fun d => match d.work with
          | .peg w => w.sentAt.isNone && !(barrierHeld b0 d w) && !(b0.isParked (.desc d.id))
          | _ => false) = some e → b0.desc? e.id = some e → e.work = .peg w →
        ∀ b1 l, rd .front (.desc e.id) (clsOf b0 e.q) (e.f 24 8) (8 * w.count) b0 = (b1, .ok l) → anyPoison l = false →
          b1.desc? e.id = some e → b1.ident.die = 0 →
          let c := clsOf b1 q
          let m : PegArriveB := { part := b1.ctxPartId c.ctx, barrier := w.barrier, reduce := w.reduce, count := (f64List (plain l)).length,
                                  mismatch := false, abort := false, subtree := 1, gen := w.gen, vals := f64List (plain l),
                                  ctx := if (b1.ctxSlot c.ctx).isSome then 0 else c.ctx + 1 }
          let b2 := (modWait e.id (fun w => { w with sentAt := some b1.clk.core, own := none }) b1).modDesc e.id (fun d => { d with started := true })
          let rx : Rx := { msg := .pegArrive m, chip := b1.ident.chip, die := 0, via := .local, rt := c.rt, stream := c.stream, part := 0 }
          exec (.pegGlobal q) s = .next (s.after (pegFinishAll { b2 with port := b2.port ++ [rx] }))) ∧
    (∀ i r m, oldest s.b (fun r => match r.msg with
        | .pegArrive _ => true
        | _ => false) = some (i, r) → r.msg = .pegArrive m →
      let b0 := takeRx i r s.b
      let k := barrierOf b0 m.part m.ctx
      let x : Node := { ctx := k.1, slot := k.2, part := m.part, barrier := m.barrier, gen := m.gen,
                        arrivals := [{ child := false, who := r.die, subtree := m.subtree, reduce := m.reduce, count := m.count,
                                       mismatch := false, abort := false, vals := m.vals }] }
      r.chip = b0.ident.chip → r.die = b0.ident.die → b0.dies = [r.die] → nodeKids b0 k.2 = [] → nodeParent b0 k.2 = none →
      findNode b0 k.1 m.barrier = none → b0.ridge.abandoned.any (fun a => a.ctx = k.1 && a.barrier = m.barrier && a.gen = m.gen) = false →
      m.mismatch = false → m.abort = false →
        exec .pegArrive s = .next (s.after (pegFinishAll (spread x 0 0 m.vals (putNode x b0))))) ∧
    (∀ (b : Blk) (x : Node) (a : Arrival) (rest : List Arrival), inOrder b x = a :: rest →
      rest.length + 1 = b.dies.length + (nodeKids b x.slot).length → nodeParent b x.slot = none →
      ((∀ e ∈ a :: rest, e.mismatch = false ∧ e.reduce = a.reduce ∧ e.count = a.count) →
        combineNode x b = spread x 0 0 (rest.foldl (fun v e => reduceVals a.reduce v e.vals) a.vals) b) ∧
      ((∃ e ∈ a :: rest, e.mismatch = true ∨ e.reduce ≠ a.reduce ∨ e.count ≠ a.count) →
        combineNode x b = spread x 1 0 [] (remember x.ctx x.barrier [(x.gen, 1)] b))) ∧
    (∀ i r m, oldest s.b (fun r => match r.msg with
        | .pegResult _ => true
        | _ => false) = some (i, r) → r.msg = .pegResult m →
      let b0 := takeRx i r s.b
      r.chip = b0.ident.chip →
        exec .pegResult s = .next (s.after (pegFinishAll
          (deliver (barrierOf b0 m.part m.ctx).1 m.barrier m.gen m.status m.rank m.vals b0)))) ∧
    (∀ (id : Nat) (b : Blk) (d : Desc) w code rank vals, b.desc? id = some d → d.work = .peg w → w.result = some (code, rank, vals) →
      (∀ st, w.own = some st → pegFinish id b = completeWith id st 0xFFFFFFFF 0 b) ∧
      (w.own = none → b.isParked (.desc id) = false → code ≠ 0 → pegFinish id b = completeWith id (resultStatus code) 0xFFFFFFFF 0 b) ∧
      (∀ b1, w.own = none → b.isParked (.desc id) = false → code = 0 →
        wr .front (.desc id) (clsOf b d.q) (d.f 32 8) ((vals.flatMap (fun v => toLe 8 v.toNat)).map (·, false)) b = (b1, .ok) →
        pegFinish id b = completeWith id .ok rank 0 b1))

/-- LOOKUP at the requester (R87, R91, R92, R102 to R106): the valid-bit mask is zeroed and the bags are handed out in groups of 64; an index is taken
with its weight, 1.0 where there are none: one that is dropped is counted by its class and in DROPPED (R77), a valid one joins the rows bound for its
home; a partial of status 0 fills its fragment, and one of another status ends its bag's unit; a bag whose fragments are all answered is written,
and its valid bit is set once its output is visible. -/
def Obligations.LookupBagsAreParsedAndCommitted : Prop :=
  ∀ (s : State), Live s →
    (∀ (q : Nat) (d : Desc) b1, q < 256 → handedOf s.b q [0x10] = some d → zeroMask d.id (d.f 72 8) (d.f 12 4) s.b = (b1, .ok) →
      let r : UnitsRun := { d.pre with segs := d.segments, total := d.f 12 4 }
      let ixB := ixBytes (((r.tabs.find? (fun t => !t.bad)).map Captured.ixFmt).getD 0)
      exec (.lookup q) s = .next (s.after (handAll d.id .bag (pieces 64 (bagUnits d.bytes ixB 0 0 (bagLens d.bytes r)))
        (startWork d.id (.units r) (b1.modDesc d.id (fun d => { d with started := true })))))) ∧
    (∀ (p : Nat) (u : Machine.Unit) (d : Desc) (r : UnitsRun) (ix wt : List PByte), p < 32 →
      nextUnit s.b p 0 (s.b.units.filter (parseReady s.b p)) = some u → s.b.desc? u.op = some d → d.work = .units r →
      let t := tabOfBag r u.no
      let sp := bagSpan d.bytes r u.no
      let none_ := field d.bytes 56 8 = 0
      (if none_ then some [] else u.input (field d.bytes 56 8 + wtBytes d.bytes * (sp.1 + u.next)) (wtBytes d.bytes)) = some wt →
      anyPoison wt = false →
      let w : W32 := if none_ then 0x3F800000#32 else if wtBytes d.bytes = 2 then b16to32 (le (plain wt)) else BitVec.ofNat 32 (le (plain wt))
      t.bad = false → u.input (field d.bytes 48 8 + ixBytes t.ixFmt * (sp.1 + u.next)) (ixBytes t.ixFmt) = some ix → anyPoison ix = false →
      let b0 := openBag u d t.table s.b
      (∀ k, (classify t (le (plain ix))).counter = some k →
        exec (.indexParse p) s = .next (s.after (sendAll p (advanceIndex u sp.2 false
          (bump k d.q 1 ((bump Ctr.lkIndices d.q 1 b0).modDesc d.id (fun d => { d with dropped := d.dropped + 1 }))))))) ∧
      (∀ row b1, classify t (le (plain ix)) = .valid row → t.sketch = false →
        (∀ va, serveRow p u.uid (clsOf b0 d.q) t row b0 = (b1, .here va .shard) →
          exec (.indexParse p) s = .next (s.after (sendAll p (advanceIndex u sp.2 true
            (addRow u.uid b1.ident.chip b1.ident.die { row := row, va := va, src := .shard, w := w }
              (bump Ctr.lkLocalRows d.q 1 (bump Ctr.lkIndices d.q 1 b1))))))) ∧
        (∀ chip die, serveRow p u.uid (clsOf b0 d.q) t row b0 = (b1, .away chip die) →
          exec (.indexParse p) s = .next (s.after (sendAll p (advanceIndex u sp.2 true
            (addRow u.uid chip die { row := row, va := 0, src := .shard, w := w } (bump Ctr.lkIndices d.q 1 b1)))))))) ∧
    (∀ i r m x, oldest s.b (fun r => match r.msg with
        | .partialV _ => true
        | _ => false) = some (i, r) → r.msg = .partialV m →
      let b0 := heard r.chip (takeRx i r s.b)
      b0.bags.find? (fun x => x.tag % 2 ^ 32 = m.tag
        && x.frags.any (fun f => f.chip = m.chip && f.die = m.die && f.frag = m.frag && f.vals.isNone)) = some x →
      let mine (f : FragOut) : Bool := f.chip = m.chip && f.die = m.die && f.frag = m.frag
      (m.status = 0 → exec .partialIn s = .next (s.after (sendAll x.pitch (cellDone x.tag
        (b0.modBag x.tag (fun x => { x with frags := x.frags.map (fun f => if mine f then { f with vals := some m.vals } else f) })))))) ∧
      (m.status ≠ 0 → exec .partialIn s = .next (s.after (sendAll x.pitch (endUnit x.unit (if m.status = 1 then .tableBusy else .malformed)
        (b0.modBag x.tag (fun x => { x with frags := x.frags.filter (fun f => !mine f) }))))))) ∧
    (∀ uid u d r, unitOf s.b uid = some (u, d) → d.work = .units r → d.opcode = 0x10 → s.b.isParked (.unit uid) = false →
      (∀ b1, u.stage ≠ .write → bagReady s.b d r u = true →
        storeAll u.pitch uid (clsOf s.b d.q) (bagOutput d u (tabOfBag r u.no).dim
          (((s.b.bags.find? (fun x => x.tag = uid)).map (·.frags)).getD [])) s.b = (b1, .ok) →
        exec (.bagCommit uid) s = .next (s.after (b1.modUnit uid (fun u => { u with stage := .write })))) ∧
      (u.stage = .write → ∀ b1, let b0 := flushUnit u s.b
        let u0 := (b0.unit? uid).getD u
        outputVisible b0 u0 = true → setMaskBit u0.pitch u0.op uid (clsOf b0 d.q) (d.f 72 8) u0.no b0 = (b1, .ok) →
        exec (.bagCommit uid) s = .next (s.after (commitUnit uid
          (if u0.nValid = 0 then bump Ctr.lkEmpty d.q 1 (bump Ctr.lkBagsValid d.q 1 b1) else bump Ctr.lkBagsValid d.q 1 b1)))))

/-- A fragment at its home (R96 to R100): the request in the port sack of the best class is given to the pitch with the fewest fragments in service; a table
that its descriptor does not let be read is answered with status 2, an empty slot with TABLE_BUSY, and otherwise the rows are resolved. A row that
comes back clean is pooled, and the last one ends the fragment. -/
def Obligations.HomeServesFragments : Prop :=
  ∀ (s : State), Live s →
    (∀ i r m, oldest s.b (fun r => match r.msg with
        | .fragReq _ => true
        | _ => false) = some (i, r) → r.msg = .fragReq m →
      (∀ g, bestBy Frag.prio (s.b.frags.filter (fun f => !f.resolved && !(s.b.isParked (.frag f.fid)))) = some g → r.prio < g.prio) →
      let f : Frag := { fid := s.b.nextUid, pitch := leastServing s.b, ctx := m.ctx, table := m.table, slot := m.slot, fmt := 0, dim := 0,
                        bf16 := m.bf16, rows := [], acc := [], req := some (m, r.part), resolved := false, tag := m.tag, frag := m.frag,
                        rt := r.rt, stream := r.stream }
      let b0 := takeRx i r s.b
      ∀ b1 l, readTable (.pitch f.pitch) (.frag f.fid) f.cls f.table { b0 with frags := b0.frags ++ [f], nextUid := b0.nextUid + 1 } = (b1, .ok l) →
        let t : Captured := { table := m.table, bytes := plain l, slot := m.slot }
        (t.shapeOk = false → exec .fragReq s = .next (s.after (dropFrag f.fid (sendPartial f m r.part 2 [] b1)))) ∧
        (t.shapeOk = true → t.rowBase m.slot = 0 → exec .fragReq s = .next (s.after (dropFrag f.fid (sendPartial f m r.part 1 [] b1)))) ∧
        (t.shapeOk = true → t.rowBase m.slot ≠ 0 →
          let rows := (List.range m.rows.length).map (fun i =>
            ({ row := m.rows.getD i 0, va := rowAddr t m.slot (homeOf t (m.rows.getD i 0)).lrow, src := .shard,
               w := if m.weighted then m.weights.getD i 0 else 0x3F800000#32 } : FragRow))
          exec .fragReq s = .next (s.after { b1 with frags := b1.frags.map (fun g => if g.fid = f.fid then
            { g with resolved := true, fmt := t.fmt, dim := t.dim, rows := rows, acc := List.replicate t.dim 0 } else g) }))) ∧
    (∀ (p : Nat) (f : Frag) (r : FragRow) b1 d, p < 32 →
      bestBy Frag.prio (s.b.frags.filter (fun f => f.pitch = p && f.resolved && !(s.b.isParked (.frag f.fid)))) = some f →
      f.rows[f.next]? = some r → readRow f r s.b = (b1, .ok d) → anyPoison d = false →
      let v := rowVals f.fmt f.dim d
      let a := poolRow f.acc f.off r.w v
      (f.next + 1 = f.rows.length →
        exec (.sectorReturn p) s = .next (s.after (fragDone f (poolEnd v.codes f.bf16 a.1 a.2) b1))) ∧
      (f.next + 1 ≠ f.rows.length →
        exec (.sectorReturn p) s = .next (s.after { b1 with frags := b1.frags.map (fun g =>
          if g.fid = f.fid then { g with next := f.next + 1, acc := a.1, off := a.2 } else g) })))

/-- LATTICE (R111 to R121): its mask is zeroed and its points are handed out in groups of 64; a buffered level that the pitch does not hold is loaded,
one after another; a point with a NaN coordinate, or a poisoned one (R389), is dropped and counted; another has the corners of its next level generated, read where they lie, and sent to be blended. -/
def Obligations.LatticePointsAreEncoded : Prop :=
  ∀ (s : State), Live s →
    (∀ (q : Nat) (d : Desc) b1, q < 256 → handedOf s.b q [0x12] = some d →
      let n := d.f 12 4
      zeroMask d.id (d.f 48 8) (ceilDiv n 64) s.b = (b1, .ok) →
      exec (.lattice q) s = .next (s.after (handAll d.id .group ((List.range (ceilDiv n 64)).map (fun g =>
          [{ no := g, need := coordTiles d.bytes (64 * g) (min 64 (n - 64 * g)) }]))
        (startWork d.id (.units { d.pre with total := ceilDiv n 64 }) (b1.modDesc d.id (fun d => { d with started := true })))))) ∧
    (∀ (p : Nat) (u : Machine.Unit) (d : Desc) (r : UnitsRun), p < 32 →
      let b0 := scrubGrid p s.b
      b0.desc? u.op = some d → d.work = .units r → r.tabs.any (·.bad) = false →
      let c := clsOf b0 d.q
      (∀ g n t b2 l, gridUnit b0 p = some u → missingLevels b0 p c.ctx r = (g, n) :: t →
        let keep := (b0.pitch p).grid.filter (fun h => (bufferedLevels c.ctx r).any (fun g => h.same g.1 && h.data.length == g.2))
        rd (.pitch p) (.unit u.uid) c g.va n (b0.setPitch p { b0.pitch p with grid := keep }) = (b2, .ok l) →
        let i := takeInject 5 b2
        exec (.gridBufferLoad p) s = .next (s.after (loadLevels p u.uid c d t (pitchSectors c.ctx d.q (sectorsOf g.va n) (bump Ctr.ltBufferLoads c.ctx 1
          (i.1.setPitch p { i.1.pitch p with grid := (i.1.pitch p).grid ++ [{ g with data := l, ecc := i.2 }] })))))) ∧
      (∀ b, loadLevels p u.uid c d [] b = b) ∧
      (∀ bytes, latticeUnit b0 p = some u → missingLevels b0 p c.ctx r = [] → mayOpen b0 p = true →
        let n := r.levels.length
        let pt := u.next / n
        let va := coordAddr d.bytes (64 * u.no + pt)
        u.input va (byteAt d.bytes 8 * coordBytes d.bytes) = some bytes →
        let cs := coordsOf d.bytes bytes
        let bad := (pieces (coordBytes d.bytes) bytes).filter (fun x => anyPoison x)
        (cs.any (fun c => (rd32 c).isNan) = true →
          let b1 := if bad = [] then b0 else poisonNans c.ctx bad.length (poisonRecord d u.pitch va b0)
          exec (.latticePoint p) s = .next (s.after (groupDone u.uid ((serveQueue u.pitch 1 d.q (bump Ctr.ltPoints d.q 1 (bump Ctr.ltPointsDropped d.q 1
            (b1.modDesc d.id (fun d => { d with dropped := d.dropped + 1 }))))).modUnit u.uid (fun u =>
              { u with next := u.next + n, drops := u.drops ++ [pt] }))))) ∧
        (cs.any (fun c => (rd32 c).isNan) = false →
          let e := r.levels.getD (u.next % n) []
          let t := levelTab r e
          ∀ b1 at_ src rows, serveCorners u.pitch u.uid c e t (cornersOf d.bytes e t.rows cs) b0 = (b1, .here at_ src, rows) →
            let tag := b1.nextUid
            let bag : Bag := { tag := tag, op := u.op, unit := u.uid, cell := u.next, pitch := u.pitch, q := d.q, tab := t.table }
            let b2 := (takeCorners tag (rows.map (fun x => (x.1, x.2.1, cornerWeight t.fmt e x.2.2)))
              { b1 with nextUid := tag + 1, bags := b1.bags ++ [bag] }).modUnit u.uid (fun u => { u with next := u.next + 1 })
            exec (.latticePoint p) s = .next (s.after (sendAll u.pitch (closeBag tag
              (serveQueue u.pitch 1 d.q (if u.next % n + 1 = n then bump Ctr.ltPoints d.q 1 b2 else b2))))))))

/-- ARRAY_RUN and INTERACT (R123 to R133, R139): the mask is zeroed and the units are handed out in groups of 8; in an ARRAY cycle that the duty permits,
the next pass of the unit that R38 ranks first asks for its panel, and runs once that is active: each accumulator takes the dot product of its row and
its column, poison entering as a NaN (an INT8 block fails on it, R389), the pass is counted, and the unit goes on to its next pass or to its output;
the shadow takes the panel asked for, with the cycles waited as bubbles, and fills for the pass after while another goes on (R124); a point group's
pass is one layer of its decoder, whose weights fill both buffers; a unit's output is written whole, and once it is visible its mask bit is set and it
is counted. -/
def Obligations.ArrayUnitsRunAndCommit : Prop :=
  ∀ (s : State), Live s →
    (∀ (q : Nat) (d : Desc) b1, q < 256 →
      (handedOf s.b q [0x13] = some d → zeroMask d.id (runBody d.bytes).mask (runBody d.bytes).units s.b = (b1, .ok) →
        exec (.arrayRun q) s = .next (s.after (handAll d.id .block
          (pieces 8 ((List.range (runBody d.bytes).units).map (fun u =>
            { no := u, need := (List.range (runBody d.bytes).passes).flatMap ((runBody d.bytes).passNeed u) })))
          (startWork d.id (.units { d.pre with total := (runBody d.bytes).units }) (b1.modDesc d.id (fun d => { d with started := true })))))) ∧
      (handedOf s.b q [0x11] = some d → zeroMask d.id (d.f 56 8) (d.f 16 4) s.b = (b1, .ok) →
        exec (.interact q) s = .next (s.after (handAll d.id .sample
          (pieces 8 ((List.range (d.f 16 4)).map (fun n => { no := n, need := [(d.f 32 8, 8 * d.f 12 2)] })))
          (startWork d.id (.units { d.pre with total := d.f 16 4 }) (b1.modDesc d.id (fun d => { d with started := true }))))))) ∧
    (∀ (p : Nat) (u : Machine.Unit) (d : Desc), p < 32 → passUnit s.b p = some u → s.b.desc? u.op = some d →
      let b0 := idleRamp p s.b
      let key : PanelKey := { op := d.id, unit := u.uid, pass := u.next }
      let b1 := seatPanel p key b0
      (permitted b0 p = false → exec (.arrayPass p) s = .next (s.after b0)) ∧
      (permitted b0 p = true → u.kind ≠ .group → activePanel b1 p key = none → exec (.arrayPass p) s = .next (s.after b1)) ∧
      (∀ w, permitted b0 p = true → u.kind = .block → activePanel b1 p key = some w →
        let r := runBody d.bytes
        (r.inf = 1 ∧ badInput d u ≠ [] → exec (.arrayPass p) s =
          .next (s.after (failUnit u.uid ((badInput d u).foldl (fun b e => poisonRecord d u.pitch e.1 b) b1)))) ∧
        (r.inf ≠ 1 ∨ badInput d u = [] →
          let b2 := notePoison d u b1
          let a := passAcc (r.inf == 1) (r.operands u u.next) w (r.depth u.next) 0 (r.nCols u.no) (r.nCols u.no)
            (if u.next = 0 then r.startAcc u else u.acc)
          exec (.arrayPass p) s = .next (s.after (passDone u.pitch (b2.q d.q).ctx d.q (slotCycles r.inf (r.nRows u.no))
            (b2.modUnit u.uid (fun v => { v with acc := a.1, drops := (v.drops ++ a.2).eraseDups, next := u.next + 1,
                                                 stage := if u.next + 1 = r.passes then .combine else .input })))))) ∧
      (∀ w, permitted b0 p = true → u.kind = .sample → activePanel b1 p key = some w →
        let b2 := if u.next = 0 then notePoison d u b1 else b1
        let f := d.f 12 2
        let k := u.next / sampleHalves d
        let c0 := 64 * (u.next % sampleHalves d)
        let a := passAcc false ((sampleVecs d u).map (panelPart k)) w (min 128 (d.f 14 2 - 128 * k)) c0 (min 64 (f - c0)) f
          (if u.next = 0 then List.replicate (f * f) 0 else u.acc)
        exec (.arrayPass p) s = .next (s.after (passDone u.pitch (b2.q d.q).ctx d.q (slotCycles (sampleFmt d) f)
          (b2.modUnit u.uid (fun v =>
            { v with acc := a.1, next := u.next + 1, stage := if u.next + 1 = samplePasses d then .combine else .input }))))) ∧
      (∀ r, permitted b0 p = true → u.kind = .group → d.run = some r →
        ((b0.pitch p).arr.decoder ≠ some d.id → exec (.arrayPass p) s = .next (s.after (seatPanel p (decoderKey d.id) b0))) ∧
        (∀ w, (b0.pitch p).arr.decoder = some d.id → activePanel b0 p (decoderKey d.id) = some w →
          let dec := r.decoder
          let e := d.encWidth
          let skip := (List.range u.next).foldl (fun a i => a + (layerIn dec e i + 1) * layerOut dec i) 0
          exec (.arrayPass p) s = .next (s.after (passDone u.pitch (b0.q d.q).ctx d.q (slotCycles 2 (livePoints d u).length)
            (b0.modUnit u.uid (fun v => { v with
              cells := v.cells.map (fun c => (c.1, layerPoint dec u.next (layerIn dec e u.next) (d.f 10 1) (w.drop skip) c.2))
              next := u.next + 1, stage := if u.next + 1 = byteAt dec 0 then .combine else .pass }))))))) ∧
    (∀ (p : Nat), p < 32 → let x := s.b.pitch p
      (∀ k u d, x.arr.filling = some k → k ≠ decoderKey k.op → unitOf s.b k.unit = some (u, d) →
        let w := if u.kind = .block then (runBody d.bytes).panel u k.pass else samplePanel d u
        let n := s.b.clk.pitch - x.arr.fillAsked
        let ctx := (s.b.q d.q).ctx
        exec (.shadowFill p) s = .next (s.after (charge 1 n (some ctx) (some d.q) (bump Ctr.arBubbles ctx n
          (s.b.setPitch p { x with arr := { x.arr with shadow := some (k, w), filling := none } }))))) ∧
      (∀ k u d r b1 l w, x.arr.filling = some k → k = decoderKey k.op →
        s.b.units.find? (fun u => u.op = k.op && u.kind = .group && passReady s.b p u) = some u → s.b.desc? u.op = some d → d.run = some r →
        loadLayers u d r.decoder d.encWidth (byteAt r.decoder 0) s.b = (b1, .ok l, w) →
        let y := b1.pitch u.pitch
        let n := b1.clk.pitch - y.arr.fillAsked
        let ctx := (b1.q d.q).ctx
        exec (.shadowFill p) s = .next (s.after (charge 1 n (some ctx) (some d.q) (bump Ctr.arBubbles ctx n (bump Ctr.arDecoderLoads ctx 1
          (b1.setPitch u.pitch { y with arr := { y.arr with active := some (decoderKey d.id, w), shadow := none, filling := none,
                                                            decoder := some d.id } })))))) ∧
      (∀ w, x.arr.filling = none → aheadPanel s.b p = some w →
        exec (.shadowFill p) s = .next (s.after (s.b.setPitch p { x with arr := { x.arr with shadow := some w } }))) ∧
      (x.arr.filling = none → aheadPanel s.b p = none → exec (.shadowFill p) s = .next (s.after s.b))) ∧
    (∀ uid u d r, unitOf s.b uid = some (u, d) → d.work = .units r → u.kind ≠ .bag → s.b.isParked (.unit uid) = false →
      (∀ b1, u.stage = .combine → storeAll u.pitch uid (clsOf s.b d.q) (unitOutput d r u) s.b = (b1, .ok) →
        exec (.unitCommit uid) s = .next (s.after (b1.modUnit uid (fun u => { u with stage := .write })))) ∧
      (u.stage = .write → let b0 := flushUnit u s.b
        let u0 := (b0.unit? uid).getD u
        outputVisible b0 u0 = true →
        (unitMask d = 0 → exec (.unitCommit uid) s = .next (s.after (commitUnit uid (unitCounts d u0 b0)))) ∧
        (∀ b1, unitMask d ≠ 0 → setMaskBit u0.pitch u0.op uid (clsOf b0 d.q) (unitMask d) u0.no b0 = (b1, .ok) →
          exec (.unitCommit uid) s = .next (s.after (commitUnit uid (unitCounts d u0 b1))))))

/-- SCATTER at the requester (R77, R145 to R149, R152, R166, R168): its units are handed out as the forward operator's are; with USE_MASK, a unit whose
mask bit is clear ends and another fetches its input; an index of a bag that is dropped is counted, by its class too, and a valid one whose row's home
is known forms an occurrence of the bag's gradient, by its weight for a weighted sum and divided by the valid count for a mean; a corner of a point
forms one of its level's share of the gradient, by its weight, and a point with a NaN coordinate is dropped; an acknowledgement takes its messages off
the home's account, adds what was frozen, and notes its status. -/
def Obligations.ScatterFormsOccurrencesAndSettles : Prop :=
  ∀ (s : State), Live s →
    (∀ (q : Nat) (d : Desc), q < 256 → handedOf s.b q [0x20] = some d →
      let run : UnitsRun := { d.pre with segs := d.segments, total := forwardUnits d }
      let us := (List.range run.total).map (fun no =>
        ({ no := no, need := if useMask d then [(maskWord d no, 8)] else scatterTiles d run no } : NewUnit))
      let b0 := handAll d.id .scatter (if d.unitOp = 0x10 then pieces 64 us else pieces 1 us)
        (startWork d.id (.scatter { run := run, forward := d.forward }) s.b)
      exec (.scatter q) s = .next (s.after (modScatter d.id (fun r =>
        { r with open_ := ((b0.units.filter (fun u => u.op = d.id)).map (·.pitch)).eraseDups }) b0))) ∧
    (∀ (p : Nat) (u : Machine.Unit) (d : Desc) (r : ScatterRun), p < 32 →
      nextUnit s.b p 3 (s.b.units.filter (scatterReady s.b p)) = some u → s.b.desc? u.op = some d → d.scatter? = some r →
      (∀ w, useMask d = true → u.opened = false → u.input (maskWord d u.no) 8 = some w → anyPoison w = false →
        exec (.scatterOccurrence p) s = .next (s.after (if maskBit w u.no
          then s.b.modUnit u.uid (fun u => { u with opened := true, need := scatterTiles d r.run u.no, have_ := [] })
          else endScatterUnit u s.b))) ∧
      (useMask d = false ∨ u.opened = true → d.unitOp = 0x10 →
        let l := d.forward
        let t := tabOfBag r.run u.no
        let sp := bagSpan l r.run u.no
        let ixVa := field l 48 8 + ixBytes t.ixFmt * sp.1
        t.bad = false → sp.2 ≠ 0 → poisonIn u ixVa (ixBytes t.ixFmt * sp.2) = false →
        (∀ k, (bagIndex u t (ixVa + ixBytes t.ixFmt * u.next)).counter = some k →
          exec (.scatterOccurrence p) s = .next (s.after (nextItem u 1 sp.2 (bump Ctr.scDropIndex d.q 1
            (modScatter d.id (fun r => { r with dropIndex := r.dropIndex + 1 }) (bump k d.q 1 s.b)))))) ∧
        (∀ row b1 chip die, bagIndex u t (ixVa + ixBytes t.ixFmt * u.next) = .valid row → mayOccur s.b u.pitch t = true →
          homeFor u d t row s.b = (b1, .away chip die) → poisonIn u (gradAddr d u.no) (gradBytes d * t.dim) = false →
          let wt := (u.input (field l 56 8 + wtBytes l * (sp.1 + u.next)) (wtBytes l)).getD []
          let w : W32 := if wtBytes l = 2 then b16to32 (le (plain wt)) else BitVec.ofNat 32 (le (plain wt))
          let g := (gradVec d u (gradAddr d u.no) t.dim).map rd32
          let valid := (List.range sp.2).filter (fun i => (bagIndex u t (ixVa + ixBytes t.ixFmt * i)).counter.isNone)
          anyPoison wt = false →
            exec (.scatterOccurrence p) s = .next (s.after (nextItem u 1 sp.2 (occur u d t row chip die
              (if byteAt l 8 = 1 then valid.length else 1) (if byteAt l 8 = 2 then g.map (rd32 w).mul else g)
              (if t.sketch then sketchCount u.pitch t.table row b1 else b1)))))) ∧
      (useMask d = false ∨ u.opened = true → d.unitOp ≠ 0x10 → r.run.tabs.any (·.bad) = false →
        let l := d.forward
        let n := 2 ^ byteAt l 8
        let lv := r.run.levels.length
        let points := min 64 (field l 12 4 - 64 * u.no)
        let pt := u.next / (lv * n)
        let bytes := (u.input (coordAddr l (64 * u.no + pt)) (byteAt l 8 * coordBytes l)).getD []
        let cs := coordsOf l bytes
        anyPoison bytes = false →
        (cs.any (fun c => (rd32 c).isNan) = true → exec (.scatterOccurrence p) s = .next (s.after (nextItem u (lv * n) (points * (lv * n))
          (bump Ctr.scDropIndex d.q 1 (modScatter d.id (fun r => { r with dropIndex := r.dropIndex + 1 }) s.b))))) ∧
        (cs.any (fun c => (rd32 c).isNan) = false →
          let lev := u.next / n % lv
          let e := r.run.levels.getD lev []
          let t := levelTab r.run e
          let c := (cornersOf l e t.rows cs).getD (u.next % n) (0, 0)
          let gVa := gradAddr d (64 * u.no + pt)
          let off := ((r.run.levels.take lev).map (fun e => (levelTab r.run e).dim)).foldl (· + ·) 0
          ∀ b1 chip die, mayOccur s.b u.pitch t = true → homeFor u d t c.1 s.b = (b1, .away chip die) →
            poisonIn u gVa (gradBytes d * d.encWidth) = false →
            exec (.scatterOccurrence p) s = .next (s.after (nextItem u 1 (points * (lv * n)) (occur u d t c.1 chip die 1
              (((gradVec d u (gVa + gradBytes d * off) t.dim).map rd32).map ((rd32 c.2).mul)) b1))))) ∧
      (∀ (t : Captured) row chip die n (xs : List Fp) b, (xs.map (toExact t.accExp n)).any Option.isNone = true →
        occur u d t row chip die n xs b = bump Ctr.scDropNan d.q 1 (modScatter d.id (fun r => { r with dropNan := r.dropNan + 1 }) b))) ∧
    (∀ i r m d x, oldest s.b (fun r => match r.msg with
        | .gradAck _ => true
        | _ => false) = some (i, r) → r.msg = .gradAck m →
      let b0 := heard r.chip (takeRx i r s.b)
      tagOwner b0 m.tag = some (d, x) →
      ((settleOut (m.tag % 32) m.chip m.die m.msgs x.out).2 = 0 → exec .gradAck s = .next (s.after (bump Ctr.sackItemsReplayed 0 1 b0))) ∧
      ((settleOut (m.tag % 32) m.chip m.die m.msgs x.out).2 ≠ 0 →
        let b1 := modScatter d.id (fun x => { x with dropFrozen := x.dropFrozen + m.occFrozen }) b0
        let b2 := if m.overrange then addStatus d.id .overrange b1 else b1
        exec .gradAck s = .next (s.after (accounted d.id (m.tag % 32) m.chip m.die m.msgs
          (if m.status = 1 then addStatus d.id .tableBusy b2 else if m.status = 2 then addStatus d.id .malformed b2
           else if m.status = 3 then addStatus d.id .unreachable b2 else b2)))))

/-- Contributions at their home (R156 to R167): the contributions of the port sack are looked at in order, and the first whose slice does not withhold
its credits goes to the owner slice of its die-local row; one that its slice withholds holds up no message of another slice (R16, R163). A message that
its home's descriptor does not admit is refused with status 2, and one whose slot has ROW_BASE 0 with status 1 (R86); one of a frozen row is dropped
and acknowledged, and another is added exactly into its row's bucket, or joins the run buffer of a VISIT job; where no bucket is left it goes to the
log, and where one cannot be reached it is answered as unplaced. A record that its log has taken leaves the queue, and one that finds the log full
raises LOG_FULL. A run buffer whose oldest entry has waited 4,096 GS cycles is written out; after 1,024 GS cycles what is unacknowledged is
acknowledged. -/
def Obligations.SlicesPlaceContributions : Prop :=
  (∀ (i : Nat) (r : Rx) (m : ContribB) (rest : List (Nat × Rx)) (b : Blk), r.msg = .contrib m →
    let home (b : Blk) := readHome 64 0 (dispatchRef m.ctx m.table) { rt := r.rt, stream := r.stream, ctx := m.ctx } m.table b
    (b.isParked (dispatchRef m.ctx m.table) = true → passContrib ((i, r) :: rest) b = passContrib rest b) ∧
    (b.isParked (dispatchRef m.ctx m.table) = false →
      (∀ b1 t, home b = (b1, .ok t) → let n := ownerSlice b1 (homeOf t m.row).lrow
        passContrib ((i, r) :: rest) b = if withholds b1 n then passContrib rest b1 else toSlice n i r m (homeOf t m.row).lrow true b1) ∧
      (∀ b1, home b = (b1, .bad) →
        passContrib ((i, r) :: rest) b = if withholds b1 0 then passContrib rest b1 else toSlice 0 i r m 0 false b1) ∧
      (∀ b1, home b = (b1, .wait) → passContrib ((i, r) :: rest) b = b1))) ∧
  (∀ (s : State), Live s →
    exec .contrib s = .next (s.after (passContrib (contribsInOrder s.b) s.b)) ∧
    (∀ i r m rest b1 t, contribsInOrder s.b = (i, r) :: rest → r.msg = .contrib m → s.b.isParked (dispatchRef m.ctx m.table) = false →
      readHome 64 0 (dispatchRef m.ctx m.table) { rt := r.rt, stream := r.stream, ctx := m.ctx } m.table s.b = (b1, .ok t) →
        let l := (homeOf t m.row).lrow
        let n := ownerSlice b1 l
        withholds b1 n = false →
        ∃ u, exec .contrib s = .next u ∧ u = s.after (toSlice n i r m l true b1) ∧
          (u.b.slice n).inbox = (b1.slice n).inbox ++ [{ mid := b1.gs.nextMid, b := m, lrow := l, usable := true,
                                                         late := stepRunning b1 m.ctx m.table, rt := r.rt, stream := r.stream }]) ∧
    (∀ (n : Nat) (m : SMsg), n < 64 → nextMsg s.b [] (s.b.slice n).inbox = some m →
      let c : Cls := { rt := m.rt, stream := m.stream, ctx := m.b.ctx }
      let u := UnitRef.msg m.mid
      (m.usable = false → exec (.contribPlace n) s = .next (s.after (ackMsg n m 2 0 (dropMsg n m.mid s.b)))) ∧
      (∀ b1, m.usable = true → readHome n n u c m.b.table s.b = (b1, .bad) →
        exec (.contribPlace n) s = .next (s.after (ackMsg n m 2 0 (dropMsg n m.mid b1)))) ∧
      (∀ b1 t, m.usable = true → readHome n n u c m.b.table s.b = (b1, .ok t) →
        (t.rowBase m.b.slot = 0 → exec (.contribPlace n) s = .next (s.after (ackMsg n m 1 0 (dropMsg n m.mid b1)))) ∧
        (∀ b2, t.rowBase m.b.slot ≠ 0 → freezeCheck n u c t m.lrow b1 = (b2, .frozen) →
          exec (.contribPlace n) s = .next (s.after (ackMsg n m 0 m.b.occ (dropMsg n m.mid (bump Ctr.gsDropFrozen m.b.ctx m.b.occ b2))))) ∧
        (∀ b2, t.rowBase m.b.slot ≠ 0 → freezeCheck n u c t m.lrow b1 = (b2, .free) →
          (isVisit b2 m.b.ctx = true → exec (.contribPlace n) s = .next (s.after (addToRun n m t b2))) ∧
          (isVisit b2 m.b.ctx = false → ∀ b3,
            let probed (k : Nat) (b : Blk) : Blk := charge 5 k (some m.b.ctx) none (bump Ctr.gsProbes m.b.ctx k b)
            (∀ k, probeArena n u c t m.lrow 32 0 b2 = (b3, .none k) →
              exec (.contribPlace n) s = .next (s.after (toLog n m t (probed k b3)))) ∧
            (∀ va k, probeArena n u c t m.lrow 32 0 b2 = (b3, .fail va k) →
              exec (.contribPlace n) s = .next (s.after (unplaced n m va (probed k b3)))) ∧
            (∀ j h k b4 d b5, probeArena n u c t m.lrow 32 0 b2 = (b3, .bucket j h k) →
              let va := bucketAddr t j
              let eva := va + 16 + 12 * (64 * m.b.chunk)
              let sat := h.sat || m.b.sat
              rd (.slice n) u c eva (12 * m.b.elems.length) b3 = (b4, .ok d) → (exactValues d).all (fun o => !o.2) = true →
              let new := List.zipWith (fun (o : Int × Bool) x => exactAdd sat o.1 x) (exactValues d) m.b.elems
              let sats := (new.filter (·.2)).length
              let hdr := bucketHeader m.lrow (sat || decide (0 < sats)) (min (h.occ + m.b.occ) 0xFFFFFFFF)
              wrAll (.slice n) u c [(va, clean hdr), (eva, new.flatMap (fun e => clean (toLe 12 (ofSigned 96 e.1))))] b4 = (b5, .ok) →
              exec (.contribPlace n) s = .next (s.after (placed n m sats (probed k b5)))))))) ∧
    (∀ r b1, nextLog s.b s.b.gs.logq = some r →
      (appendTo r { ctx := r.ctx } 65536 s.b = (b1, .done) →
        let b2 := if r.mode = 1 then bump Ctr.gsOverflowRecords r.ctx 1 (dropLog r b1) else dropLog r b1
        (∀ m, r.msg = some m → exec .overflowAppend s = .next (s.after (placed r.slice m 0 b2))) ∧
        (r.msg = none → exec .overflowAppend s = .next (s.after b2))) ∧
      (∀ h, appendTo r { ctx := r.ctx } 65536 s.b = (b1, .full h) →
        exec .overflowAppend s = .next (s.after (logFull r { ctx := r.ctx } h b1)))) ∧
    (∀ n, n < 64 →
      ((s.b.slice n).run.any (fun e => e.since + 4096 ≤ s.b.clk.gs) = true →
        ∃ u, exec (.runBufferTimer n) s = .next u ∧ (u.b.slice n).run = [] ∧ s.b.gs.logq <+: u.b.gs.logq ∧ u.b.mem = s.b.mem.norm) ∧
      ((s.b.slice n).run.any (fun e => e.since + 4096 ≤ s.b.clk.gs) = false → exec (.runBufferTimer n) s = .next (s.after s.b)) ∧
      exec (.ackTimer n) s = .next (s.after
        (((s.b.slice n).acks.filter (fun a => a.since + 1024 ≤ s.b.clk.gs)).foldl (fun b a => sendAck a b)
          (s.b.setSlice n { s.b.slice n with acks := (s.b.slice n).acks.filter (fun a => !(a.since + 1024 ≤ s.b.clk.gs)) })))))

/-- STEP and PRECOND (R171 to R195). STEP is taken with its captured table; one whose check failed goes straight to its arrival, with an abort vote, or
completes where it is LOCAL or names no instance (R173). PHASE_ONE leaves a STEP that must wait for its turn (R174), and one whose fields are read waits
until its table's messages are placed and its run buffers written (R176). It checks each touched row's freeze bit in turn, as the slice sees it, and
when none is left takes its statistics over the rows that are neither frozen nor poisoned. PHASE_ONE_END: the die then arrives at its barrier, unless an
earlier generation holds it, or with LOCAL goes on. PHASE_TWO waits for the result; a vote or a lost barrier aborts it (R182); otherwise it goes stage by
stage, row by row: a frozen row and a poisoned one only have their buckets emptied, and another's new values, its state and its emptied bucket are
written together, and sent where it is marked. PRECOND is TABLE_BUSY beside a STEP that was dispatched before it, waits for its turn on the array,
writes its factor, or is SINGULAR after its last try. -/
def Obligations.StepRunsInTwoPhases : Prop :=
  (∀ (s : State), Live s →
    (∀ (q : Nat) (d : Desc), q < 256 → handedOf s.b q [0x22] = some d →
      let w : BarWait := { barrier := d.f 10 1 % 16, gen := d.f 12 4, reduce := 1, count := 4, sentAt := none, own := none }
      (d.statuses = [] → exec (.step q) s = .next (s.after
        (startWork d.id (.step { cap := d.tab (d.f 8 2 % 4096) } (if d.isLocal then none else some w)) s.b))) ∧
      (d.statuses ≠ [] → d.isLocal = false → stepInstanceOk d.bytes = true → exec (.step q) s = .next (s.after (startWork d.id
        (.step { cap := { table := d.f 8 2 % 4096, bytes := [], slot := 0 }, begun := true, abort := true, phase := .one } (some w)) s.b))) ∧
      (d.statuses ≠ [] → d.isLocal = true ∨ stepInstanceOk d.bytes = false → exec (.step q) s = .next (s.after (complete d.id s.b)))) ∧
    (∀ id d r w, s.b.desc? id = some d → d.work = .step r w →
      let ctx := (s.b.q d.q).ctx
      let passes (r : StepRun) : Nat := if (parseCoef r.coef).precond then ceilDiv r.live.length 128 * ceilDiv r.cap.dim 64 else 0
      let sum (r : StepRun) (b : Blk) : Blk := ownPasses ctx d.q 0 (passes r) r.cap.dim (modStep id StepRun.statistics b)
      (r.begun = true ∨ s.b.isParked (.desc id) = true ∨ (r.phase = .wait ∧ stepBlocked s.b d r.cap.table = true) →
        exec (.phaseOne id) s = .next (s.after s.b)) ∧
      (r.begun = false → s.b.isParked (.desc id) = false →
        (r.phase = .ready1 → r.got = 3 → accumDrained (closeAccum ctx r.cap.table s.b) ctx r.cap.table = false →
          exec (.phaseOne id) s = .next (s.after (closeAccum ctx r.cap.table s.b))) ∧
        (r.phase = .one → r.todo = [] → exec (.phaseOne id) s = .next (s.after (sum r s.b))) ∧
        (∀ x b1 b2 t, r.phase = .one → r.todo = [x] →
          freezeFields (ownerSlice s.b x.lrow) (.desc id) (clsOf s.b d.q) r.cap s.b = (b1, .ok t) →
          (freezeCheck (ownerSlice s.b x.lrow) (.desc id) (clsOf s.b d.q) t x.lrow b1 = (b2, .free) →
            let r' := { r with todo := [], rows := r.rows ++ [x] }
            exec (.phaseOne id) s = .next (s.after (sum r' (modStep id (fun r => { r with todo := [], rows := r.rows ++ [x] }) b2)))) ∧
          (freezeCheck (ownerSlice s.b x.lrow) (.desc id) (clsOf s.b d.q) t x.lrow b1 = (b2, .frozen) →
            let note (r : StepRun) : StepRun := { r with todo := [], rows := r.rows ++ [{ x with frozen := true }], frozen := r.frozen + 1,
                                                         occFrozen := r.occFrozen + x.occ }
            exec (.phaseOne id) s = .next (s.after (sum (note r) (modStep id note
              (bump Ctr.upRowsFrozen ctx 1 (bump Ctr.upOccFrozen ctx x.occ b2)))))))) ∧
      (r.begun = true → r.phase = .one →
        (w = none → exec (.phaseOneEnd id) s = .next (s.after (modStep id (fun r => { r with phase := .barrier }) s.b))) ∧
        (∀ v, w = some v →
          (barrierHeld s.b d v = true → exec (.phaseOneEnd id) s = .next (s.after s.b)) ∧
          (barrierHeld s.b d v = false → exec (.phaseOneEnd id) s = .next (s.after (modStep id (fun r => { r with phase := .barrier })
            (arriveNow id [r.s0, f64OfNat r.n, f64OfNat r.occ, if r.abort then f64one else 0] none s.b)))))) ∧
      (s.b.isParked (.desc id) = false → r.phase = .barrier → stepResult r w = none → exec (.phaseTwo id) s = .next (s.after s.b)) ∧
      (∀ code vals, d.stage ≠ .complete → s.b.isParked (.desc id) = false → r.phase = .barrier → stepResult r w = some (code, vals) →
        (code ≠ 0 → exec (.phaseTwo id) s = .next (s.after (stepAbort id (addStatus id (resultStatus code) s.b)))) ∧
        (code = 0 → (rd64 0).lt (rd64 (vals.getD 3 0)) = true →
          exec (.phaseTwo id) s = .next (s.after (stepAbort id (addStatus id .tableBusy
            (modStep id (fun r => { r with global := some (vals.getD 0 0, vals.getD 3 0) }) s.b))))) ∧
        (code = 0 → (rd64 0).lt (rd64 (vals.getD 3 0)) = false →
          let stage (b : Blk) : Blk := if b.isParked (.desc id) then b else stepAdvance id b
          let sc := scaleOf (parseCoef r.coef) (vals.getD 0 0)
          let b1 := modStep id (fun r => { r with phase := .two, ran := true, sigma := sc.1, scale := sc.2, todo := r.rows })
            (invalidateTable ctx r.cap.table (bump Ctr.upSteps ctx 1
              (modStep id (fun r => { r with global := some (vals.getD 0 0, vals.getD 3 0) }) s.b)))
          exec (.phaseTwo id) s = .next (s.after (stage (stage (stage (stage (stage b1))))))))) ∧
    (∀ (q : Nat) (d : Desc), q < 256 → handedOf s.b q [0x23] = some d →
      let c := clsOf s.b q
      let t := d.tab (d.f 8 2 % 4096)
      let u := UnitRef.desc d.id
      (d.stepBusy = true → exec (.precond q) s = .next (s.after (completeWith d.id .tableBusy 0 0 s.b))) ∧
      (d.stepBusy = false → arrayYields s.b 0 d.q = true → exec (.precond q) s = .next (s.after s.b)) ∧
      (∀ b1 h, d.stepBusy = false → arrayYields s.b 0 d.q = false → rd (.pitch 0) u c t.precond 64 s.b = (b1, .ok h) →
        (anyPoison h = true → exec (.precond q) s = .next (s.after (completeWith d.id .cancelled 0 0
          (raise (d.err b1 0x12 2 (poisonSource c t.precond b1) t.precond) b1)))) ∧
        (anyPoison h = false → field (plain h) 0 2 ≠ t.dim → exec (.precond q) s = .next (s.after (completeWith d.id .malformed 0 0 b1))) ∧
        (∀ b2 l b3 m b4, anyPoison h = false → field (plain h) 0 2 = t.dim →
          rdMeta (.pitch 0) u c t.coef 128 b1 = (b2, .ok l) →
          rd (.pitch 0) u c (t.precond + 64) (4 * (t.dim * t.dim)) b2 = (b3, .ok m) →
          let noted := if anyPoison m then raise (d.err b3 0x12 2 (poisonSource c t.precond b3) (t.precond + 64)) b3 else b3
          let cm := (pieces 4 m).map (fun x => if anyPoison x then poisonNan else BitVec.ofNat 32 (le (plain x)))
          let lambda := (parseCoef (plain l)).lambda
          let ran := ownPasses c.ctx d.q 0 (factorReach t.dim cm (pivotFloor t.dim cm) 5 lambda) t.dim noted
          let got := factorise t.dim cm (pivotFloor t.dim cm) 5 1 lambda
          (∀ f lam k, got = some (f, lam, k) →
            wrAll (.pitch 0) u (clsOf ran d.q) [(t.precond + 2, clean [1]), (t.precond + 4, clean (toLe 4 lam.toNat)),
              (t.precond + 12, clean [BitVec.ofNat 8 k]), (t.precond + 64 + 4 * (t.dim * t.dim), clean (f32Bytes f))] ran = (b4, .ok) →
            exec (.precond q) s = .next (s.after (completeWith d.id .ok (k + 8) 0 b4))) ∧
          (got = none →
            wrAll (.pitch 0) u (clsOf ran d.q) [(t.precond + 8, clean (toLe 4 (field (plain h) 8 4 + 1))), (t.precond + 12, clean [5])] ran = (b4, .ok) →
            exec (.precond q) s = .next (s.after (completeWith d.id .singular (5 + 8 * boolNat ((byteAt (plain h) 2).testBit 0)) 0
              (bump Ctr.upSingular (clsOf ran d.q).ctx 1 b4))))))) ) ∧
  (∀ r : StepRun, let live := r.rows.filter (fun x => !x.frozen && !x.poisoned)
    r.statistics.begun = true ∧ r.statistics.n = live.length ∧ r.statistics.occ = (live.map StepRow.occ).sum ∧
    r.statistics.s0 = sumSq64 r.cap.accExp ((live.map r.rowSq).sum)) ∧
  (∀ (id fuel : Nat) (b b1 b2 : Blk) (d : Desc) r w x rest t, b.desc? id = some d → d.work = .step r w → r.todo = x :: rest →
    let n := ownerSlice b x.lrow
    freezeFields n (.desc id) (clsOf b d.q) r.cap b = (b1, .ok t) →
    (freezeCheck n (.desc id) (clsOf b d.q) t x.lrow b1 = (b2, .free) → stepFreeze id (fuel + 1) b =
      stepFreeze id fuel (modStep id (fun r => { r with todo := rest, rows := r.rows ++ [x] }) b2)) ∧
    (freezeCheck n (.desc id) (clsOf b d.q) t x.lrow b1 = (b2, .frozen) → stepFreeze id (fuel + 1) b =
      stepFreeze id fuel (modStep id (fun r => { r with todo := rest, rows := r.rows ++ [{ x with frozen := true }], frozen := r.frozen + 1,
                                                        occFrozen := r.occFrozen + x.occ })
        (bump Ctr.upRowsFrozen (clsOf b d.q).ctx 1 (bump Ctr.upOccFrozen (clsOf b d.q).ctx x.occ b2))))) ∧
  (∀ (id : Nat) (b : Blk) (d : Desc) r w, b.desc? id = some d → d.work = .step r w → r.phase = .two →
    (r.prog = 0 → stepAdvance id b = stepColumn id d r b) ∧ (r.prog = 1 → stepAdvance id b = stepPrecond id d r b) ∧
    (2 ≤ r.prog → r.todo = [] → stepAdvance id b = stepEmpty id d r b) ∧
    (2 ≤ r.prog → r.todo ≠ [] → stepAdvance id b = stepRows id r.todo.length b) ∧
    (∀ x rest b1 fuel, r.todo = x :: rest → stepRow id d r x b = (b1, true) → stepRows id (fuel + 1) b = stepRows id fuel b1)) ∧
  (∀ (id : Nat) (b : Blk) (d : Desc) (r : StepRun) (x : StepRow),
    let t := r.cap
    let c := clsOf b d.q
    let rq := Rq.slice (ownerSlice b x.lrow)
    (∀ b1, x.frozen = true → wrAll rq (.desc id) c (zeroBucket t x) b = (b1, .ok) → stepRow id d r x b = (nextRow id b1, true)) ∧
    (∀ b1, x.frozen = false → x.poisoned = true ∨ r.pcBad = true → wrAll rq (.desc id) c (zeroBucket t x) b = (b1, .ok) →
      stepRow id d r x b = (nextRow id (addStatus id .overrange (bump Ctr.rowsPoisoned c.ctx 1 b1)), true)) ∧
    (∀ b1 b2 b3 b4 rowD stD m, x.frozen = false → x.poisoned = false → r.pcBad = false →
      readItem id rq c (rowAddr t t.slot x.lrow) t.rowBytes b = (b1, .ok rowD) →
      readItem id rq c (t.stateBase + x.lrow * t.stateStride) t.stateBytes b1 = (b2, .ok stD) →
      let u := rowUpdate r.fixed t.dim (r.grads x) (meanSq t.accExp (r.rowSq x) t.dim) (rowElems t rowD) (readState t r.fixed.c (plain stD))
      allFinite (u.1 ++ u.2.m ++ u.2.v ++ (if t.rowScalar then [u.2.vr] else [])) = true →
      findMarker rq (.desc id) c t (globalRow b2 t r.pos x.lrow) b2 = (b3, m) →
      m = .unmarked ∨ (m = .marked ∧ treeRoom b3 b3.ident.chip b3.ident.die (id % 2 ^ 32) = true) →
      let o := rowOut t (globalRow b2 t r.pos x.lrow) (d.f 16 8) b3.stamp u.1
      wrAll rq (.desc id) c ((rowAddr t t.slot x.lrow, clean (strideBytes t o.1))
        :: (if (stateOut t u.2).isEmpty then [] else [(t.stateBase + x.lrow * t.stateStride, clean (stateOut t u.2))]) ++ zeroBucket t x)
        { b3 with stamp := b3.stamp + 1 } = (b4, .ok) →
      let counted := modStep id (fun r => { r with updated := r.updated + 1, occUpdated := r.occUpdated + x.occ })
        (charge 7 1 (some c.ctx) (some d.q) (bump Ctr.upRowsUpdated c.ctx 1 (solvePasses d r b4)))
      let noted := if o.2 then addStatus id .overrange (modStep id (fun r => { r with reqSat := true })
        (bump Ctr.upReqSaturated c.ctx 1 counted)) else counted
      let sent := if m = .marked then refreshRow id c t (globalRow b3 t r.pos x.lrow) (o.1.take t.rowBytes)
        (modStep id (fun r => { r with refreshed := r.refreshed + 1 }) noted) else noted
      stepRow id d r x b = (nextRow id sent, true)))

/-- REFRESH (R174, R197 to R199, R318, R319): it is TABLE_BUSY beside a STEP on its table that was dispatched before it, completes at once for a table of
no group, and otherwise goes through its items, each row that is marked being sent, and completes when its tree has every acknowledgement. A refresh
message that comes writes this die's replica on a hit, counts a miss, and joins its tree, whose own branch is acknowledged at once; an acknowledgement
raises its branch's count; what has risen is passed on at 64 rows, or 2,048 CK_CORE cycles after a rise that is not acknowledged, and a tree
whose every row is acknowledged is dropped. -/
def Obligations.RefreshesAreSentAndAcknowledged : Prop :=
  (∀ (s : State), Live s →
    (∀ (q : Nat) (d : Desc) c mode, q < 256 → (c, mode) ∈ [(Instr.refreshMarked q, 0), (.refreshList q, 1)] →
      handedOf s.b q [0x24] = some d → d.f 10 1 = mode →
      let ctx := (s.b.q q).ctx
      let t := d.tab (d.f 8 2 % 4096)
      let go (b : Blk) : Blk := match refreshGoing b q mode with
        | some e => refreshRun e.id (((e.refresh?).map (refreshItems e)).getD 0 + 1) b
        | none => b
      (d.stepBusy = true → exec c s = .next (s.after (go (completeWith d.id .tableBusy 0 0 s.b)))) ∧
      (d.stepBusy = false → t.group = 0xFFFF →
        exec c s = .next (s.after (go (completeWith d.id .ok 0 0 (invalidateTable ctx t.table s.b))))) ∧
      (d.stepBusy = false → t.group ≠ 0xFFFF →
        exec c s = .next (s.after (go (startWork d.id (.refresh { cap := t }) (invalidateTable ctx t.table s.b)))))) ∧
    (∀ i r m, oldest s.b (fun r => match r.msg with
        | .refresh m => !(s.b.isParked (refreshRef m)) && treeRoom s.b m.srcChip m.srcDie m.tag
        | _ => false) = some (i, r) → r.msg = .refresh m →
      (∀ b1, isMemberHere s.b r = true → ownRefresh (r.cls m.ctx) m s.b = (b1, .done) →
        exec .refresh s = .next (s.after (takeCopy i r m true false b1))) ∧
      (∀ b1, isMemberHere s.b r = true → ownRefresh (r.cls m.ctx) m s.b = (b1, .failed) →
        exec .refresh s = .next (s.after (takeCopy i r m true true b1))) ∧
      (∀ b1, isMemberHere s.b r = true → ownRefresh (r.cls m.ctx) m s.b = (b1, .wait) → exec .refresh s = .next (s.after b1)) ∧
      (isMemberHere s.b r = false → exec .refresh s = .next (s.after (takeCopy i r m false false s.b)))) ∧
    (∀ i r tag rows bad, oldest s.b (fun r => match r.msg with
        | .refreshAck .. => true
        | _ => false) = some (i, r) → r.msg = .refreshAck tag rows bad →
      (∀ a, ackedTree s.b tag (branchOf r.via) = some a →
        exec .refreshAck s = .next (s.after (finishTrees (bumpTree (ackBranch (branchOf r.via) rows bad) a (takeRx i r s.b))))) ∧
      (ackedTree s.b tag (branchOf r.via) = none → exec .refreshAck s = .next (s.after (takeRx i r s.b)))) ∧
    exec .refreshAckTimer s = .next (s.after
      (s.b.ridge.agg.foldl (fun b a => if a.since + 2048 ≤ b.clk.core then treeProgress true a b else b) s.b)) ∧
    (∀ a, s.b.ridge.agg = [a] → exec .refreshAckTimer s =
      .next (s.after (if a.since + 2048 ≤ s.b.clk.core then treeProgress true a s.b else s.b)))) ∧
  (∀ id f b b1 d r, Blk.desc? b id = some d → d.refresh? = some r →
    let next (b : Blk) : Blk := modRefresh id (fun r => { r with next := r.next + 1 }) b
    (refreshItems d r ≤ r.next →
      refreshRun id (f + 1) b = refreshClose id (closeTree id (modRefresh id (fun r => { r with done := true }) b))) ∧
    (r.next < refreshItems d r →
      (∀ row b2, refreshItem d r r.next b = (b1, .row row) → refreshSend d r row b1 = (b2, true) → refreshRun id (f + 1) b = refreshRun id f b2) ∧
      (refreshItem d r r.next b = (b1, .skip) → refreshRun id (f + 1) b = refreshRun id f (next b1)) ∧
      (refreshItem d r r.next b = (b1, .drop) →
        refreshRun id (f + 1) b = refreshRun id f (modRefresh id (fun r => { r with skipped := r.skipped + 1 }) (next b1))) ∧
      (∀ st, refreshItem d r r.next b = (b1, .bad st) → refreshRun id (f + 1) b = refreshRun id f (addStatus id st (next b1))) ∧
      (refreshItem d r r.next b = (b1, .wait) → refreshRun id (f + 1) b = b1)) ∧
    (∀ a, r.done = true → treeOf b id = some a →
      (a.done = false → refreshClose id b = b) ∧
      (a.done = true → refreshClose id b =
        completeWith id (if a.failed then .unreachable else .ok) (min r.sent 0xFFFFFFFF) (min r.skipped 0xFFFFFFFF) (dropTree a b)))) ∧
  (∀ (d : Desc) (r : RefreshRun) row l b b1, treeRoom b b.ident.chip b.ident.die (d.id % 2 ^ 32) = true →
    let c := clsOf b d.q
    rd (.slice 0) (.desc d.id) c (rowAddr r.cap r.cap.slot (homeOf r.cap row).lrow) r.cap.rowBytes b = (b1, .ok l) → anyPoison l = false →
    refreshSend d r row b = (modRefresh d.id (fun r => { r with sent := r.sent + 1 }) (modRefresh d.id (fun r => { r with next := r.next + 1 })
      (refreshRow d.id c r.cap row (plain l) b1)), true)) ∧
  (∀ c m b b1 b2 b3 l e va,
    let t : Captured := { table := m.table, bytes := plain l, slot := m.slot }
    readTable (.slice 0) (refreshRef m) c m.table b = (b1, .ok l) → t.shapeOk = true →
    (probeReplica (.slice 0) (refreshRef m) c t m.slot m.row b1 = (b2, .hit e, va) →
      wr (.slice 0) (refreshRef m) c va (clean (strideBytes t m.data)) b2 = (b3, .ok) → ownRefresh c m b = (b3, .done)) ∧
    (probeReplica (.slice 0) (refreshRef m) c t m.slot m.row b1 = (b2, .miss, va) →
      ownRefresh c m b = (bump Ctr.upRefreshMisses c.ctx 1 b2, .done))) ∧
  (∀ i r m own bad b, let c := takeRx i r b
    let h : PktHdr := (r.hdr).getD { ptype := 0x14, vc := ridgeVc 0x14, len := 0, dst := 0, src := chipDie m.srcChip m.srcDie,
                                     rt := r.rt, stream := r.stream }
    let joined := treeCopy r.group h r.via none true m (invalidateTable m.ctx m.table c)
    takeCopy i r m own bad b = match findTree joined m.srcChip m.srcDie m.tag with
      | some a => if own then bumpTree (ackBranch (0, 0) 1 bad) a joined else treeProgress false a joined
      | none => joined) ∧
  (∀ (timer : Bool) (a : RefreshAgg) b, let n := a.least - a.acked
    let a' := { a with acked := a.least }
    (a.op ≠ none ∨ (n < 64 ∧ (timer = false ∨ n = 0)) → treeProgress timer a b = putTree a b) ∧
    (a.op = none → 64 ≤ n ∨ (timer = true ∧ 0 < n) →
      treeProgress timer a b = if a.least = a.rows then dropTree a' (sendRefreshAck a n b) else putTree a' (sendRefreshAck a n b))) ∧
  (∀ (k : Nat × Nat) n bad (a : RefreshAgg) b, let a' := ackBranch k n bad a
    a'.failed = (a.failed || bad) ∧
    a'.branches = a.branches.map (fun x => if x.kind = k.1 ∧ x.no = k.2 then { x with count := min a.rows (x.count + n) } else x) ∧
    bumpTree (ackBranch k n bad) a b = treeProgress false (if a.least < a'.least then { a' with since := b.clk.core } else a') b)

/-- TABLE_SWAP (R83, R84, R200), COPY (R253 to R258) and BIAS_FLIP (R244 to R248). A swap to the slot that is active as it runs or to an empty one is
MALFORMED, one to a slot being retired or beside a STEP dispatched before it TABLE_BUSY; another writes ACTIVE and drops what was cached and captured of
the table, and it completes when nothing uses the old slot. A COPY is taken by an engine; each of its tiles is read whole and written whole, and is
counted once its bytes are visible; one that cannot reach its target ends the COPY, one whose metadata is poisoned is skipped. A BIAS_FLIP changes the
bias of a granule of device memory once its lines are clean and no back-invalidation is out, writes an override for one of host memory, and passes over
one that has the bias already. -/
def Obligations.SwapCopyAndBiasFlip : Prop :=
  (∀ (s : State), Live s →
    (∀ (q : Nat) (d : Desc), q < 256 → handedOf s.b q [0x28] = some d →
      let c := clsOf s.b q
      let t := d.tab (d.f 8 2 % 4096)
      let v := d.f 10 1 % 4
      let dva := (ctxHdr s.b c.ctx).tableDir + 256 * t.table
      (∀ b1 st, rd .front (.desc d.id) c (dva + 19) 1 s.b = (b1, .fail st) →
        exec (.tableSwap q) s = .next (s.after (completeWith d.id st 0 0 b1))) ∧
      (∀ b1 a, rd .front (.desc d.id) c (dva + 19) 1 s.b = (b1, .ok a) →
        let old := byteAt (plain a) 0 % 4
        (anyPoison a = true → exec (.tableSwap q) s =
          .next (s.after (completeWith d.id .cancelled 0 0 (raise (d.err b1 0x12 0 (poisonSource c dva b1) dva) b1)))) ∧
        (anyPoison a = false → v = old ∨ t.rowBase v = 0 → exec (.tableSwap q) s = .next (s.after (completeWith d.id .malformed 0 0 b1))) ∧
        (anyPoison a = false → v ≠ old → t.rowBase v ≠ 0 → (c.ctx, t.table, v) ∈ b1.retiring ∨ d.stepBusy = true →
          exec (.tableSwap q) s = .next (s.after (completeWith d.id .tableBusy 0 0 b1))) ∧
        (∀ b2, anyPoison a = false → v ≠ old → t.rowBase v ≠ 0 → (c.ctx, t.table, v) ∉ b1.retiring → d.stepBusy = false →
          wr .front (.desc d.id) c (dva + 19) [(BitVec.ofNat 8 v, false)] b1 = (b2, .ok) →
          let b3 := recapture c.ctx t.table (invalidateTable c.ctx t.table (dropCached (tableLines c dva b2) b2))
          exec (.tableSwap q) s = .next (s.after
            (startWork d.id (.swap t old) { b3 with retiring := b3.retiring ++ [(c.ctx, t.table, old)] }))))) ∧
    (∀ id d t old, s.b.desc? id = some d → d.work = .swap t old →
      let ctx := (s.b.q d.q).ctx
      let used := slotHeld s.b id ctx t.table old || slotAsked s.b ctx t.table old
      (used = true → exec (.slotRetired id) s = .next (s.after s.b)) ∧
      (used = false → exec (.slotRetired id) s = .next (s.after (completeWith id .ok (t.vtag old) 0
        { s.b with retiring := s.b.retiring.filter (· ≠ (ctx, t.table, old)) })))) ∧
    (∀ (q : Nat) (d : Desc), q < 256 → handedOf s.b q [0x30] = some d → exec (.copy q) s = .next (s.after
      (startWork d.id (.copy { inbound := copyInbound s.b d, tiles := copyTiles d.bytes,
                               engine := if byteAt d.bytes 11 = 0xFF then freeEngine s.b (copyInbound s.b d) else byteAt d.bytes 11 }) s.b))) ∧
    (∀ id d r, s.b.desc? id = some d → d.work = .copy r → s.b.isParked (.desc id) = false → r.next < r.tiles →
      let c := clsOf s.b d.q
      let rq := if r.inbound then Rq.copyIn r.engine else Rq.copyOut r.engine
      let pcs := copyPieces d.bytes r.next
      let srcs := pcs.1.flatMap (fun p => partsOf p.1 p.2)
      let aux := r.committed % 2 ^ 32
      let freed (b : Blk) : Blk := forgetUnit (.desc id) b
      (∀ n, r.writing = some n → exec (.copyTile id) s = .next (s.after (copyWritten id n s.b))) ∧
      (r.writing = none →
        (∀ b1 l, rdParts rq (.desc id) c srcs s.b = (b1, .ok l) →
          ∀ b2, (wrAll rq (.desc id) c (dealOut pcs.2 (copyArrange d.bytes pcs l)) b1 = (b2, .ok) →
              exec (.copyTile id) s = .next (s.after (copyWritten id l.length (copyPoison d r pcs.1 l (freed b2))))) ∧
            (∀ st, wrAll rq (.desc id) c (dealOut pcs.2 (copyArrange d.bytes pcs l)) b1 = (b2, .fail st) →
              exec (.copyTile id) s = .next (s.after (completeWith id st aux 0 (freed b2)))) ∧
            (wrAll rq (.desc id) c (dealOut pcs.2 (copyArrange d.bytes pcs l)) b1 = (b2, .badMeta) →
              exec (.copyTile id) s = .next (s.after (copyTileFails id (freed b2)))) ∧
            ((∃ w ∈ [Wr.fault, .wait], wrAll rq (.desc id) c (dealOut pcs.2 (copyArrange d.bytes pcs l)) b1 = (b2, w)) →
              exec (.copyTile id) s = .next (s.after (holdTile (.desc id) srcs l b2)))) ∧
        (∀ b1 st, rdParts rq (.desc id) c srcs s.b = (b1, .fail st) →
          exec (.copyTile id) s = .next (s.after (completeWith id st aux 0 (freed b1)))) ∧
        (∀ b1, rdParts rq (.desc id) c srcs s.b = (b1, .badMeta) →
          exec (.copyTile id) s = .next (s.after (copyTileFails id (freed b1)))) ∧
        (∀ b1, (∃ x ∈ [Rd.fault, .wait], rdParts rq (.desc id) c srcs s.b = (b1, x)) → exec (.copyTile id) s = .next (s.after b1)))) ∧
    (∀ (q : Nat) (d : Desc), q < 256 → handedOf s.b q [0x31] = some d →
      exec (.biasFlip q) s = .next (s.after (startWork d.id (.bias {}) s.b))) ∧
    (∀ id d r, s.b.desc? id = some d → d.work = .bias r → s.b.isParked (.desc id) = false →
      let c := clsOf s.b d.q
      let shared := d.f 8 1 == 1
      let va := d.f 16 8 + r.next * 2 ^ 21
      (∀ g, r.waiting = true → s.b.host.flipping = some g → exec (.biasFlipGranule id) s = .next (s.after (biasDevice id g shared s.b))) ∧
      (r.waiting = false →
        (∀ b1 pa seg gran now, translate .front (.desc id) c va false false s.b = (b1, .ok pa true seg gran now) →
          exec (.biasFlipGranule id) s = .next (s.after (biasHost id c.ctx seg gran pa shared now b1))) ∧
        (∀ b1 pa seg gran now, translate .front (.desc id) c va false false s.b = (b1, .ok pa false seg gran now) →
          let g := paOff pa / 2 ^ 21
          (paChip pa ≠ b1.ident.chip → exec (.biasFlipGranule id) s = .next (s.after (biasNext id false true b1))) ∧
          (∀ b2, paChip pa = b1.ident.chip → paDie pa ≠ b1.ident.die →
            (∀ st, tryReach c.ctx (paChip pa) (paDie pa) b1 = (b2, some st) →
              exec (.biasFlipGranule id) s = .next (s.after (completeWith id st r.changed r.skipped b2))) ∧
            (tryReach c.ctx (paChip pa) (paDie pa) b1 = (b2, none) → exec (.biasFlipGranule id) s = .next (s.after
              (biasNext id (Config.peerBiasChanged b2.stamp pa) false { b2 with stamp := b2.stamp + 1 })))) ∧
          (paChip pa = b1.ident.chip → paDie pa = b1.ident.die →
            (b1.host.owned.get false g = !shared → exec (.biasFlipGranule id) s = .next (s.after (biasNext id false false b1))) ∧
            (b1.host.owned.get false g = shared → b1.host.flipping = none → exec (.biasFlipGranule id) s = .next (s.after
              (biasDevice id g shared (cleanGranule (b1.selfPa (g * 2 ^ 21)) (2 ^ 21)
                { b1 with host := { b1.host with flipping := some g } }))))))))) ∧
  (∀ id d n (b : Blk), b.desc? id = some d →
    (b.writesDone (.desc id) = true → copyWritten id n b = copyCommitted d n b) ∧
    (b.writesDone (.desc id) = false → copyWritten id n b = modCopy id (fun r => { r with writing := some n }) b)) ∧
  (∀ (d : Desc) r srcs l (b : Blk), anyPoison l = false → copyPoison d r srcs l b = b) ∧
  (∀ id g (shared : Bool) (b : Blk), let ls := granLines b g
    (shared = true ∨ ls = [] → biasDevice id g shared b =
      biasNext id true false { b with host := { b.host with owned := b.host.owned.set g (!shared), flipping := none } }) ∧
    (shared = false → ls ≠ [] → biasDevice id g shared b = modBias id (fun r => { r with waiting := true }) (sendSnoops ls b))) ∧
  (∀ id ctx seg gran pa (shared now : Bool) (b : Blk),
    let mine (e : Nat × Nat × Nat × Bool) : Bool := e.1 = ctx && e.2.1 = seg && e.2.2.1 = gran
    let b1 := cleanGranule (lineKey pa true) (2 ^ 21) b
    let lost := b.straps.lead && b.host.state == 2
    (lost = true → biasHost id ctx seg gran pa shared now b = biasNext id false true (addStatus id .hostLost b)) ∧
    (lost = false → now = shared → biasHost id ctx seg gran pa shared now b = biasNext id false false b) ∧
    (lost = false → now ≠ shared → 256 ≤ b.host.override.length → b.host.override.any mine = false →
      biasHost id ctx seg gran pa shared now b = biasNext id false true b) ∧
    (lost = false → now ≠ shared → b.host.override.length < 256 ∨ b.host.override.any mine = true →
      biasHost id ctx seg gran pa shared now b = biasNext id true false { b1 with host := { b1.host with
        override := b1.host.override.filter (fun e => !mine e) ++ [(ctx, seg, gran, shared)] } }))

/-! ### Memory, translation and caches -/

/-- Input tiles, prefetches, fills, hints and write completions (R221, R229, R236, R401, R403): a tile that has been read joins its unit's input, counts
its sectors and shows its lines to its reader's detector; a fill that comes clean is installed, one that does not is given to those that asked for it; what
a detector looks ahead to is fetched into the sack of its pitch, or for a ring into the descriptor cache; a hint that is taken leaves the port, a dirty one being
written; one that is declined is counted, or written with an error record when dirty; a write reported done is in memory, once the host gave back the lines
it held. -/
def Obligations.TilesFillsHintsAndWritesComplete : Prop :=
  (∀ (s : State), Live s →
    (∀ uid u d va n rest b1 l, unitOf s.b uid = some (u, d) → s.b.isParked (.unit uid) = false → u.need = (va, n) :: rest →
      rd (.pitch u.pitch) (.unit uid) (clsOf s.b d.q) va n s.b = (b1, .ok l) →
      let b2 := pitchSectors (b1.q d.q).ctx d.q (sectorsOf va n) b1
      exec (.tileCommit uid) s = .next (s.after (openSample uid
        ((consumed d.id (va + n) u.pitch (feedTile u.pitch d va n b2)).modUnit uid (fun u' =>
          { u' with need := rest, have_ := u'.have_ ++ [(va, withPrefetched (b2.pitch u.pitch) d.id va l)] }))))) ∧
    (∀ p key ctx shared rest, p < 32 → (s.b.pitch p).mdc.misses = (key, ctx, shared) :: rest →
      let got := readPhys (.mdc p) { ctx := ctx, shared := shared } (key % 2 ^ 63) 128 (decide (2 ^ 63 ≤ key)) s.b
      let x := got.1.pitch p
      let b1 := got.1.setPitch p { x with mdc := { x.mdc with misses := x.mdc.misses.drop 1 } }
      let given (l : List PByte) : Blk := { b1 with xlat := { b1.xlat with held := b1.xlat.held ++ [(.mdc p, key, l)] } }
      (∀ l, got.2 = .ok l → anyPoison l = false →
        exec (.mdcFill p) s = .next (s.after (mdcInstall p { addr := key, data := l, dirty := false, ctx := ctx } b1))) ∧
      (∀ l, got.2 = .ok l → anyPoison l = true → exec (.mdcFill p) s = .next (s.after (given l))) ∧
      (∀ st, got.2 = .fail st → exec (.mdcFill p) s = .next (s.after (given []))) ∧
      (got.2 = .wait → exec (.mdcFill p) s = .next (s.after got.1))) ∧
    (∀ h rest, s.b.xlat.hints = h :: rest →
      let b0 := { s.b with xlat := { s.b.xlat with hints := rest } }
      (h.dirty = true → exec .hintTake s = .next (s.after (recheckAgain (hintWrite h b0))) ∧
        exec .hintDecline s = .next (s.after (raise { cause := 0x10, unit := 1, detail := 1 } (recheckAgain (hintWrite h b0))))) ∧
      (h.dirty = false → exec .hintTake s = .next (s.after (recheckAgain b0)) ∧
        exec .hintDecline s = .next (s.after (bump Ctr.mdHintDeclined 0 1 b0)))) ∧
    (∀ uid u d, unitOf s.b uid = some (u, d) → 0 < prefetchDepth s.b → s.b.isParked (.unit uid) = false →
      exec (.prefetch (.unit uid)) s = .next (s.after
        (prefetchUnit u (clsOf s.b d.q) (unitAhead s.b u d (prefetchDepth s.b)) s.b))) ∧
    (∀ n, 0 < prefetchDepth s.b → s.b.obj Obj.descEn 0 ≠ 0 → fetching s.b n = true → (s.b.q n).fetch < (s.b.q n).tailSlots →
      let x := s.b.q n
      let slot := x.fetch % x.span
      let first := x.ringBase.toNat + 64 * slot
      let last := first + 64 * (min (x.tailSlots - x.fetch) (x.span - slot) - 1)
      exec (.prefetch (.fetch n)) s = .next (s.after (prefetchRing n (clsOf s.b n)
        (((x.det.next (prefetchDepth s.b)).map (128 * ·)).filter (fun va => first < va + 128 && va ≤ last)) s.b))) ∧
    (∀ tag w, tag < 65536 → s.b.gs.writes.find? (fun w => w.1 = tag) = some w → writeBlocked s.b.gs.writes w = false →
      (snoopLines s.b w.2.1 w.2.2.1.length ≠ [] →
        exec (.gsWdone tag) s = .next (s.after (sendSnoops (snoopLines s.b w.2.1 w.2.2.1.length) s.b))) ∧
      (snoopLines s.b w.2.1 w.2.2.1.length = [] → w.2.1 + w.2.2.1.length ≤ s.b.installed → (∀ p ∈ s.b.xlat.parked, p.again = none) →
        ∃ t, exec (.gsWdone tag) s = .next t ∧ t.b.mem = (s.b.mem.write w.2.1 w.2.2.1).norm ∧
          t.b.gs.writes = s.b.gs.writes.filter (fun v => v.1 ≠ tag) ∧ t.b.front.descs = s.b.front.descs ∧ t.b.xlat = s.b.xlat))) ∧
  (∀ (d : Desc) (x : Detector) p va n k lo len b, d.streamAt va = some (k, lo, len) → (b.pitch p).det.get {} k = x →
    let lines := (List.range ((va + n - 1) / 128 + 1 - va / 128)).map (fun i => va / 128 + i)
    let y := b.pitch p
    feedTile p d va n b = b.setPitch p { y with det := y.det.set k (lines.foldl Detector.feed x) }) ∧
  (∀ (u : Machine.Unit) (c : Cls) va n rest b b1 b2 pa host seg gran sh l,
    translate (.pitch u.pitch) (.unit u.uid) c va false false b = (b1, .ok pa host seg gran sh) →
    readPhys (.unit u.uid) (c.biased host sh) pa n host b1 = (b2, .ok l) →
    prefetchUnit u c ((va, n) :: rest) b = prefetchUnit u c rest (bump Ctr.pfLines c.ctx 1
      (b2.setPitch u.pitch (let x := b2.pitch u.pitch; { x with ahead := x.ahead ++ [(u.op, va, l)] })))) ∧
  (∀ n (c : Cls) va rest b b1 b2 pa host seg gran sh l,
    translate .front (.fetch n) c va false false b = (b1, .ok pa host seg gran sh) →
    let key := lineKey pa host
    (b1.xlat.desc.find key ≠ none → prefetchRing n c (va :: rest) b = prefetchRing n c rest b1) ∧
    (b1.xlat.desc.find key = none → readPhys (.fetch n) (c.biased host sh) pa 128 host b1 = (b2, .ok l) →
      prefetchRing n c (va :: rest) b = prefetchRing n c rest (bump Ctr.pfLines c.ctx 1
        { b2 with xlat := { b2.xlat with desc := b2.xlat.desc.fillRr { addr := key, data := l, dirty := false, ctx := c.ctx } } })))

/-- Faults and RESUME (R213 to R219). A batch that is due offers every record: with no ring it is lost and counted, with room its 32 bytes are written at
the context's next place and its key is outstanding, and without room it stays. FAULT_HEAD takes what is written. RESUME clears the context's keys, looks at
its full logs again and rechecks what is parked, on every die: an access that translates is parked no longer, one that must wait for memory is rechecked once it
has come, and one that still faults is reported again, or with ABORT its unit is ended. -/
def Obligations.FaultsAreReportedAndResumed : Prop :=
  ∀ (s : State), Live s →
    exec .faultBatchTimer s = .next (s.after (if batchDue s.b then faultBatch s.b else s.b)) ∧
    (∀ (r : FaultRec) (b : Blk) l, let h := ctxHdr b r.ctx
      let w := b.xlat.written.get 0 r.ctx
      (h.ringOk = false → offerFault r (b, l) = (bump Ctr.ftLost r.ctx 1 b, l)) ∧
      (h.ringOk = true → ringRoom b r.ctx = false → offerFault r (b, l) = (b, l ++ [{ r with held := true }])) ∧
      (h.ringOk = true → ringRoom b r.ctx = true → b.xlat.outstanding.length < 256 →
        let c := (offerFault r (b, l)).1
        (offerFault r (b, l)).2 = l ∧ c.mem = (gsWriteB (h.ring + 32 * (w % 2 ^ h.log2)) (faultBytes b r) b).mem ∧
        c.xlat.written.get 0 r.ctx = (w + 1) % 2 ^ 32 ∧
        c.xlat.outstanding = b.xlat.outstanding ++ [{ ctx := r.ctx, cause := r.cause, seg := r.seg, gran := r.gran, mask := r.mask }])) ∧
    (∀ fn die ctx v, fn < 64 → die < 4 → ctx < 64 →
      (hostReaches s.b = false → exec (.faultHeadWrite fn die ctx v) s = .next (s.after s.b)) ∧
      (hostReaches s.b = true → fn ≠ 0 → ownsCtx s.b fn ctx = false →
        exec (.faultHeadWrite fn die ctx v) s = .next (s.after (bump Ctr.hsForeignWrites 0 1 s.b))) ∧
      (hostReaches s.b = true → fn = 0 ∨ ownsCtx s.b fn ctx = true →
        (die = s.b.ident.die → exec (.faultHeadWrite fn die ctx v) s = .next (s.after (faultHeadHere ctx v s.b))) ∧
        (die ≠ s.b.ident.die → s.b.diePresent die = true → exec (.faultHeadWrite fn die ctx v) s =
          .next (s.after (forwardWrite die 2 fn 0 (0x100 + 0x200 * die + 8 * ctx) v s.b))))) ∧
    (∀ ctx (v : W64) (b : Blk), let b1 := { b with xlat := { b.xlat with head := b.xlat.head.set ctx (v.toNat % 2 ^ 32) } }
      (b.xlat.head.get 0 ctx = v.toNat % 2 ^ 32 ∨ b.xlat.staging.any (fun r => r.held && r.ctx = ctx) = false → faultHeadHere ctx v b = b1) ∧
      (b.xlat.staging.any (fun r => r.held && r.ctx = ctx) = true → b.xlat.head.get 0 ctx ≠ v.toNat % 2 ^ 32 →
        faultHeadHere ctx v b = faultBatch b1)) ∧
    (∀ fn (v : W64) c (abort : Bool), fn < 64 → (c, abort) ∈ [(Instr.resume fn v, false), (.resumeAbort fn v, true)] → v.toNat.testBit 8 = abort →
      let ctx := bitsOf v.toNat 5 0
      (hostReaches s.b = false → exec c s = .next (s.after s.b)) ∧
      (hostReaches s.b = true → fn ≠ 0 → ownsCtx s.b fn ctx = false → exec c s = .next (s.after (bump Ctr.hsForeignWrites 0 1 s.b))) ∧
      (hostReaches s.b = true → fn = 0 ∨ ownsCtx s.b fn ctx = true →
        exec c s = .next (s.after (toOthers fn 0x018 v (resumeHere ctx abort s.b))))) ∧
    (∀ ctx abort (b : Blk),
      let b1 := bump Ctr.ftResumes ctx 1 b
      let b2 := reopenLogs ctx { b1 with xlat := { b1.xlat with outstanding := b1.xlat.outstanding.filter (fun k => k.ctx ≠ ctx) } }
      (b2.xlat.parked.filter (fun p => p.ctx = ctx) = [] → resumeHere ctx abort b = b2) ∧
      (∀ p, b2.xlat.parked.filter (fun p => p.ctx = ctx) = [p] → resumeHere ctx abort b = recheck abort p b2) ∧
      (∀ p p', b2.xlat.parked.filter (fun p => p.ctx = ctx) = [p, p'] → resumeHere ctx abort b = recheck abort p' (recheck abort p b2))) ∧
    (∀ (abort : Bool) (p : Parked) (b b1 : Blk), let mine (q : Parked) : Bool := q.unit = p.unit && q.va = p.va && q.write = p.write
      let noted (f : Parked → Parked) (b : Blk) : Blk :=
        { b with xlat := { b.xlat with parked := b.xlat.parked.map (fun q => if mine q then f q else q) } }
      b.xlat.parked.any mine = true →
      (recheckParts p { ctx := p.ctx } (partsOf p.va p.len) b = (b1, .clear) → recheck abort p b =
        resumed p { b1 with xlat := { b1.xlat with parked := b1.xlat.parked.filter (fun q => !mine q) } }) ∧
      (recheckParts p { ctx := p.ctx } (partsOf p.va p.len) b = (b1, .wait) → recheck abort p b =
        noted (fun q => { q with again := some abort }) b1) ∧
      (∀ cause seg gran, recheckParts p { ctx := p.ctx } (partsOf p.va p.len) b = (b1, .fault cause seg gran) →
        (abort = true → abortable b1 p.unit = true →
          recheck abort p b = forgetUnit p.unit (abortRef p.unit (bump Ctr.ftAborted p.ctx 1 b1))) ∧
        (abort = false ∨ abortable b1 p.unit = false → recheck abort p b =
          noted (fun q => { q with cause := cause, again := none }) (recordFault p.rq p.ctx p.write cause seg gran b1))))

/-- Invalidations (R226, R227, R242): one that a VF may not make is ignored and counted, one beyond 64 is refused and counted; another drops every selected
line of this die's metadata, waits with the accesses under way, and goes to the other dies. What was sent here is reported once it is complete here, in
order. The oldest is done when the other dies have reported and those accesses have finished: its TOKEN and count are kept, and its acknowledgement word
is written, in host memory or in this die's. -/
def Obligations.InvalidationsDropAndAcknowledge : Prop :=
  (∀ (s : State), Live s →
    (∀ fn (v : W64) c op, fn < 64 → bitsOf v.toNat 3 0 = op →
      (c, op) ∈ [(Instr.invalidateGranule fn v, 1), (.invalidateSegment fn v, 2), (.invalidateContext fn v, 3), (.invalidateAll fn v, 4)] →
      (hostReaches s.b = false → exec c s = .next (s.after s.b)) ∧
      (hostReaches s.b = true → fn ≠ 0 → op = 4 ∨ ownsCtx s.b fn (bitsOf v.toNat 9 4) = false →
        exec c s = .next (s.after (bump Ctr.hsForeignWrites 0 1 s.b))) ∧
      (hostReaches s.b = true → fn = 0 ∨ (op ≠ 4 ∧ ownsCtx s.b fn (bitsOf v.toNat 9 4) = true) →
        (64 ≤ s.b.xlat.invals.length → exec c s = .next (s.after (bump Ctr.ftInvRefused 0 1 s.b))) ∧
        (s.b.xlat.invals.length < 64 → let b0 := invalHere v s.b
          exec c s = .next (s.after (toOthers fn 0x000 v { b0 with xlat := { b0.xlat with
            invals := b0.xlat.invals ++ [{ fn := fn, word := v, mine := underWay s.b, waiting := otherDies b0 }] } }))))) ∧
    (let b0 := sendReports (s.b.xlat.reports.length + 1) s.b;
      (b0.xlat.invals = [] → exec .invalidationDone s = .next (s.after b0)) ∧
      (∀ i rest, b0.xlat.invals = i :: rest →
        let token := bitsOf i.word.toNat 63 48
        let done := b0.xlat.done.get 0 i.fn + 1
        (i.waiting ≠ [] ∨ finished b0 i.mine = false → exec .invalidationDone s = .next (s.after b0)) ∧
        (i.waiting = [] → finished b0 i.mine = true →
          exec .invalidationDone s = .next (s.after (writeAck i.fn token done (bump Ctr.ftInvDone 0 1
            { b0 with xlat := { b0.xlat with
                invals := rest, token := b0.xlat.token.set i.fn token, done := b0.xlat.done.set i.fn done } }))))))) ∧
  (∀ (v : W64) (b : Blk) (l : Line), (invRuns b v).any (fun r => decide (l.addr < b.selfPa r.1 + r.2 ∧ b.selfPa r.1 < l.addr + 128)) = true →
    (∀ p k, (k, l) ∉ ((invalHere v b).pitch p).mdc.lines) ∧ (∀ k, (k, l) ∉ (invalHere v b).xlat.fault.lines)) ∧
  (∀ n die token accs rest (b : Blk), b.xlat.reports = (die, token, accs) :: rest →
    let b1 := { b with xlat := { b.xlat with reports := rest } }
    (finished b accs = false → sendReports (n + 1) b = b) ∧
    (finished b accs = true → reachFail b1 0 b1.ident.chip die = none →
      sendReports (n + 1) b = sendReports n (sendMsg b1.ident.chip die {} (.fwdReport token) b1)) ∧
    (∀ st, finished b accs = true → reachFail b1 0 b1.ident.chip die = some st → sendReports (n + 1) b = sendReports n b1)) ∧
  (∀ (fn token done : Nat) (b : Blk), let a := (Tbl.get 0 b.xlat.ackAddr fn).toNat
    let addr := bitsOf a 51 3 * 8
    let word := toLe 2 token ++ toLe 6 done
    (a.testBit 0 = false → writeAck fn token done b = b) ∧
    (a.testBit 0 = true → a.testBit 63 = false → writeAck fn token done b = gsWriteB addr word b) ∧
    (a.testBit 0 = true → a.testBit 63 = true → writeAck fn token done b = (hostWrite .block {} addr (word.map (·, false)) b).1))

/-! ### The host -/

/-- The host's view of memory (R238, R243 to R245, R251, R252): an access joins those that wait, and each goes on in its turn. One of this die's memory that no
snoop holds up is made at once, a read for caching entering the filter; one whose line is SHARED and held sends BISnpInv first, and one of a full filter takes a
victim; one beyond the installed memory is recorded, a write of it dropped and a read of it poisoned; one of another die travels as memory packets. A
host snoop is answered RspIHitI; a back-invalidation's answer brings its line back and lets what waited go on; BIVOUAC_BASE keeps
its value when it names another chip; the window reaches memory only where it is enabled, and reads as all ones otherwise. -/
def Obligations.HostAccessesReachMemory : Prop :=
  (∀ (s : State), Live s →
    (∀ c peer write caching off len data addr (v : W64), off < 2 ^ 32 → len ≤ 4096 → data.length ≤ 4096 → addr < 2 ^ 52 → hostReaches s.b = false →
      c ∈ [Instr.hostMemAccess peer write caching off len data, .hostSnoop addr, .bivouacBaseWrite v, .bivouacWindowAccess write off len data] →
      exec c s = .next (s.after s.b)) ∧
    (∀ line data, line < 2 ^ 35 → data.length = 0 ∨ data.length = 64 → s.b.host.snooping.contains line = false →
      exec (.bisnpResponse line data) s = .next (s.after s.b)) ∧
    (∀ line data, line < 2 ^ 35 → data.length = 0 ∨ data.length = 64 → s.b.host.snooping.contains line = true →
      let b0 : Blk := { s.b with host := { s.b.host with snooping := s.b.host.snooping.erase line, filter := s.b.host.filter.erase line } }
      exec (.bisnpResponse line data) s =
        .next (s.after (recheckAgain (retryHeld (if data = [] then b0 else gsWrite none (64 * line) (data.map (·, false)) b0))))) ∧
    (hostReaches s.b = true →
      (∀ peer write caching off len data, off < 2 ^ 43 → len ≤ 4096 → data.length ≤ 4096 →
        let a : HdmAcc := { id := s.b.host.nextAcc, peer := peer, write := write, caching := caching, off := off, len := len, data := data }
        let b0 := { s.b with host := { s.b.host with nextAcc := s.b.host.nextAcc + 1 } }
        exec (.hostMemAccess peer write caching off len data) s = .next (s.after
          (retryHeld { b0 with host := { b0.host with held := s.b.host.held ++ [a] } })) ∧
        (s.b.host.held = [] → let r := hdmTry a b0
          exec (.hostMemAccess peer write caching off len data) s = .next (s.after
            (if r.2 then { r.1 with host := { r.1.host with held := [] } } else { r.1 with host := { r.1.host with held := [a] } })))) ∧
      (∀ addr, addr < 2 ^ 52 → exec (.hostSnoop addr) s = .next (s.after { s.b with out := s.b.out ++ [.snoopRspIHitI addr] })) ∧
      (∀ v : W64, exec (.bivouacBaseWrite v) s = .next (s.after (if bitsOf v.toNat 61 48 = s.b.ident.chip
        then { s.b with host := { s.b.host with base := v &&& 0x3FFFFFFFFFE00000#64 } } else s.b))) ∧
      (∀ write off len data, off < 2 ^ 32 → len ≤ 4096 → data.length ≤ 4096 →
        (s.b.host.en = true → exec (.bivouacWindowAccess write off len data) s = .next (s.after (hdmAccess
          { peer := false, write := write, caching := false, off := windowOff s.b off, len := len, data := data } (bump Ctr.bvAccesses 0 1 s.b)))) ∧
        (s.b.host.en = false → exec (.bivouacWindowAccess write off len data) s = .next (s.after (if write then s.b
          else { s.b with out := s.b.out ++ [.hostCpl (List.replicate len (0xFF, false))] })))))) ∧
  (∀ (a : HdmAcc) (b : Blk), hdmDie a.off = b.ident.die →
    let o := hdmLocal a.off
    let ls := snoopLines b o a.size
    let b1 := if b.installed < o + a.size then raise { cause := 0x06, unit := 5, detail := a.off } b else b
    (ls ≠ [] → hdmTry a b = (sendSnoops ls b, false)) ∧
    (ls = [] → filterRoom < b.host.filter.length + (newLines b a).length → hdmTry a b = (evictVictim b, false)) ∧
    (ls = [] → b.host.filter.length + (newLines b a).length ≤ filterRoom →
      (a.write = true → o + a.size ≤ b.installed → hdmTry a b = (gsWrite none o (a.data.map (·, false)) b, true)) ∧
      (a.write = true → b.installed < o + a.size → hdmTry a b = (b1, true)) ∧
      (a.write = false → hdmTry a b = (emit (.hostCpl ((List.range a.len).map (fun i =>
          if o + i < b1.installed then b1.mem.pbyte (o + i) else (0, true))))
        { b1 with host := { b1.host with filter := b1.host.filter ++ newLines b a } }, true)))) ∧
  (∀ (a : HdmAcc) (b : Blk), hdmDie a.off ≠ b.ident.die →
    let d := hdmDie a.off
    let pa := mkPa b.ident.chip d (hdmLocal a.off)
    (b.diePresent d = true → (b.link d).state = .training → hdmTry a b = (b, false)) ∧
    (b.diePresent d = true → b.linkUp d = true → (b.link d).state ≠ .training →
      (a.write = true → hdmTry a b = (askWrites (.hostAcc a.id) {} b.ident.chip d false (writePieces pa (a.data.map (·, false))) b, true)) ∧
      (a.write = false → hdmTry a b = (askRead (.hostAcc a.id) {} pa a.len b.ident.chip d false b, true))) ∧
    (b.diePresent d = false ∨ (b.linkUp d = false ∧ (b.link d).state ≠ .training) →
      (a.write = true → hdmTry a b = (fwdDropped d b, true)) ∧
      (a.write = false → hdmTry a b = (emit (.hostCpl (List.replicate a.len (0xFF, false))) b, true))))

/-- Loss of the host (R259 to R263). When the link goes down, HOST_STATE is LINK_DOWN, held requests wait, and the event is alerted and logged; retrained
within 200,000 CK_AON cycles it is ATTACHED and each held write is issued, oldest first. After that time, or by firmware's WRITE, the host is LOST: what was
held is discarded and counted, its descriptors and records go without it, and queues with a ring in host memory are DETACHED; on the lost host's link being
active, a WRITE of ATTACHED re-attaches them. -/
def Obligations.HostLossDetachesAndReattaches : Prop :=
  (∀ (s : State), Live s →
    (s.b.straps.lead = true → s.b.host.active = true → s.b.host.state = 0 → exec .hostLinkDown s = .next (s.after
      (detachEntry 1 none none none 0 0 (alert 2 { s.b with host := { s.b.host with active := false, state := 1, downAt := s.b.clk.aon } })))) ∧
    (s.b.host.state = 1 → s.b.clk.aon < s.b.host.downAt + 200000 → exec .linkRetrained s = .next (s.after (detachEntry 2 none none none 0 0
      (issueHeld { s.b with host := { s.b.host with state := 0, active := true, trainings := s.b.host.trainings + 1 } })))) ∧
    (s.b.host.state ≠ 1 ∨ s.b.host.downAt + 200000 ≤ s.b.clk.aon → exec .linkRetrained s = .next (s.after s.b)) ∧
    (∀ n, n < 65536 →
      (s.b.host.state = 1 → s.b.host.downAt + 200000 ≤ s.b.clk.aon → exec (.hostLost false n) s = .next (s.after (loseHost 0 n s.b))) ∧
      (s.b.host.state ≠ 1 ∨ s.b.clk.aon < s.b.host.downAt + 200000 → exec (.hostLost false n) s = .next (s.after s.b))) ∧
    (∀ n r, n < 65536 → Written s.b Obj.hostState 1 r →
      (r.value = 2 → exec (.hostLost true n) s = .next (s.after ((loseHost 1 n s.b).answered r))) ∧
      (r.value = 0 → (∀ c, attachHost s.b = .ok c → exec .hostReattached s = .next (s.after (c.answered r))) ∧
        (s.b.host.state ≠ 2 ∨ s.b.host.active = false → exec .hostReattached s = .next (s.after (refuse r .range s.b))))) ∧
    (s.b.straps.lead = true → s.b.host.active = false → s.b.host.state ≠ 1 → exec .hostLinkActive s =
      .next (s.after { s.b with host := { s.b.host with active := true, trainings := s.b.host.trainings + 1 } }))) ∧
  (∀ b : Blk, issueHeld b = b.host.heldWrites.foldl (fun b w => issueOne w b) { b with host := { b.host with heldWrites := [] } }) ∧
  (∀ (w : HeldWrite) (b : Blk), let u := w.unit.getD .block
    let r := hostPut u w.ctx w.shared w.addr w.data b
    (hostRefuses b w.addr w.data.length = false →
      r.2 = true ∧ r.1.hostMem = b.hostMem.write w.addr w.data ∧ r.1.mem = b.mem ∧ issueOne w b = heldAnswer w r.1) ∧
    (hostRefuses b w.addr w.data.length = true →
      r.2 = false ∧ r.1.hostMem = b.hostMem ∧ issueOne w b = heldAnswer w (heldGone .unreachable w r.1)) ∧
    (w.ask = none → heldAnswer w b = b) ∧ (∀ x, w.ask = some x → heldAnswer w b = writeAnswer x b)) ∧
  (∀ cause n (b : Blk), (b.host.state = 2 → loseHost cause n b = b) ∧
    (b.host.state ≠ 2 →
      let b1 : Blk := if b.host.state = 0 then alert 2 b else b
      let b2 := bump Ctr.hsWritesDiscarded 0 (b.host.heldWrites.length + n) { b1 with host := { b1.host with state := 2, heldWrites := [] } }
      let b3 := (List.range 256).foldl (fun b q => detachOne q b) (detachEntry 3 none none none cause 0 b2)
      b2.hostMem = b.hostMem ∧ counter b2 Ctr.hsWritesDiscarded 0 = (counter b Ctr.hsWritesDiscarded 0 + b.host.heldWrites.length + n) % 2 ^ 64 ∧
      loseHost cause n b = detachEntry 5 none none none b.host.heldWrites.length n
        (b.host.heldWrites.foldl (fun b w => heldAnswer w (heldGone .hostLost w b)) b3))) ∧
  (∀ q (b : Blk), let x := b.q q
    (x.st ∈ [QState.stopped, .running, .stalledEarly] → hostRings b q = true → detachOne q b = detachQueue 4 q (x.fetch % 2 ^ 32) (x.written % 2 ^ 32)
      (b.setQ q { x with st := .detached, burst := none, poll := none, stopping := false })) ∧
    (x.st ∉ [QState.stopped, .running, .stalledEarly] ∨ hostRings b q = false → detachOne q b = b)) ∧
  (∀ b : Blk, b.host.state = 2 → b.host.active = true → ∃ c, attachHost b = .ok c ∧ c.host.state = 0 ∧
    ∀ n, n < 256 → (b.q n).st = .detached → c.q n = if b.inflight n = 0 then { b.q n with st := .stopped } else { b.q n with reattach := true })

/-- Functions (R264 to R267): FLR, clearing VF enable or bus master, and FN_DISABLE disable a function, once, with an entry in the detach log, and the PF's
every function with it; its queues are DRAINING, what has not started ends with DISABLED, and the dies that serve its queues are told. 180,000 CK_HALF
cycles later what is left is ended and counted. When none of its descriptors is left and no other die serves it any more its queues return to reset, its
contexts' peg counters are 0, and it is enabled where nothing disables it. -/
def Obligations.FunctionsDisableAndDrain : Prop :=
  (∀ (s : State), Live s →
    (∀ f on, f < 64 → hostReaches s.b = false → ∀ c ∈ [Instr.flr f, .vfEnable on, .busMaster f on], exec c s = .next (s.after s.b)) ∧
    (∀ f, f < 64 → hostReaches s.b = true →
      exec (.flr f) s = .next (s.after
        (disableFn 1 f (if f = 0 then { s.b with host := { s.b.host with base := 0, en := false } } else s.b))) ∧
      exec (.busMaster f false) s = .next (s.after (disableFn 3 f (s.b.setFn f { s.b.fn f with busMasterOff := true }))) ∧
      exec (.busMaster f true) s = .next (s.after (enableFn f (s.b.setFn f { s.b.fn f with busMasterOff := false })))) ∧
    (hostReaches s.b = true →
      exec (.vfEnable false) s = .next (s.after (((List.range 63).map (· + 1)).foldl (fun b f => disableOne 2 f b)
        { s.b with host := { s.b.host with vfEnable := false } })) ∧
      exec (.vfEnable true) s = .next (s.after (((List.range 63).map (· + 1)).foldl (fun b f => enableFn f b)
        { s.b with host := { s.b.host with vfEnable := true } }))) ∧
    (∀ r, Written s.b Obj.fnDisable 64 r → let b := s.b.setObj (Obj.fnDisable + r.sub) r.value
      exec .fnDisable s = .next (s.after ((if r.value = 1 then disableFn 4 r.sub b else enableFn r.sub b).answered r))) ∧
    (∀ f, f < 64 → (s.b.fn f).trigger = none →
      exec (.graceExpiry f) s = .next (s.after s.b) ∧ exec (.functionDrained f) s = .next (s.after s.b)) ∧
    (∀ f tr t, f < 64 → (s.b.fn f).trigger = some (tr, t) →
      let x := s.b.fn f
      let qs := fnQueues s.b f
      let live := s.b.front.descs.any (fun d => qs.contains d.q)
      let away := s.b.front.queueDie.any (fun e => qs.contains e.1)
      (x.graceOver = true ∨ x.drained = true ∨ s.b.clk.half < t + 180000 → exec (.graceExpiry f) s = .next (s.after s.b)) ∧
      (x.graceOver = false → x.drained = false → t + 180000 ≤ s.b.clk.half →
        let b1 := s.b.setFn f { x with graceOver := true }
        let r := ((fnQueues b1 f).flatMap (fun n => (b1.descsOf n).map (·.id))).foldl
          (fun (a : Blk × Nat) id => ((graceEnd id a.1).1, a.2 + boolNat (graceEnd id a.1).2)) (b1, 0)
        exec (.graceExpiry f) s = .next (s.after (detachEntry 9 (some f) none none r.2 0 (bump Ctr.fnAborted 0 r.2 r.1)))) ∧
      (x.drained = true ∨ live = true → exec (.functionDrained f) s = .next (s.after s.b)) ∧
      (x.drained = false → live = false → away = true → exec (.functionDrained f) s = .next (s.after (askDrained f s.b))) ∧
      (x.drained = false → live = false → away = false →
        let b1 : Blk := { s.b with front := { s.b.front with
          queues := s.b.front.queues.filter (fun e => !qs.contains e.1), pegs := s.b.front.pegs.filter (fun e => !ownsCtx s.b f (e.1 / 64)) } }
        let b2 := if tr = 1 ∨ tr = 2 then b1 else b1.setObj (Obj.fnDisable + f) 1
        exec (.functionDrained f) s = .next (s.after (enableFn f (b2.setFn f { x with drained := true }))) ∧
        (∀ q, q < 256 → owns s.b f q = true → b1.q q = {}) ∧ (∀ q, owns s.b f q = false → b1.q q = s.b.q q) ∧
        (∀ c n, n < 64 → b1.peg c n = if ownsCtx s.b f c then 0 else s.b.peg c n)))) ∧
  (∀ tr f (b : Blk), let x := b.fn f
    (f = 0 → b.straps.lead = true → disableFn tr f b = (List.range 64).foldl (fun b f => disableOne tr f b) b) ∧
    (f ≠ 0 ∨ b.straps.lead = false → disableFn tr f b = disableOne tr f b) ∧
    (x.trigger ≠ none → x.drained = false ∨ tr ≠ 1 → disableOne tr f b = b) ∧
    (x.trigger = none ∨ (x.drained = true ∧ tr = 1) →
      let dies := fnDies f b
      let b1 := b.setFn f { x with trigger := some (tr, b.clk.half), drained := false, graceOver := false, told := (x.told ++ dies).eraseDups }
      let b2 := dies.foldl (fun b d => tellDie f 1 d b) b1
      disableOne tr f b = (fnQueues b2 f).foldl (fun b n => drainQueue n b) (detachEntry 8 (some f) none none tr 0 b2)) ∧
    (x.drained = true → x.busMasterOff = false → f = 0 ∨ b.host.vfEnable = true → b.obj (Obj.fnDisable + f) 0 = 0 →
      enableFn f b = x.told.foldl (fun b d => tellDie f 0 d b) (b.setFn f {})) ∧
    (x.drained = false ∨ x.busMasterOff = true ∨ (f ≠ 0 ∧ b.host.vfEnable = false) ∨ b.obj (Obj.fnDisable + f) 0 ≠ 0 → enableFn f b = b)) ∧
  (∀ n (b : Blk), servedBy b n = b.ident.die →
    let b1 := b.modQ n (fun x => { x with st := .draining, burst := none, poll := none, stopping := false, reattach := false })
    (b1.descsOf n = [] → drainQueue n b = b1) ∧
    (∀ d, b1.descsOf n = [d] → b1.desc? d.id = some d →
      (d.stage = .complete → drainQueue n b = b1) ∧
      (d.stage ≠ .complete → d.hasStarted = false → drainQueue n b = stopDesc d.id .disabled b1) ∧
      (d.stage ≠ .complete → d.hasStarted = true → drainQueue n b = if d.opcode = 0x05 then completeWith d.id .ok 0 0 b1 else b1))) ∧
  (∀ d (b : Blk), b.desc? d.id = some d →
    (d.stage = .complete → graceEnd d.id b = (b, false)) ∧
    (d.stage ≠ .complete → tileStop d.opcode = true ∨ d.opcode = 0x03 ∨ d.opcode = 0x23 → graceEnd d.id b = (stopDesc d.id .cancelled b, true)) ∧
    (∀ r, d.stage ≠ .complete → d.work = .bias r → d.opcode = 0x31 →
      let b1 := modBias d.id (fun r => { r with stopped := true }) (forgetUnit (.desc d.id) b)
      graceEnd d.id b = (if r.waiting then b1 else biasEnd d.id b1, true)) ∧
    (∀ r, d.stage ≠ .complete → d.work = .refresh r → d.opcode = 0x24 →
      let b1 := modRefresh d.id (fun r => { r with done := true }) (addStatus d.id .cancelled b)
      graceEnd d.id b = (refreshClose d.id (forgetUnit (.desc d.id) (closeTree d.id b1)), true)))

/-! ### The die-to-die link -/

/-- D2D_FLIT (R273, R280, R281). A flit on a link that is not UP does nothing, and one whose header fails its HCRC is counted and answered with a NAK. Of
any other the acknowledgement and the credits act, whatever its type, and what waited goes out; a NAK then replays (or retrains, see below); a DATA flit that is the next
expected delivers its packets, and one that is not is counted and answered with one NAK. -/
def Obligations.D2dFlitsAreTakenInOrder : Prop :=
  (∀ (s : State) (p : Nat) (bytes : List Byte), Live s → p < 4 → bytes.length = 256 →
    (s.b.linkUp p = false → exec (.d2dFlit p bytes) s = .next (s.after s.b)) ∧
    (s.b.linkUp p = true → field bytes 14 2 ≠ crc16 (bytes.take 14) →
      exec (.d2dFlit p bytes) s = .next (s.after (sendNak p (bump Ctr.ddCrcErrors p 1 s.b)))) ∧
    (s.b.linkUp p = true → field bytes 14 2 = crc16 (bytes.take 14) →
      let type := bitsOf (field bytes 0 2) 13 12
      let b0 := takeWords p bytes s.b
      let b1 := d2dPump p ((b0.link p).wait.length + 1) b0
      let b2 := if type < 2 ∧ (field bytes 2 2).testBit 12 = true then takeNak p (field bytes 2 2 % 4096) b1 else b1
      (type ≠ 0 ∨ b2.linkUp p = false → exec (.d2dFlit p bytes) s = .next (s.after b2)) ∧
      (type = 0 → b2.linkUp p = true →
        (field bytes 0 2 % 4096 = (b2.link p).rxNext → exec (.d2dFlit p bytes) s = .next (s.after (takeData p bytes b2))) ∧
        (field bytes 0 2 % 4096 ≠ (b2.link p).rxNext → let b3 := bump Ctr.ddCrcErrors p 1 b2
          exec (.d2dFlit p bytes) s = .next (s.after (if (b3.link p).nakOut then b3 else sendNak p b3)))))) ∧
  (∀ p bytes (b : Blk), takeWords p bytes b = takeCredit p (field bytes 6 2) (takeCredit p (field bytes 4 2) (ackTo p (field bytes 2 2 % 4096) b))) ∧
  (∀ p (b : Blk) (w : Nat), (w.testBit 3 = true → ((takeCredit p w b).link p).credits =
      (b.link p).credits.set (w % 8) ((b.link p).credits.getD (w % 8) 0 + w / 16)) ∧ (w.testBit 3 = false → takeCredit p w b = b)) ∧
  (∀ p ack f rest (b : Blk), (b.link p).replay = f :: rest → let k := (ack + 4096 - f.seq) % 4096 + 1
    (k ≤ rest.length + 1 → ((ackTo p ack b).link p).replay = (f :: rest).drop k ∧
      ((ackTo p ack b).link p).inFlight = (b.link p).inFlight.filter (fun e => decide (k ≤ (e.1 + 4096 - f.seq) % 4096))) ∧
    (rest.length + 1 < k → ackTo p ack b = b)) ∧
  (∀ p bytes (b : Blk), let l := b.link p
    let seq := field bytes 0 2 % 4096
    let i := if l.rxBuf = [] then max (byteAt bytes 8 % 16) l.rxSkip else 0
    let walk := walkSlots true seq i ((pieces 16 (bytes.drop 16)).drop i) l.rxBuf (l.rxStart, l.rxSlot) []
    (∀ buf at_ ks, walk = .ok buf at_ ks →
      let b1 := b.setLink p { l with rxNext := (seq + 1) % 4096, rxBuf := buf, rxStart := at_.1, rxSlot := at_.2, rxSkip := 0, nakOut := false }
      takeData p bytes b = ks.foldl (fun b k => acceptD2d p k b) (d2dIdle p 0 0 false (b1.link p).ackSeq b1)) ∧
    (∀ at_ ks, walk = .bad at_ ks →
      let b1 := b.setLink p { l with rxNext := at_.1, rxBuf := [], rxStart := at_.1, rxSlot := 0, rxSkip := at_.2 }
      takeData p bytes b = sendNak p (bump Ctr.ddCrcErrors p 1 (ks.foldl (fun b k => acceptD2d p k b) b1)))) ∧
  (∀ p (b : Blk), ((sendNak p b).link p).nakOut = true ∧
    (sendNak p b).out = b.out ++ [.d2dFlit p (d2dFlitBytes 0 1 (lastSeq (b.link p).rxNext) true 0 0 15 [])])

/-- R282: the 8th NAK that names one ACK_SEQ with no progress between them retrains the link; the 8th further one after that retrain resets the link layer.
A NAK of another ACK_SEQ counts from 1, and one before the 8th replays. -/
def Obligations.EightNaksRetrainThenReset : Prop :=
  ∀ (b : Blk) (p ack : Nat),
    let l := b.link p
    let t := takeNak p ack b
    (l.nakSeq ≠ ack → (t.link p).nakSeq = ack ∧ (t.link p).nakCount = 1 ∧ (t.link p).state = l.state ∧ (t.link p).nakRetrained = l.nakRetrained) ∧
    (l.nakSeq = ack → l.nakCount < 7 →
      (t.link p).nakSeq = ack ∧ (t.link p).nakCount = l.nakCount + 1 ∧ (t.link p).state = l.state ∧ (t.link p).nakRetrained = l.nakRetrained) ∧
    (l.nakSeq = ack → l.nakCount = 7 → l.nakRetrained = false →
      t = startTrain p 1 true (b.setLink p { l with nakSeq := ack, nakCount := 0, nakRetrained := true })) ∧
    (l.nakSeq = ack → l.nakCount = 7 → l.nakRetrained = true → t = startTrain p 2 false (clearLink p 2 b)) ∧
    (∀ f rest, l.replay = f :: rest → (ack + 4096 - f.seq) % 4096 + 1 ≤ l.replay.length →
      ((ackTo p ack b).link p).nakCount = 0 ∧ ((ackTo p ack b).link p).nakRetrained = false) ∧
    (∀ (s : State) bytes, Live s → p < 4 → bytes.length = 256 → s.b.linkUp p = true → field bytes 14 2 = crc16 (bytes.take 14) →
      bitsOf (field bytes 0 2) 13 12 = 1 → (field bytes 2 2).testBit 12 = true →
      let b0 := takeWords p bytes s.b
      exec (.d2dFlit p bytes) s = .next (s.after (takeNak p (field bytes 2 2 % 4096) (d2dPump p ((b0.link p).wait.length + 1) b0)))) ∧
    (∀ msg keep, msg < 256 →
      let c := b.setLink p { l with state := .training, keep := keep, vector := 0, mine := none, theirs := none, proposed := false, attempts := 0,
                                    capSent := false, capGot := none, cause := 0 }
      let d : Blk := { c with out := c.out ++ [.sideband p (BitVec.ofNat 64 msg)] }
      startTrain p msg keep b = if b.linkUp p then barriersLinkDown d else d)

/-- Training (R283 to R288). RETRAIN and LINK_RESET from the peer, a failed half and firmware's two objects start it, with or without the link's state;
PROPOSAL settles the vector; the ends of an attempt, a RESULT and its timeout are judged together, equal non-zero vectors agreeing and any others giving
the next of 3 attempts; CAP brings the link UP, a retrained one with a replay, or holds it DOWN, as HOLD_DOWN does, and on an UP link lets the feature set
shrink; a link that is DOWN carries nothing. -/
def Obligations.D2dLinksTrain : Prop :=
  (∀ (s : State) (p : Nat), Live s → p < 4 →
    let l := s.b.link p
    let may := decide (p ≠ s.b.ident.die) && decide (s.b.moduleMap p ≠ 0)
    exec (.retrain p) s = .next (s.after (match l.state with
      | .up => propose p (retrainNow p s.b)
      | .training => propose p s.b
      | .absent => if may then propose p (startTrain p 1 false s.b) else s.b
      | .down => s.b)) ∧
    exec (.linkReset p) s = .next (s.after (match l.state with
      | .up | .down => propose p (startTrain p 1 false (clearLink p 1 s.b))
      | .training => let b0 := if l.keep then clearLink p 1 s.b else s.b
        propose p (b0.setLink p ((b0.link p).fresh false))
      | .absent => if may then propose p (startTrain p 1 false s.b) else s.b)) ∧
    (∀ port high, port < 12 → let b0 : Blk := { s.b with d2d := { s.b.d2d with bad := s.b.d2d.bad.set (2 * port + boolNat high) true } }
      ((List.range 4).find? (fun q => (s.b.moduleMap q).testBit port && s.b.linkUp q) = some p →
        exec (.d2dHalfFail port high) s = .next (s.after (retrainNow p b0))) ∧
      ((List.range 4).find? (fun q => (s.b.moduleMap q).testBit port && s.b.linkUp q) = none →
        exec (.d2dHalfFail port high) s = .next (s.after b0))) ∧
    (∀ r, Written s.b Obj.d2dRetrain 4 r → r.value = 1 →
      exec .d2dRetrain s = .next (s.after ((if s.b.linkUp r.sub then retrainNow r.sub s.b else s.b).answered r))) ∧
    (∀ r, Written s.b Obj.d2dLinkReset 4 r → r.value = 1 → exec .d2dLinkReset s = .next (s.after
      ((if (s.b.link r.sub).state = .absent then s.b else startTrain r.sub 2 false (clearLink r.sub 0 s.b)).answered r))) ∧
    (∀ halves, halves < 2 ^ 24 → let b0 := propose p s.b
      (l.state = .training → l.attempts = 0 →
        exec (.proposal p 1 halves) s = .next (s.after (attemptAt p 1 ((b0.link p).vector &&& halves) b0))) ∧
      (l.state ≠ .training ∨ l.attempts ≠ 0 → exec (.proposal p 1 halves) s = .next (s.after s.b))) ∧
    (∀ halves, halves < 2 ^ 24 → attempting l = true → l.mine = none →
      let m := halves &&& l.vector
      let ms := modulesOf s.b p
      let bad := (List.range ms.length).flatMap (fun i => [0, 1].filterMap (fun h =>
        if l.vector.testBit (2 * i + h) && !(m.testBit (2 * i + h)) then some (2 * ms.getD i 0 + h) else none))
      let b0 : Blk := { s.b with d2d := { s.b.d2d with bad := bad.foldl (fun t k => t.set k true) s.b.d2d.bad } }
      exec (.trainingAttemptEnd p halves) s =
        .next (s.after (judgeAttempt p (sideband p 4 l.attempts m 0 (b0.setLink p { l with mine := some m }))))) ∧
    (∀ halves, halves < 2 ^ 24 → attempting l = true → l.attempts < 4 → l.theirs = none →
      exec (.result p l.attempts halves) s = .next (s.after (judgeAttempt p (s.b.setLink p { l with theirs := some halves })))) ∧
    (attempting l = true → l.began + 20000 ≤ s.b.clk.aon → l.mine = none ∨ l.theirs = none →
      exec (.trainingTimeout p) s = .next (s.after (judgeAttempt p
        (s.b.setLink p { l with mine := some (l.mine.getD 0), theirs := some (l.theirs.getD 0) })))) ∧
    (∀ cause, cause < 256 → (l.state = .training ∨ l.state = .up → exec (.holdDown p cause) s = .next (s.after (downLink p cause s.b))) ∧
      (l.state = .absent ∨ l.state = .down → exec (.holdDown p cause) s = .next (s.after s.b))) ∧
    (∀ bytes, bytes.length = 256 →
      (field bytes 14 2 ≠ crc16 (bytes.take 14) ∨ bitsOf (field bytes 0 2) 13 12 ≠ 2 → exec (.cap p bytes) s = .next (s.after s.b)) ∧
      (field bytes 14 2 = crc16 (bytes.take 14) → bitsOf (field bytes 0 2) 13 12 = 2 →
        let b0 := takeWords p bytes s.b
        (l.state = .training → (b0.link p).capSent = true → exec (.cap p bytes) s = .next (s.after (linkUpNow p (parseCap bytes) b0))) ∧
        (l.state = .training → (b0.link p).capSent = false →
          exec (.cap p bytes) s = .next (s.after (b0.setLink p { b0.link p with capGot := some (parseCap bytes) }))) ∧
        (l.state = .up → exec (.cap p bytes) s = .next (s.after (takeFeatures (parseCap bytes) b0))) ∧
        (l.state = .absent ∨ l.state = .down → exec (.cap p bytes) s = .next (s.after s.b))))) ∧
  (∀ p (b : Blk),
    (∀ m t, (b.link p).mine = some m → (b.link p).theirs = some t → judgeAttempt p b =
      (if m = t ∧ m ≠ 0 then agreed p m b else attemptAt p ((b.link p).attempts + 1) (m &&& t) b)) ∧
    ((b.link p).mine = none ∨ (b.link p).theirs = none → judgeAttempt p b = b) ∧
    (∀ n v, attemptAt p n v b = (if v = 0 ∨ 3 < n then holdDown p 1 b
      else b.setLink p { b.link p with vector := v, attempts := n, mine := none, theirs := none, began := b.clk.aon })) ∧
    (∀ c, (capCause b c ≠ 0 → linkUpNow p c b = holdDown p (capCause b c) b) ∧
      (capCause b c = 0 → let l := b.link p
        let up (credits : List Nat) : Blk := takeFeatures c (b.setLink p { l with
          state := .up, proto := min 3 c.minor, peerRev := if 3 ≤ c.minor then c.revision else 0, peerLead := c.lead,
          credits := credits, rxValid := true, keep := true, halves := l.vector })
        let go (b : Blk) : Blk := retryHeld (d2dPump p ((b.link p).wait.length + 1) b)
        (l.keep = false → linkUpNow p c b = go (up c.credits)) ∧
        (l.keep = true → c.rxValid = true → inReplay l.replay l.txSeq c.rxNext = true →
          linkUpNow p c b = go (payCredits p (bump Ctr.ddRetrains p 1 (replayFrom p (takenFlits l c.rxNext) (up l.credits))))) ∧
        (l.keep = true → c.rxValid = false ∨ inReplay l.replay l.txSeq c.rxNext = false →
          linkUpNow p c b = startTrain p 2 false (clearLink p 3 b)))) ∧
    (∀ k, (b.link p).state = .down ∨ (b.link p).state = .absent → d2dSend p k b = b)) ∧
  (∀ c (b : Blk), let m := c.features &&& (if 3 ≤ min 3 c.minor then c.chipFeatures else 0xFFFFFFFF)
    let b1 : Blk := { b with d2d := { b.d2d with features := b.d2d.features &&& m } }
    (b1.features = b.features → takeFeatures c b = b1) ∧
    (b1.features ≠ b.features → takeFeatures c b = ((List.range 4).filter b1.linkUp).foldl (fun b p => sendCap p b) b1))

/-- Forwarded accesses and messages (R270, R277, R278, R227, R365). A FWD_WRITE of the lead die writes the register that it names and one of another die
does nothing; a FWD_READ of the lead die is answered with the register's value; FWD_DATA completes the host's read, and of a queue's state lets a QCFG write
that waited for it go on or the queue come back; FWD_REPORT takes its die from the oldest invalidation of that token; a DICT segment joins its message, and a
whole message is taken; the answer of a forwarded request that is not there in time is DIE_UNREACHABLE. -/
def Obligations.ForwardedItemsAreServed : Prop :=
  ∀ (s : State), Live s →
    (∀ i r m, oldest s.b (fun r => match r.msg with
        | .fwdWrite _ => true
        | _ => false) = some (i, r) → r.msg = .fwdWrite m →
      let b0 := takeRx i r s.b
      (fromLead s.b r = false → exec .fwdWrite s = .next (s.after b0)) ∧
      (fromLead s.b r = true →
        (m.kind = 1 → exec .fwdWrite s = .next (s.after (pageWriteHere m.fn m.queue m.off m.value b0))) ∧
        (m.kind = 2 → exec .fwdWrite s = .next (s.after (xlatWriteHere m.fn m.off m.value r.die b0))) ∧
        (m.kind = 3 → exec .fwdWrite s = .next (s.after (bivouacWrite m.off m.value b0))) ∧
        (m.kind ∉ [1, 2, 3] → exec .fwdWrite s = .next (s.after b0)))) ∧
    (∀ i r m, oldest s.b (fun r => match r.msg with
        | .fwdRead _ => true
        | _ => false) = some (i, r) → r.msg = .fwdRead m →
      let v := if m.kind = 1 then pageRead m.queue m.off s.b else if m.kind = 2 then xlatRead m.fn m.off s.b
        else if m.kind = 3 ∧ m.off = 0 then s.b.host.base else if m.kind = 3 ∧ m.off = 8 then BitVec.ofNat 64 (boolNat s.b.host.en) else 0
      (fromLead s.b r = true → exec .fwdRead s = .next (s.after (answer r (.fwdData { m with value := v }) (takeRx i r s.b)))) ∧
      (fromLead s.b r = false → exec .fwdRead s = .next (s.after (takeRx i r s.b)))) ∧
    (∀ i r m, oldest s.b (fun r => match r.msg with
        | .fwdData _ => true
        | _ => false) = some (i, r) → r.msg = .fwdData m →
      let b0 := takeRx i r s.b
      let b1 : Blk := { b0 with out := b0.out ++ [.regData m.value], d2d := { b0.d2d with reads := b0.d2d.reads.erase r.die } }
      exec .fwdData s = .next (s.after (if m.kind = 1 ∧ m.off = 0x030 then stateTold r.die m.queue m.value b1 else b1))) ∧
    (∀ die n (v : W64) (b : Blk), let st := v.toNat % 16
      let asked := b.d2d.moves.find? (fun m => m.1 = die && m.2.2.1 = n)
      (∀ m, asked = some m → let b1 : Blk := { b with d2d := { b.d2d with moves := b.d2d.moves.erase m } }
        stateTold die n v b = if st ∈ [0, 1, 6] then moveQueue die m.2.1 n m.2.2.2 b1 else b1) ∧
      (asked = none → stateTold die n v b = if st = 0 ∧ servedBy b n = die
        then { b with front := { b.front with queueDie := b.front.queueDie.del n } } else b)) ∧
    (∀ i r t, oldest s.b (fun r => match r.msg with
        | .fwdReport _ => true
        | _ => false) = some (i, r) → r.msg = .fwdReport t →
      let b0 := takeRx i r s.b
      exec .fwdReport s = .next (s.after { b0 with xlat := { b0.xlat with invals := reported r.die t b0.xlat.invals } })) ∧
    (∀ (die token : Nat) (i : Inval) (rest : List Inval),
      (bitsOf i.word.toNat 63 48 = token → die ∈ i.waiting → reported die token (i :: rest) = { i with waiting := i.waiting.erase die } :: rest) ∧
      (bitsOf i.word.toNat 63 48 ≠ token ∨ die ∉ i.waiting → reported die token (i :: rest) = i :: reported die token rest)) ∧
    (∀ i r m, oldest s.b (fun r => match r.msg with
        | .dict _ => true
        | _ => false) = some (i, r) → r.msg = .dict m →
      let b0 := takeRx i r s.b
      let gone : Blk := { b0 with d2d := { b0.d2d with asm := b0.d2d.asm.del r.die } }
      (m.seg = 0 → 4097 < m.data.length → exec .dict s = .next (s.after gone)) ∧
      (m.seg = 0 → m.data.length ≤ 4097 → m.last = true → exec .dict s = .next (s.after (dictMessage r.die m.msgId m.data gone))) ∧
      (m.seg = 0 → m.data.length ≤ 4097 → m.last = false → exec .dict s =
        .next (s.after { b0 with d2d := { b0.d2d with asm := b0.d2d.asm.set r.die (m.msgId, 1, m.data) } })) ∧
      (∀ e, m.seg ≠ 0 → b0.d2d.asm.find? (fun e => e.1 = r.die) = some e →
        (e.2.1 ≠ m.msgId ∨ e.2.2.1 ≠ m.seg ∨ 4097 < (e.2.2.2 ++ m.data).length → exec .dict s = .next (s.after gone)) ∧
        (e.2.1 = m.msgId → e.2.2.1 = m.seg → (e.2.2.2 ++ m.data).length ≤ 4097 → m.last = true →
          exec .dict s = .next (s.after (dictMessage r.die m.msgId (e.2.2.2 ++ m.data) gone))) ∧
        (e.2.1 = m.msgId → e.2.2.1 = m.seg → (e.2.2.2 ++ m.data).length ≤ 4097 → m.last = false → exec .dict s =
          .next (s.after { b0 with d2d := { b0.d2d with asm := b0.d2d.asm.set r.die (m.msgId, m.seg + 1, e.2.2.2 ++ m.data) } }))) ∧
      (m.seg ≠ 0 → b0.d2d.asm.find? (fun e => e.1 = r.die) = none → exec .dict s = .next (s.after gone))) ∧
    (∀ t id d r, s.b.mg.fwd = some (t, id, d) → s.b.mg.sack.head? = some r → s.b.clk.mgmt < t →
      exec .dictForwardTimeout s = .next (s.after s.b)) ∧
    (∀ t id d r, s.b.mg.fwd = some (t, id, d) → s.b.mg.sack.head? = some r → t ≤ s.b.clk.mgmt →
      exec .dictForwardTimeout s = .next (s.after (finishReq r
        (respBody s.b r .dieUnreachable r.index r.sub (typeOf s.b r.index r.sub) 0 []) s.b)))

/-- Memory packets (R243, R276, R388). MEM_READ of memory that no snoop holds up is answered with its data in packets of up to 256 bytes, poison marking a
packet; MEM_WRITE is made and answered; of host memory they act on it while the host is attached, and a write is held while its link is
down, to be answered when it is over. MEM_DATA joins its read, and MEM_DONE ends its write; of a request that this die passed on for another chip both go on to it. -/
def Obligations.MemoryPacketsAreServed : Prop :=
  (∀ (s : State), Live s →
    (∀ i r m, oldest s.b (fun r => match r.msg with
        | .memRead _ => true
        | _ => false) = some (i, r) → r.msg = .memRead m →
      (m.host = false → mustWait s.b none (paOff m.addr) m.bytes = none → let g := gsRead none (paOff m.addr) m.bytes s.b
        exec .memRead s = .next (s.after (memAnswer r m g.2 (takeRx i r g.1)))) ∧
      (∀ ls, m.host = false → mustWait s.b none (paOff m.addr) m.bytes = some ls → exec .memRead s = .next (s.after (sendSnoops ls s.b))) ∧
      (m.host = true → s.b.host.state ≠ 1 → let g := hostServe m s.b
        exec .memRead s = .next (s.after (memAnswer r m g.2 (takeRx i r g.1)))) ∧
      (m.host = true → s.b.host.state = 1 → exec .memRead s = .next (s.after s.b))) ∧
    (∀ i r m, oldest s.b (fun r => match r.msg with
        | .memWrite _ => true
        | _ => false) = some (i, r) → r.msg = .memWrite m →
      let d := m.data.map (·, m.poison)
      let b0 := takeRx i r s.b
      let done (b : Blk) : Blk := answer r (.memDone { m with data := [] }) b
      (m.host = false → mustWait s.b none (paOff m.addr) m.bytes = none →
        exec .memWrite s = .next (s.after (done (gsWrite none (paOff m.addr) d b0)))) ∧
      (∀ ls, m.host = false → mustWait s.b none (paOff m.addr) m.bytes = some ls → exec .memWrite s = .next (s.after (sendSnoops ls s.b))) ∧
      (m.host = true → b0.host.state = 0 → exec .memWrite s = .next (s.after (done (hostPut .block none false m.addr d b0).1))) ∧
      (m.host = true → b0.host.state = 1 → exec .memWrite s = .next (s.after { b0 with host := { b0.host with
        nextHeld := b0.host.nextHeld + 1
        heldWrites := b0.host.heldWrites ++ [{ no := b0.host.nextHeld, ctx := none, addr := m.addr, data := d, ask := some r }] } })) ∧
      (m.host = true → b0.host.state ≠ 0 → b0.host.state ≠ 1 → exec .memWrite s = .next (s.after (done b0)))) ∧
    (∀ i r m, oldest s.b (fun r => match r.msg with
        | .memData _ => true
        | _ => false) = some (i, r) → r.msg = .memData m →
      let b0 := heard r.chip (takeRx i r s.b)
      let mine := b0.d2d.proxies.find? (fun x => x.tag = m.tag && r.via = .d2d x.die)
      let b1 : Blk := { b0 with xlat := { b0.xlat with rreads := b0.xlat.rreads.map (fun q =>
        if q.tag = m.tag ∧ q.chip = r.chip ∧ q.die = r.die then { q with got := q.got ++ m.data.map (·, m.poison) } else q) } }
      let whole := b1.xlat.rreads.find? (fun q => q.tag = m.tag && decide (q.n ≤ q.got.length) && (match q.unit with
        | .hostAcc _ => true
        | _ => false))
      (mine = none → whole = none → exec .memData s = .next (s.after b1)) ∧
      (∀ q, mine = none → whole = some q → exec .memData s = .next (s.after (emit (.hostCpl q.got) (dropRread q.tag b1)))) ∧
      (∀ x, mine = some x → x.left ≤ m.bytes → exec .memData s = .next (s.after (proxyAnswer x (.memData { m with tag := x.otag })
        { b0 with d2d := { b0.d2d with proxies := b0.d2d.proxies.filter (fun y => y.tag ≠ x.tag) } }))) ∧
      (∀ x, mine = some x → m.bytes < x.left → exec .memData s = .next (s.after (proxyAnswer x (.memData { m with tag := x.otag })
        { b0 with d2d := { b0.d2d with proxies := b0.d2d.proxies.map (fun y => if y.tag = x.tag then { y with left := x.left - m.bytes } else y) } })))) ∧
    (∀ i r m, oldest s.b (fun r => match r.msg with
        | .memDone _ => true
        | _ => false) = some (i, r) → r.msg = .memDone m →
      let b0 := heard r.chip (takeRx i r s.b)
      let mine := b0.d2d.proxies.find? (fun x => x.tag = m.tag && r.via = .d2d x.die)
      (mine = none → exec .memDone s = .next (s.after { b0 with xlat := { b0.xlat with
        rwrites := b0.xlat.rwrites.filter (fun w => !(w.tag = m.tag && w.chip = r.chip && w.die = r.die)) } })) ∧
      (∀ x, mine = some x → exec .memDone s = .next (s.after (proxyAnswer x (.memDone { m with tag := x.otag })
        { b0 with d2d := { b0.d2d with proxies := b0.d2d.proxies.filter (fun y => y.tag ≠ x.tag) } }))))) ∧
  (∀ r m d (b : Blk), memAnswer r m d b = (writePieces m.addr d).foldl (fun b p => answer r (.memData
    { m with addr := p.1, bytes := p.2.length, poison := anyPoison p.2, data := plain p.2 }) b) b) ∧
  (∀ (m : MemB) (b : Blk), (b.host.state ≠ 0 → hostServe m b = (b, List.replicate m.bytes (0, true))) ∧
    (b.host.state = 0 → hostRefuses b m.addr m.bytes = false →
      (hostServe m b).2 = b.hostMem.read m.addr m.bytes ∧ (hostServe m b).1 = { b with out := b.out ++ hostReadReq b false m.addr m.bytes }) ∧
    (b.host.state = 0 → hostRefuses b m.addr m.bytes = true → (hostServe m b).2 = List.replicate m.bytes (0, true)))

/-! ### The Ridge -/

/-- Ridge packets (R300 to R309, R313). A flit on a sub-port that is not UP does nothing; one that is marked or fails its CRC is counted and answered with
a NAK; acknowledgement, credits and the packets of a good one are taken. A packet for another chip is routed: past HOP_LIMIT or without a port that could
carry it, it is dropped and answered with UNREACH; otherwise it leaves on its port with HOPS one higher. One for this chip
whose slot R313 refuses is answered with UNREACH, and another enters the port sack or crosses to its die. -/
def Obligations.RidgePacketsAreTakenAndRouted : Prop :=
  ∀ (s : State), Live s →
    (∀ sp bytes marked, sp < 64 → bytes.length = 256 →
      ((s.b.port_ sp).state ≠ .up → exec (.ridgeFlit sp bytes marked) s = .next (s.after s.b)) ∧
      ((s.b.port_ sp).state = .up → let b0 := if marked then bump Ctr.rgFecUncorrectable sp 1 s.b else s.b
        marked = true ∨ field bytes 252 4 ≠ crc32 (bytes.take 252) →
        exec (.ridgeFlit sp bytes marked) s = .next (s.after (ridgeNak sp (bump Ctr.rgCrcErrors sp 1 b0)))) ∧
      ((s.b.port_ sp).state = .up → marked = false → field bytes 252 4 = crc32 (bytes.take 252) →
        let type := bitsOf (field bytes 0 2) 13 12
        let b1 := ridgeTakeCredit sp (field bytes 6 2) (ridgeTakeCredit sp (field bytes 4 2) (ridgeAck sp (field bytes 2 2 % 4096) s.b))
        let b2 := if type < 2 ∧ (field bytes 2 2).testBit 12 = true then ridgeTakeNak sp (field bytes 2 2 % 4096) b1 else b1
        (type ≠ 0 ∨ (b2.port_ sp).state ≠ .up → exec (.ridgeFlit sp bytes marked) s = .next (s.after b2)) ∧
        (type = 0 → (b2.port_ sp).state = .up →
          (field bytes 0 2 % 4096 = (b2.port_ sp).rxNext → exec (.ridgeFlit sp bytes marked) s = .next (s.after (ridgeData sp bytes b2))) ∧
          (field bytes 0 2 % 4096 ≠ (b2.port_ sp).rxNext → let b3 := bump Ctr.rgCrcErrors sp 1 b2
            exec (.ridgeFlit sp bytes marked) s = .next (s.after (if (b3.port_ sp).nakOut then b3 else ridgeNak sp b3)))))) ∧
    (pickRoute s.b s.b.ridge.txq = none → exec .packetRoute s = .next (s.after s.b)) ∧
    (∀ i r, pickRoute s.b s.b.ridge.txq = some (i, r) →
      let k := s.b.ridge.txq.getD i default
      let b0 : Blk := { s.b with ridge := { s.b.ridge with txq := s.b.ridge.txq.eraseIdx i } }
      (∀ c, r = .drop c → exec .packetRoute s = .next (s.after (if k.port = none then answerUnreach k c b0 else b0))) ∧
      (∀ m, r = .deliver → decMsg k.h.ptype k.body = some m → exec .packetRoute s = .next (s.after (deliverHere { k with via := .local } m b0))) ∧
      (∀ sp first, r = .send sp first → let h := leaveOn s.b sp k.h
        let b1 := if first then b0 else bump Ctr.rgAdaptive 0 1 b0
        exec .packetRoute s = .next (s.after (ridgeEmit sp { k with h := h }
          (b1.setPort sp { b1.port_ sp with turn := if h.vc < 4 ∧ h.rt = false then h.vc else (b1.port_ sp).turn }))))) ∧
    (∀ (b : Blk) (k : RPkt), k.port = none → k.h.dst % 16384 ≠ b.ident.chip →
      (b.obj Obj.hopLimit 64 ≤ k.h.hops → routeOf b k = .drop 1) ∧
      (k.h.hops < b.obj Obj.hopLimit 64 → let ps := entryPorts (b.ridge.route.get routeReset (k.h.dst % 16384))
        (ps = [] → routeOf b k = .drop 0) ∧
        (ps ≠ [] → (∀ sp ∈ ps, (b.port_ sp).state = .down) → routeOf b k = .drop 3) ∧
        (∀ sp, ps.filter (fun s => (b.port_ s).state == .up && !(k.h.vc == 3 && (b.port_ s).revision == 2)) = [sp] →
          routeOf b k = if portTakes b sp k then .send sp (ps.head? = some sp) else .wait))) ∧
    (∀ (b : Blk) sp n bytes w, let p := b.port_ sp
      let walk := walkSlots false (field bytes 0 2 % 4096) (if p.rxBuf = [] then byteAt bytes 8 % 16 else 0)
        ((pieces 16 ((bytes.drop 12).take 240)).drop (if p.rxBuf = [] then byteAt bytes 8 % 16 else 0)) p.rxBuf (p.rxStart, 0) []
      (∀ buf at_ ks, walk = .ok buf at_ ks → ridgeData sp bytes b = ks.foldl (fun b k => acceptRidge sp k b)
        (ridgeIdle sp 0 0 0 false (field bytes 0 2 % 4096) (b.setPort sp
          { p with rxNext := (field bytes 0 2 % 4096 + 1) % 4096, rxBuf := buf, rxStart := at_.1, nakOut := false }))) ∧
      (Nat.testBit w 4 = true → ((ridgeTakeCredit sp w b).port_ sp).credits = p.credits.set (subIdx (w % 8) (bitsOf w 3 3))
        (p.credits.getD (subIdx (w % 8) (bitsOf w 3 3)) 0 + w / 32)) ∧
      (Nat.testBit w 4 = false → ridgeTakeCredit sp w b = b) ∧
      ((ridgeNak sp b).port_ sp).nakOut = true ∧
      (n = (if p.nakSeq = w then p.nakCount + 1 else 1) → ridgeTakeNak sp w b = if 8 ≤ n
        then portTrain sp true (b.setPort sp { p with nakSeq := 4096, nakCount := 0 })
        else ridgeReplay sp (b.setPort sp { p with nakSeq := w, nakCount := n }))) ∧
    (∀ (b : Blk) sp h, (leaveOn b sp h).hops = h.hops + 1 ∧ (leaveOn b sp h).dst = h.dst ∧ (leaveOn b sp h).part = h.part) ∧
    (∀ (b : Blk) k m, k.via ≠ .local → partRefuses b k.h m = true →
      deliverHere k m b = ridgeCredit k (answerUnreach k 2 (countRefused b k.h m))) ∧
    (∀ (b : Blk) k m, k.via = .local ∨ partRefuses b k.h m = false → deliverHere k m b =
      (if pktDie b k.h ≠ b.ident.die then ridgeCredit k (crossDie (pktDie b k.h) k b) else enterPort k m 0 b))

/-- Reachability (R314 to R316). An UNREACH declares the destination chip, unless its CAUSE is DIE_DOWN, which fails that packet's transaction alone. An
ECHO is answered, and a reply shows its chip alive. A watched chip from which something is awaited gets an ECHO after REACH_IDLE cycles of silence, is
declared after REACH_WAIT more, and then gets one ECHO every REACH_WAIT cycles; one from which nothing is awaited leaves the set. -/
def Obligations.SilentChipsAreDeclared : Prop :=
  ∀ (s : State), Live s →
    (∀ i r h cause body, oldest s.b (fun r => match r.msg with
        | .unreach .. => true
        | _ => false) = some (i, r) → r.msg = .unreach h cause body →
      (cause = 4 → exec .unreach s = .next (s.after (failOne h body (takeRx i r s.b)))) ∧
      (cause ≠ 4 → exec .unreach s = .next (s.after (declareChip (h.dst % 16384) (takeRx i r s.b))))) ∧
    (∀ i r n, oldest s.b (fun r => match r.msg with
        | .echo _ => true
        | _ => false) = some (i, r) → r.msg = .echo n →
      exec .echo s = .next (s.after (answer r (.echoReply n) (takeRx i r s.b)))) ∧
    (∀ i r, oldest s.b (fun r => match r.msg with
        | .echoReply _ => true
        | _ => false) = some (i, r) → exec .echoReply s = .next (s.after (heard r.chip (takeRx i r s.b)))) ∧
    (∀ chip e, chip < 16384 → s.b.ridge.reach.find? (fun e => e.1 = chip) = some e →
      (e.2.echoAt = none → e.2.last + s.b.obj Obj.reachIdle 100000 ≤ s.b.clk.aon →
        (awaited s.b chip = true → exec (.reachIdleExpiry chip) s = .next (s.after (sendEcho chip
          { s.b with ridge := { s.b.ridge with reach := s.b.ridge.reach.set chip { e.2 with echoAt := some s.b.clk.aon } } }))) ∧
        (awaited s.b chip = false → exec (.reachIdleExpiry chip) s =
          .next (s.after { s.b with ridge := { s.b.ridge with reach := s.b.ridge.reach.del chip } }))) ∧
      (∀ t, e.2.echoAt = some t → t + s.b.obj Obj.reachWait 100000 ≤ s.b.clk.aon →
        (awaited s.b chip = true → exec (.reachWaitExpiry chip) s = .next (s.after (declareChip chip s.b))) ∧
        (awaited s.b chip = false → exec (.reachWaitExpiry chip) s =
          .next (s.after { s.b with ridge := { s.b.ridge with reach := s.b.ridge.reach.del chip } })))) ∧
    (∀ chip e, chip < 16384 → s.b.ridge.declared.find? (fun e => e.1 = chip) = some e →
      e.2 + s.b.obj Obj.reachWait 100000 ≤ s.b.clk.aon → exec (.declaredEcho chip) s = .next (s.after (sendEcho chip
        { s.b with ridge := { s.b.ridge with declared := s.b.ridge.declared.set chip s.b.clk.aon } }))) ∧
    (∀ (b : Blk) chip, let c := heard chip b
      c.ridge.declared.find? (fun e => e.1 = chip) = none ∧
      (∀ e, c.ridge.reach.find? (fun e => e.1 = chip) = some e → e.2 = { last := b.clk.aon }))

/-- Negotiation of a sub-port (R294, R297, R298, R334). With lock on every lane the ability message goes out; the partner's settles the mode, or holds the
port DOWN; when training ends well the credits go out and the partner's bring the port UP, and when it fails the next lower rate is tried, the
last failing to DOWN. A failed lane half, firmware's RETRAIN and the partner's message retrain a port that is UP, which comes back with a replay; RESET_PORT takes
it DOWN and starts afresh. -/
def Obligations.RidgePortsNegotiate : Prop :=
  ∀ (s : State) (sp : Nat), Live s → sp < 64 →
    let x := s.b.port_ sp
    (x.state = .training → x.step = .lock →
      let b0 := sendNeg sp (s.b.setPort sp { x with step := .ability, early := none })
      (x.early = none → exec (.laneLock sp) s = .next (s.after b0)) ∧
      (∀ n, x.early = some n → exec (.laneLock sp) s = .next (s.after (settleMode sp n b0)))) ∧
    (∀ bytes, bytes.length = 256 → field bytes 252 4 ≠ crc32 (bytes.take 252) ∨ bitsOf (field bytes 0 2) 13 12 ≠ 2 →
      exec (.neg sp bytes) s = .next (s.after s.b)) ∧
    (∀ bytes, bytes.length = 256 → field bytes 252 4 = crc32 (bytes.take 252) → bitsOf (field bytes 0 2) 13 12 = 2 →
      let n := parseNeg bytes
      let b0 := if x.state = .up ∨ x.retraining = true then ridgeTakeCredit sp (field bytes 6 2) (ridgeTakeCredit sp (field bytes 4 2) s.b) else s.b
      (x.state = .training → x.step = .ability → exec (.neg sp bytes) s = .next (s.after (settleMode sp n b0))) ∧
      (x.state = .training → x.step = .last → exec (.neg sp bytes) s = .next (s.after (portUp sp n b0))) ∧
      (x.state = .training → x.step = .lock ∨ x.step = .train →
        exec (.neg sp bytes) s = .next (s.after (b0.setPort sp { b0.port_ sp with early := some n }))) ∧
      (x.state = .up → let b1 := portTrain sp true b0
        exec (.neg sp bytes) s = .next (s.after (b1.setPort sp { b1.port_ sp with early := some n }))) ∧
      (x.state = .down ∨ x.state = .disabled → exec (.neg sp bytes) s = .next (s.after b0))) ∧
    (x.state = .training → x.step = .train →
      let b0 := sendNeg sp (s.b.setPort sp { x with step := .last, early := none })
      (x.early = none → exec (.portTrainingEnd sp true) s = .next (s.after b0)) ∧
      (∀ n, x.early = some n → exec (.portTrainingEnd sp true) s = .next (s.after (portUp sp n b0))) ∧
      (x.rate < 2 → exec (.portTrainingEnd sp false) s = .next (s.after (s.b.setPort sp { x with rate := x.rate + 1, early := none }))) ∧
      (2 ≤ x.rate → exec (.portTrainingEnd sp false) s = .next (s.after (portDown sp 1 s.b)))) ∧
    (∀ lane, lane < 256 → sp = 2 * (lane / 8) + (if portSplit s.b (lane / 8) ∧ 4 ≤ lane % 8 then 1 else 0) →
      let y := if 4 ≤ lane % 8 then { x with badHi := true } else { x with badLo := true }
      (x.state = .up → exec (.laneFail lane) s = .next (s.after (portTrain sp true (s.b.setPort sp y)))) ∧
      (x.state ≠ .up → exec (.laneFail lane) s = .next (s.after (s.b.setPort sp y)))) ∧
    (∀ r, Written s.b Obj.portRetrain 64 r → r.value = 1 → r.sub = sp →
      (x.state = .up → exec .portRetrain s = .next (s.after ((portTrain sp true s.b).answered r))) ∧
      (x.state = .down → exec .portRetrain s = .next (s.after ((portTrain sp false s.b).answered r)))) ∧
    (∀ r, Written s.b Obj.resetPort 64 r → r.value = 1 → r.sub = sp → x.state ≠ .disabled →
      exec .resetPort s = .next (s.after ((portTrain sp false ((portDown sp 0 s.b).setPort sp {})).answered r))) ∧
    (∀ (b : Blk) n, let c := portCfg b (sp / 2)
      let f := bitsOf c 5 4
      let b0 := b.setPort sp { b.port_ sp with peer := some n, chip := n.chip, die := n.die }
      (abilityCause b sp n ≠ 0 → settleMode sp n b = portDown sp (abilityCause b sp n) b0) ∧
      (abilityCause b sp n = 0 → let y := (settleMode sp n b).port_ sp
        y.state = (b.port_ sp).state ∧ y.step = .train ∧ y.rate = min 2 (max (bitsOf c 3 2) n.maxRate) ∧ y.revision = min 3 n.revision ∧
        y.halves = (portHalves b sp &&& n.halves) ∧ (y.width8 = true ↔ (portHalves b sp &&& n.halves) = 3) ∧
        (y.fec272 = true ↔ f ≠ 2 ∧ n.fec ≠ 2 ∧ (f = 1 ∨ f = 3 ∨ n.fec = 1 ∨ n.fec = 3)))) ∧
    (∀ (b : Blk) n, (b.port_ sp).retraining = false → (∀ i, i < 12 → ridgeLargest.getD (i / 2) 0 ≤ n.credits.getD i 0) →
      portUp sp n b = b.setPort sp { b.port_ sp with state := .up, credits := n.credits, rxValid := true }) ∧
    (∀ (b : Blk) n, (b.port_ sp).retraining = true → (∀ i, i < 12 → ridgeLargest.getD (i / 2) 0 ≤ n.credits.getD i 0) →
      let y := b.port_ sp
      (n.rxValid = false ∨ inReplay y.replay y.txSeq n.rxNext = false → portUp sp n b = portDown sp 1 b) ∧
      (n.rxValid = true → inReplay y.replay y.txSeq n.rxNext = true → portUp sp n b = ridgePay sp (bump Ctr.rgRetrains sp 1
        (ridgeReplay sp (ridgeAck sp ((n.rxNext + 4095) % 4096) (b.setPort sp { y with state := .up, retraining := false, nakOut := false })))))) ∧
    (∀ (b : Blk) n i, i < 12 → n.credits.getD i 0 < ridgeLargest.getD (i / 2) 0 → portUp sp n b = portDown sp 1 b)

/-- The loaded tables (R307, R311, R316, R317, R382). A ROUTE_LOAD begins where none is under way and the table lies in memory; when it is done every chip's
entry is the one loaded, an entry that cannot be read being as at reset, and every declaration ends. MCAST_LOAD loads the groups at once.
PART_LOAD keeps a record until its slot is quiescent; PARTITION_COMMIT then puts it, and an accepted PART_ID, in force. -/
def Obligations.RidgeTablesLoadAndCommit : Prop :=
  ∀ (s : State), Live s →
    (∀ r, Written s.b Obj.routeLoad 1 r →
      (s.b.ridge.loading = none → loadable s.b r.value 65536 = true → exec .routeLoad s =
        .next (s.after (({ s.b with ridge := { s.b.ridge with loading := some r.value } } : Blk).answered r))) ∧
      (s.b.ridge.loading.isSome = true ∨ loadable s.b r.value 65536 = false → exec .routeLoad s = .next (s.after (refuse r .range s.b)))) ∧
    (s.b.ridge.loading = none → exec .routeLoadDone s = .next (s.after s.b)) ∧
    (∀ off, s.b.ridge.loading = some off → let g := gsRead none off 65536 s.b
      ∃ t, exec .routeLoadDone s = .next t ∧ t.b.ridge.loading = none ∧ t.b.ridge.declared = [] ∧ t.b.ridge.mcast = g.1.ridge.mcast ∧
        ∀ i, i < 16384 → t.b.ridge.route.get routeReset i = (((tableWords 4 g.2).getD i none).getD routeReset) % 2 ^ 30) ∧
    (∀ r, Written s.b Obj.mcastLoad 1 r →
      (loadable s.b r.value 65536 = true → let g := gsRead none r.value 65536 s.b
        ∃ t, exec .mcastLoad s = .next t ∧ t.b.ridge.route = g.1.ridge.route ∧
          ∀ i, i < 4096 → t.b.ridge.mcast.get 0 i = (((tableWords 16 g.2).getD i none).getD 0) % 2 ^ 69) ∧
      (loadable s.b r.value 65536 = false → exec .mcastLoad s = .next (s.after (refuse r .range s.b)))) ∧
    (∀ r, Written s.b Obj.partLoad 16 r →
      (loadable s.b r.value 2176 = true → let g := gsRead none r.value 2176 s.b
        let x : PartSlot := { Tbl.get {} g.1.ridge.slots r.sub with loaded := some (if anyPoison g.2 then [] else plain g.2) }
        exec .partLoad s = .next (s.after (({ g.1 with ridge := { g.1.ridge with slots := g.1.ridge.slots.set r.sub x } } : Blk).answered r))) ∧
      (loadable s.b r.value 2176 = false → exec .partLoad s = .next (s.after (refuse r .range s.b)))) ∧
    (∀ n, n < 16 → partMoves s.b n = [] →
      (slotQuiet s.b n = false → exec (.partitionCommit n) s = .next (s.after s.b)) ∧
      (slotQuiet s.b n = true → s.b.mg.rwc.find? (fun e => e.1 = Obj.partId + n) = none →
        (∀ l, (Tbl.get {} s.b.ridge.slots n).loaded = some l →
          let x : PartSlot := { Tbl.get {} s.b.ridge.slots n with record := l, loaded := none, bad := l.isEmpty }
          exec (.partitionCommit n) s = .next (s.after { s.b with ridge := { s.b.ridge with slots := s.b.ridge.slots.set n x } })) ∧
        ((Tbl.get {} s.b.ridge.slots n).loaded = none → exec (.partitionCommit n) s = .next (s.after s.b))) ∧
      (∀ v, slotQuiet s.b n = true → s.b.mg.rwc.find? (fun e => e.1 = Obj.partId + n) = some (Obj.partId + n, v) →
        ∃ t, exec (.partitionCommit n) s = .next t ∧ t.b.obj (Obj.partId + n) 0xFFFF = v ∧
          t.b.mg.rwc.find? (fun e => e.1 = Obj.partId + n) = none))

/-! ### Reset and power -/

/-- Resets (R334 to R339). COLD_RST_N low resets the block; its rise takes the straps and IDENT inputs; ROOT_LOCKED starts the dividers; 32
CK_CORE cycles later reset ends, FREQ_ACK low; at 20,160 cycles the block is READY, and a released one's links and ports start. WARM_RST_N low, 1,024
CK_MGMT cycles after RESET_WARM, or loss of lock begins a warm reset, which keeps what R336 lists; the pin's rise, or 64 CK_AON
cycles, starts the sequence again. -/
def Obligations.ResetsRunTheirSequence : Prop :=
  ∀ (s : State), let p := s.b.pw
    exec .coldResetAssert s = .next (s.after (coldBlk s.b.straps s.b.ident s.b)) ∧
    (∀ st id, strapsOk st id = true → p.phase = .cold → let c := coldBlk st id s.b
      exec (.coldReset st id) s = .next (s.after { c with pw := { c.pw with phase := .lock } })) ∧
    (∀ st id, let c := coldBlk st id s.b
      c.pw.phase = .cold ∧ c.pw.freqAck = true ∧ c.pw.oe = false ∧ c.pw.readyPin = false ∧ c.straps = st ∧ c.ident = id ∧ c.clk = {} ∧
      c.front = {} ∧ c.xlat = {} ∧ c.pitches = [] ∧ c.units = [] ∧ c.gs = {} ∧ c.port = [] ∧ c.d2d = {} ∧ c.ridge = {} ∧ c.mg = {} ∧
      c.err = {} ∧ c.lan = {}) ∧
    (p.phase = .lock → ∃ t, exec .rootLocked s = .next t ∧ t.b.pw.phase = .dividers ∧ t.b.pw.rootLocked = true ∧
      t.b.clk = { aon := s.b.clk.aon, gs := s.b.clk.gs, d2d := s.b.clk.d2d } ∧ t.b.front = { s.b.front with
        queues := settleQueues s.b.front.descs s.b.front.queues } ∧ t.b.mg = s.b.mg ∧ t.b.err = s.b.err) ∧
    (p.phase = .dividers → 32 ≤ s.b.clk.core →
      let b0 : Blk := { s.b with pw := { p with phase := .initialise, oe := true, freqAck := false }, mg := { s.b.mg with released := !s.b.straps.held } }
      exec .resetEnd s = .next (s.after (samplePins (blockRamp (if p.cause = 0 then b0 else alert 6 b0))))) ∧
    (p.phase = .initialise → 20160 ≤ s.b.clk.core → let b0 : Blk := { s.b with pw := { p with phase := .ready, readyPin := true } }
      exec .ready s = .next (s.after (if s.b.mg.released then startLinks b0 else b0))) ∧
    (p.phase = .ready ∨ p.phase = .initialise ∨ p.phase = .dividers ∨ p.phase = .lock → let b0 : Blk := { s.b with pw := { p with warmRstN := false } }
      exec (.warmRstN false) s = .next (s.after (warmBegin 1 true b0))) ∧
    (p.phase = .warm → p.warmByPin = true →
      exec (.warmRstN true) s = .next (s.after { s.b with pw := { p with warmRstN := true, phase := .lock } })) ∧
    (p.phase = .warm → p.warmByPin = false → p.since + 64 ≤ s.b.clk.aon →
      exec .warmResetRestart s = .next (s.after { s.b with pw := { p with phase := .lock } })) ∧
    (∀ r, Live s → Written s.b Obj.resetWarm 1 r → r.value = 1 → p.warmAt = none →
      exec .resetWarm s = .next (s.after (({ s.b with pw := { p with warmAt := some s.b.clk.mgmt } } : Blk).answered r))) ∧
    (∀ t, p.warmAt = some t → (t + 1024 ≤ s.b.clk.mgmt → exec (.warmResetTrigger false) s = .next (s.after (warmBegin 2 false s.b))) ∧
      (s.b.clk.mgmt < t + 1024 → exec (.warmResetTrigger false) s = .next (s.after s.b))) ∧
    (p.phase = .ready ∨ p.phase = .initialise → exec (.warmResetTrigger true) s =
      .next (s.after (warmBegin 3 false { s.b with pw := { p with rootLocked := false } }))) ∧
    (∀ cause byPin, let c := warmBegin cause byPin s.b
      c.straps = s.b.straps ∧ c.ident = s.b.ident ∧ c.clk = { aon := s.b.clk.aon, gs := s.b.clk.gs, d2d := s.b.clk.d2d } ∧
      c.d2d = { features := s.b.d2d.features } ∧ c.lan.ujCtx = s.b.lan.ujCtx ∧ c.lan.ujQ = s.b.lan.ujQ ∧ c.lan.ujBlk = s.b.lan.ujBlk ∧
      c.lan.cnt = [] ∧ c.err.log = s.b.err.log ∧ c.err.staging = [] ∧ c.obj Obj.errLogWritten 0 = s.b.obj Obj.errLogWritten 0 ∧
      c.obj Obj.errLogLost 0 = s.b.obj Obj.errLogLost 0 ∧ (∀ k d, keptObj k = false → c.obj k d = d) ∧ c.pw.cause = cause ∧
      c.pw.phase = .warm ∧ c.pw.oe = false ∧ c.pw.freqAck = true ∧ c.pw.readyPin = false ∧ c.front = {} ∧ c.xlat = {} ∧ c.pitches = [] ∧
      c.gs = {} ∧ c.port = [] ∧ c.ridge = {} ∧ c.mem = landWrites s.b ∧
      c.out = s.b.out ++ (resetLinks s.b).map (fun q => .sideband q 2#64))

/-- The power inputs (R338, R343, R345 to R347), from the end of reset. A rise of DROOP_WARN is counted, starts stretching and cancels a release under way;
256 CK_CORE cycles after its fall stretching ends. FREQ_REQ is granted at once, or held while stretching lasts and 1,800 cycles after each release, and
granted then; its fall ends the grant, which starts the ramps. THROTTLE_ACK follows THROTTLE_REQ, and its fall starts the ramps. During reset the
inputs only take their levels. -/
def Obligations.PowerInputsAct : Prop :=
  ∀ (s : State), let p := s.b.pw
    (afterReset s.b = true →
      (p.droop = false → exec .droopWarnRise s = .next (s.after (bump Ctr.pwDroops 0 1 { s.b with pw := { p with
        droop := true, stretching := true, droopFell := none, freqHeld := p.freqHeld || (p.freqReq && !p.freqAck) } }))) ∧
      (p.droop = true → exec .droopWarnFall s =
        .next (s.after { s.b with pw := { p with droop := false, droopFell := some s.b.clk.core } })) ∧
      (∀ t, p.droopFell = some t → p.stretching = true → p.droop = false →
        (t + 256 ≤ s.b.clk.core → exec .stretchRelease s = .next (s.after
          { s.b with pw := { p with stretching := false, droopFell := none, released := some s.b.clk.core } })) ∧
        (s.b.clk.core < t + 256 → exec .stretchRelease s = .next (s.after s.b))) ∧
      (p.freqReq = false →
        (freqHold s.b = true → exec .freqReqRise s = .next (s.after { s.b with pw := { p with freqReq := true, freqHeld := true } })) ∧
        (freqHold s.b = false → exec .freqReqRise s = .next (s.after (bump Ctr.pwFreqChanges 0 1
          { s.b with pw := { p with freqReq := true, freqAck := true, freqHeld := false } })))) ∧
      (p.freqReq = true → p.freqHeld = true → freqHold s.b = false → exec .freqHoldEnd s = .next (s.after (bump Ctr.pwFreqChanges 0 1
        { s.b with pw := { p with freqAck := true, freqHeld := false } }))) ∧
      (let b0 : Blk := { s.b with pw := { p with freqReq := false, freqHeld := false, freqAck := false } }
       exec .freqReqFall s = .next (s.after (if p.freqAck then blockRamp b0 else b0))) ∧
      exec .throttleReqRise s = .next (s.after { s.b with pw := { p with throttleReq := true, throttleAck := true } }) ∧
      (let b0 : Blk := { s.b with pw := { p with throttleReq := false, throttleAck := false } }
       exec .throttleReqFall s = .next (s.after (if p.throttleAck then blockRamp b0 else b0)))) ∧
    (afterReset s.b = false →
      exec .droopWarnRise s = .next (s.after { s.b with pw := { p with droop := true } }) ∧
      exec .droopWarnFall s = .next (s.after { s.b with pw := { p with droop := false } }) ∧
      exec .freqReqRise s = .next (s.after { s.b with pw := { p with freqReq := true } }) ∧
      exec .freqReqFall s = .next (s.after { s.b with pw := { p with freqReq := false } }) ∧
      (∀ t, exec .throttleReqRise s = .next t → t.b.pw.throttleAck = p.throttleAck) ∧
      (∀ t, exec .throttleReqFall s = .next t → t.b.pw.throttleAck = p.throttleAck)) ∧
    (freqHold s.b = true ↔ p.stretching = true ∨ ∃ t, p.released = some t ∧ s.b.clk.core < t + 1800)

/-- The arrays' ramps and duty, the energy pass and CORE_KHZ (R333, R341, R342, R350). A ramp that is due starts at 25 %, is at 50 % after 64 ARRAY cycles
and full after 128. A block-wide trigger starts pitch k's 8k CK_CORE cycles later, unless it ramps
or waits to already (the model's choice, log 99). The duty is the least of ramp, throttle and 25 % under FREQ_ACK. Every 32 LANTERN
cycles each counter gains its events' energy, exactly, whole microjoules moving out of its remainder. Every 100,000 CK_AON cycles
CORE_KHZ takes the CK_CORE cycles of the window. -/
def Obligations.RampsEnergyAndCoreKhz : Prop :=
  ∀ (s : State), afterReset s.b = true →
    (∀ p t, p < 32 → (s.b.pitch p).arr.startAt = some t → t ≤ s.b.clk.core → let x := s.b.pitch p
      exec (.rampStart p) s = .next (s.after (s.b.setPitch p
        { x with arr := { x.arr with ramp := .quarter, rampAt := s.b.clk.pitch, startAt := none } }))) ∧
    (∀ p, p < 32 → let x := s.b.pitch p
      (x.arr.ramp = .quarter → x.arr.rampAt + 64 ≤ s.b.clk.pitch →
        exec (.rampStep p) s = .next (s.after (s.b.setPitch p { x with arr := { x.arr with ramp := .half } }))) ∧
      (x.arr.ramp = .half → x.arr.rampAt + 128 ≤ s.b.clk.pitch →
        exec (.rampStep p) s = .next (s.after (s.b.setPitch p { x with arr := { x.arr with ramp := .full } })))) ∧
    (∀ (b : Blk) p, p < b.pitchCount → let a := (b.pitch p).arr
      ((blockRamp b).pitch p).arr = if a.ramp = .full ∧ a.startAt = none then { a with startAt := some (b.clk.core + 8 * p) } else a) ∧
    (∀ (b : Blk) p, let r := if (b.pitch p).arr.ramp = .quarter then 1 else if (b.pitch p).arr.ramp = .half then 2 else 4
      dutyOf b p = min r (min (if b.pw.throttleAck then min 3 (b.obj Obj.throttleDuty 1 + 1) else 4) (if b.pw.freqAck then 1 else 4)) ∧
      (permitted b p = true ↔ dutyOf b p = 1 ∧ b.clk.pitch % 4 = 0 ∨ dutyOf b p = 2 ∧ b.clk.pitch % 2 = 0 ∨
        dutyOf b p = 3 ∧ b.clk.pitch % 4 ≠ 3 ∨ dutyOf b p = 0 ∨ dutyOf b p = 4)) ∧
    (s.b.clk.qtr < s.b.lan.lastPass + 32 → exec .energyPass s = .next (s.after s.b)) ∧
    (s.b.lan.lastPass + 32 ≤ s.b.clk.qtr → ∃ t, exec .energyPass s = .next t ∧ let c := commitEnergy s.b
      (∀ e, e < 14 → ∀ v, s.b.mg.rwc = [(Obj.energyCoef + e, v)] → energyCoef c e = v ∧ c.mg.rwc = []) ∧
      t.b.lan.lastPass = s.b.lan.lastPass + 32 ∧ t.b.lan.evCtx = [] ∧ t.b.lan.evQ = [] ∧ t.b.lan.evBlk = [] ∧ t.b.lan.cnt = s.b.lan.cnt ∧
      (∀ o, s.b.lan.remCtx.get 0 o < 10 ^ 9 → s.b.lan.ujCtx.get 0 o < 2 ^ 64 →
        let fj := s.b.lan.remCtx.get 0 o + ((s.b.lan.evCtx.filter (fun e => e.1 % 65536 = o)).map (fun e => e.2 * energyCoef c (e.1 / 65536))).sum
        t.b.lan.remCtx.get 0 o = fj % 10 ^ 9 ∧ t.b.lan.ujCtx.get 0 o = (s.b.lan.ujCtx.get 0 o + fj / 10 ^ 9) % 2 ^ 64) ∧
      t.b.lan.remBlk = (s.b.lan.remBlk + (s.b.lan.evBlk.map (fun e => e.2 * energyCoef c e.1)).sum
        + 10000 * c.obj Obj.staticMw 0 * (s.b.clk.aon - s.b.lan.lastAon)) % 10 ^ 9) ∧
    (s.b.pw.khzAon + 100000 ≤ s.b.clk.aon → ∃ t, exec .coreKhzWindow s = .next t ∧
      t.b.obj Obj.coreKhz 0 = (s.b.clk.core - s.b.pw.khzCore) % 2 ^ 32 ∧ t.b.pw.khzCore = s.b.clk.core ∧ t.b.pw.khzAon = s.b.pw.khzAon + 100000)

/-- R344: while the stretcher is active, STRETCH_MODE 0 delivers one pitch edge in two, 1 one in four and 2 three in four, out of every four CK_CORE
edges from a multiple of four; the pitch clock counts the delivered ones. A written mode waits while the stretcher is active, and is
in force when it commits. -/
def Obligations.StretchModeDividesEdges : Prop :=
  (∀ (b : Blk) (n : Nat), b.pw.stretching = true →
    let m := b.obj Obj.stretchMode 0
    let edges := ((List.range 4).filter (fun i => delivered b (4 * n + i))).length
    (m = 0 → edges = 2 ∧ ∀ i, delivered b (i + 1) ≠ delivered b i) ∧ (m = 1 → edges = 1) ∧ (m = 2 → edges = 3)) ∧
  (∀ s : State, Live s → s.pending = [] →
    step s = .next (s.after (pruneReach (effFaultBatchTimer (recheckAgain (counted s.b))))) ∧
    (counted s.b).clk.pitch = s.b.clk.pitch + (if (s.b.clk.root + 1) % 4 = 0 ∧ delivered s.b (s.b.clk.core + 1) = true then 1 else 0)) ∧
  (∀ (s : State) v, Live s → s.b.mg.rwc.find? (fun e => e.1 = Obj.stretchMode) = some (Obj.stretchMode, v) →
    (s.b.pw.stretching = true → exec (.rwcCommit 0x8020 0) s = .next (s.after s.b)) ∧
    (s.b.pw.stretching = false → ∃ t, exec (.rwcCommit 0x8020 0) s = .next t ∧ t.b.obj Obj.stretchMode 0 = v ∧
      t.b.mg.rwc.find? (fun e => e.1 = Obj.stretchMode) = none))

/-! ### Management and integrity -/

/-- The two bindings (R355 to R358, R366). The lead die takes a dynamic address, and answers a private read of its address with the oldest response, or
a NACK; MCTP control requests are answered, and Set Endpoint ID keeps its ID. A Relrok message that is not one is dropped and counted; another joins the
request sack behind those that wait, or finds 16 waiting and is answered BUSY. -/
def Obligations.ManagementBindingsAnswer : Prop :=
  ∀ (s : State), Live s →
    (∀ dyn, dyn < 128 → s.b.straps.lead = true → s.b.mg.dynAddr = none → s.b.straps.i3cAddr < 128 →
      exec (.setdasa s.b.straps.i3cAddr dyn) s = .next (s.after { s.b with mg := { s.b.mg with dynAddr := some dyn } }) ∧
      exec (.entdaa dyn) s = .next (s.after { s.b with mg := { s.b.mg with dynAddr := some dyn } })) ∧
    (∀ addr, addr < 128 → s.b.straps.lead = true → s.b.mg.dynAddr.getD s.b.straps.i3cAddr = addr →
      (s.b.mg.responses = [] → exec (.i3cPrivateRead addr) s = .next (s.after { s.b with out := s.b.out ++ [.i3cNack] })) ∧
      (∀ m rest, s.b.mg.responses = m :: rest → exec (.i3cPrivateRead addr) s =
        .next (s.after { s.b with mg := { s.b.mg with responses := rest }, out := s.b.out ++ [.i3cData m] }))) ∧
    (∀ bi, bound bi s.b = true →
      (∀ eid, 0 < eid → eid < 255 → ∃ t, exec (.setEndpointId bi eid) s = .next t ∧ eidOf bi t.b = eid ∧
        t.b.out = s.b.out ++ [.mctpControl bi [0, 0, BitVec.ofNat 8 eid, 0]] ∧ t.b.mg.sack = s.b.mg.sack ∧ t.b.mg.val = s.b.mg.val) ∧
      exec (.getEndpointId bi) s = .next (s.after { s.b with out := s.b.out ++ [.mctpControl bi [0, BitVec.ofNat 8 (eidOf bi s.b), 0, 0]] }) ∧
      exec (.getMctpVersionSupport bi) s = .next (s.after { s.b with out := s.b.out ++ [.mctpControl bi [0, 1, 0xF1, 0xF3, 0xFF, 0]] }) ∧
      exec (.getMessageTypeSupport bi) s = .next (s.after { s.b with out := s.b.out ++ [.mctpControl bi [0, 2, 0x00, 0x7F]] }) ∧
      exec (.getVendorDefinedMessageSupport bi) s = .next (s.after { s.b with out := s.b.out ++ [.mctpControl bi ([0, 0xFF, 1]
        ++ (relrokBytes []).drop 1 ++ [BitVec.ofNat 8 (Config.vendorCommandSet.toNat / 256), BitVec.ofNat 8 Config.vendorCommandSet.toNat])] })) ∧
    (∀ bi eid fn ok bytes, eid < 256 → fn < 64 → bound bi s.b = true →
      let r : Req := { bi := bi, eid := eid, fwd := none, body := bytes.drop 4, arrived := s.b.clk.mgmt }
      let good := (bi = .i3c ∨ fn = 0) ∧ ok = true ∧ 20 ≤ bytes.length ∧ bytes.length ≤ 4096 ∧ bytes.take 4 = (relrokBytes []).drop 1
      (¬good → exec (.relrokMessage bi eid fn ok bytes) s = .next (s.after (countObj Obj.mgmtDropped s.b))) ∧
      (good → s.b.mg.sack.length < 16 → exec (.relrokMessage bi eid fn ok bytes) s = .next (s.after (enterSack r s.b))) ∧
      (good → 16 ≤ s.b.mg.sack.length → exec (.relrokMessage bi eid fn ok bytes) s = .next (s.after (reply r
        (respBody s.b r .busy r.index r.sub (typeOf s.b r.index r.sub) 0 []) (countObj Obj.mgmtBusy s.b))))) ∧
    (∀ (b : Blk) (r : Req), r.bi = .inBand ∨ (∀ x ∈ b.mg.sack, x.bi = .i3c ∨ x.arrived ≠ r.arrived) → b.mg.fwd = none →
      (enterSack r b).mg.sack = b.mg.sack ++ [r])

/-- Requests for objects (R359 to R370, R372, R375, R379 to R381). A READ is answered with the object's value, PENDING set and the waiting value given while
an accepted one waits; DISCOVER names the next object; a WRITE sets an object, waits for its commit point (RWC), or does what its object lays down; one that is refused is
answered with its status; a request for another die is forwarded. -/
def Obligations.RequestsReadWriteAndAct : Prop :=
  ∀ (s : State), Live s →
    (∀ r row, headReq s.b = some r → r.op = 1 → r.key ≠ Obj.peekData → execHere s.b r = true → checkReq s.b r = .ok row →
      (isBlob row.ty = false → s.b.mg.rwc.find? (fun e => e.1 = r.key) = none → exec .read s = .next (s.after (finishReq r
        (respBody s.b r .ok r.index r.sub row.ty 0 (toLe (typeSize row.ty) (objNow s.b r.index r.sub row))) s.b))) ∧
      (∀ v, isBlob row.ty = false → s.b.mg.rwc.find? (fun e => e.1 = r.key) = some (r.key, v) → exec .read s = .next (s.after (finishReq r
        (respBody s.b r .ok r.index r.sub row.ty 1 (toLe (typeSize row.ty) v)) s.b))) ∧
      (isBlob row.ty = true → let l := (blobNow s.b r.index r.sub).drop r.off
        exec .read s = .next (s.after (finishReq r
          (respBody s.b r .ok r.index r.sub row.ty (if r.len < l.length then 2 else 0) (l.take r.len)) s.b)))) ∧
    (∀ r e, headReq s.b = some r → execHere s.b r = true → checkReq s.b r = .error e →
      (r.op = 1 → r.key ≠ Obj.peekData → exec .read s = .next (s.after (refuse r e s.b))) ∧
      (r.op = 2 → ownRow r = false → exec (.registerWrite .dict) s = .next (s.after (refuse r e s.b)))) ∧
    (∀ r, headReq s.b = some r → execHere s.b r = false → r.op = 1 → r.key ≠ Obj.peekData → exec .read s = .next (s.after (forwardReq r s.b))) ∧
    (∀ r k row, headReq s.b = some r → r.op = 3 → execHere s.b r = true → reqOk r = true → nextObj s.b r.key = some (k, row) →
      r.ty = 0 ∨ r.ty = row.ty → exec .discover s = .next (s.after (finishReq r (respBody s.b r .ok (k / 256) (k % 256) row.ty 0
        (toLe 1 row.ty ++ toLe 1 (accessCode row.acc) ++ toLe 2 (typeSize row.ty)
          ++ toLe 8 (if isBlob row.ty then 0 else objDefault s.b (k / 256) (k % 256) row))) s.b))) ∧
    (∀ r row, headReq s.b = some r → r.op = 2 → ownRow r = false → execHere s.b r = true → checkReq s.b r = .ok row →
      valueOkLow s.b r.index r.sub r.value = true → valueOkHigh s.b r.index r.sub r.value = true →
      (row.acc = .rwc → exec (.registerWrite .dict) s = .next (s.after (({ s.b with mg := { s.b.mg with
        rwc := s.b.mg.rwc.set r.key (r.value &&& valueMask r.index r.sub) } } : Blk).answered r))) ∧
      (row.acc ≠ .rwc → exec (.registerWrite .dict) s = .next (s.after ((setNow r.index r.sub r.value s.b).answered r)))) ∧
    (∀ fn off bytes v, fn < 64 → off < 2 ^ 22 → bytes = 1 ∨ bytes = 2 ∨ bytes = 4 ∨ bytes = 8 →
      exec (.registerWrite (.bar fn off bytes v)) s = .next (s.after (barWrite fn off bytes v s.b)) ∧
      (bytes ≠ 8 ∨ off % 8 ≠ 0 ∨ hostReaches s.b = false → barWrite fn off bytes v s.b = s.b)) ∧
    (∀ i n v, i < 65536 → n < 256 → i ≠ 0x7020 → i ≠ 0x7022 → s.b.mg.rwc.find? (fun e => e.1 = 256 * i + n) = some (256 * i + n, v) →
      (commits s.b i n v = true → exec (.rwcCommit i n) s = .next (s.after (commitNow i n v s.b))) ∧
      (commits s.b i n v = false → exec (.rwcCommit i n) s = .next (s.after s.b))) ∧
    (∀ (b : Blk) i n v d, (commitNow i n v b).obj (256 * i + n) d = v ∧ (commitNow i n v b).mg.rwc = Tbl.del b.mg.rwc (256 * i + n)) ∧
    (∀ r, Written s.b Obj.bootRelease 1 r → r.value = 1 → s.b.mg.released = false →
      exec .bootRelease s = .next (s.after ((startLinks { s.b with mg := { s.b.mg with released := true } }).answered r))) ∧
    (∀ r, Written s.b Obj.alertStatus 1 r → exec .alertStatusWrite s = .next (s.after ((s.b.setObj Obj.alertStatus
      (s.b.obj Obj.alertStatus 0 &&& ((2 ^ 32 - 1) ^^^ r.value))).answered r))) ∧
    (∀ r, Written s.b Obj.counterClear 1 r → r.value < 10 ∨ r.value = 0xFF → exec .counterClear s =
      .next (s.after (({ s.b with lan := { s.b.lan with cnt := s.b.lan.cnt.filter (fun e =>
        decide (r.value < 10 ∧ (e.1 / 256 - 0x9800) / 0x20 ≠ r.value)) } } : Blk).answered r))) ∧
    (∀ r, Written s.b Obj.sketchClear 1 r → r.value = 1 → exec .sketchClear s =
      .next (s.after (({ s.b with pitches := s.b.pitches.map (fun e => (e.1, { e.2 with sketch := [] })) } : Blk).answered r))) ∧
    (∀ r, Written s.b Obj.errLogClear 1 r → r.value = 1 → exec .errLogClear s =
      .next (s.after (({ s.b with err := { s.b.err with log := [] } } : Blk).answered r))) ∧
    (∀ r, Written s.b Obj.errRingBase 2 r → r.sub < 2 → (r.sub = 1 → 6 ≤ r.value ∧ r.value ≤ 16) →
      ringFits s.b (if r.sub = 0 then r.value else s.b.obj Obj.errRingBase 0) (if r.sub = 1 then r.value else s.b.obj Obj.errRingLog2 6) = true →
      let b0 := (s.b.setObj (Obj.errRingBase + r.sub) r.value).setObj Obj.errRingHead 0
      exec .errRingRestart s = .next (s.after ((ringHeader { b0 with err := { b0.err with ringWritten := 0, ringLost := 0 } }).answered r))) ∧
    (∀ r, Written s.b Obj.cacheInvalidate 1 r → r.value = 1 → exec .cacheInvalidate s = .next (s.after ((discardMdcs s.b).answered r))) ∧
    (∀ r, Written s.b Obj.cacheInvalidate 1 r → r.value = 6 → let x := s.b.xlat
      exec .cacheInvalidate s = .next (s.after (({ s.b with xlat := { x with
        desc := { x.desc with lines := [], fresh := true }, fault := { x.fault with lines := [], fresh := true } } } : Blk).answered r))) ∧
    (diagOn s.b = true →
      (∀ r row, headReq s.b = some r → r.op = 1 → r.key = Obj.peekData → execHere s.b r = true → checkReq s.b r = .ok row →
        let g := gsRead none (s.b.obj Obj.peekAddr 0) 8 s.b
        exec .peekDataRead s = .next (s.after (finishReq r (respBody s.b r .ok r.index r.sub row.ty 0 (plain g.2)) g.1))) ∧
      (∀ r, Written s.b Obj.peekData 1 r → exec .peekDataWrite s =
        .next (s.after ((gsWriteB (s.b.obj Obj.peekAddr 0) (toLe 8 r.value) s.b).answered r))) ∧
      (∀ r, Written s.b Obj.eccInject 1 r → 1 ≤ r.value % 16 → r.value % 16 ≤ 6 → r.value / 16 = 1 ∨ r.value / 16 = 2 →
        exec .eccInject s = .next (s.after (({ s.b with err := { s.b.err with
          inject := s.b.err.inject.filter (fun e => e.1 ≠ r.value % 16) ++ [(r.value % 16, r.value / 16)] } } : Blk).answered r))))

/-- Stuff sacks whose pointers disagree, and error records (R376, R386, R387, R391 to R393). A mismatch is counted and recorded with its class: what a READ or
PORT sack held is made again, an INTERNAL sack's packets are lost and their units fail, a RECORD sack's records are lost and counted. The
oldest error record goes to the log of the latest 256, raising its alert, and then to the ring, at most one in 16 CK_HALF cycles. -/
def Obligations.SacksResetAndRecordsAreCopied : Prop :=
  ∀ (s : State), Live s → let b0 := bump Ctr.sackMismatch 0 1 s.b
    (∀ uid u, s.b.unit? uid = some u → exec (.sackMismatch (.read uid)) s = .next (s.after (sackRecord 0 2 u.pitch
      ((s.b.desc? u.op).map (fun d => (s.b.q d.q).ctx)) false (reread u b0)))) ∧
    (∀ q, q < 256 → exec (.sackMismatch (.fetch q)) s = .next (s.after (sackRecord 0 0 0 (some (s.b.q q).ctx) false
      (bump Ctr.sackItemsReplayed 0 (match (s.b.q q).burst with
        | some x => x.n
        | none => 0) b0)))) ∧
    exec (.sackMismatch .port) s = .next (s.after (sackRecord 1 7 0 none false (redeliver b0))) ∧
    (∀ p, p < 32 → exec (.sackMismatch (.internal p)) s = .next (s.after (loseInside p b0))) ∧
    (∀ (b : Blk) p, inside b p = [] → loseInside p b = bump Ctr.sackItemsLost 0 0 (sackRecord 2 2 p none false b)) ∧
    exec (.sackMismatch .error) s = .next (s.after (sackRecord 3 8 0 none false (bump Ctr.sackItemsLost 0 s.b.err.staging.length
      { b0 with err := { b0.err with staging := [], errLost := b0.err.errLost + b0.err.staging.length } }))) ∧
    exec (.sackMismatch .fault) s = .next (s.after (sackRecord 3 1 0 none false (bump Ctr.sackItemsLost 0 s.b.xlat.staging.length
      (s.b.xlat.staging.foldl (fun b r => loseFault r b) { b0 with xlat := { b0.xlat with staging := [] } })))) ∧
    exec (.sackMismatch .trace) s = .next (s.after (sackRecord 3 0 0 none false (bump Ctr.sackItemsLost 0 s.b.err.trace.length
      { b0 with err := { b0.err with trace := [], traceLost := b0.err.traceLost + b0.err.trace.length } }))) ∧
    (∀ r t rest, s.b.err.staging = (r, t) :: rest →
      (copyDue s.b t = true → exec .errorRecordCopy s = .next (s.after (toRing r (toLog256 r
        { s.b with err := { s.b.err with staging := rest, lastCopy := some s.b.clk.half } })))) ∧
      (copyDue s.b t = false → exec .errorRecordCopy s = .next (s.after s.b))) ∧
    (∀ (b : Blk) r, let full := decide (256 ≤ b.err.log.length)
      let c := toLog256 r b
      c.err.log = (if full then b.err.log.drop 1 else b.err.log) ++ [r] ∧
      c.obj Obj.errLogWritten 0 = (b.obj Obj.errLogWritten 0 + 1) % 2 ^ 64 ∧
      c.obj Obj.alertStatus 0 = (if full then b.obj Obj.alertStatus 0 ||| 2 else b.obj Obj.alertStatus 0) ||| 1) ∧
    (∀ (b : Blk) r, let base := b.obj Obj.errRingBase 0
      let size := 2 ^ b.obj Obj.errRingLog2 6
      let n := b.err.ringWritten
      (base = 0 → toRing r b = b) ∧
      (base ≠ 0 → (n + 2 ^ 64 - b.obj Obj.errRingHead 0) % 2 ^ 64 < size →
        toRing r b = ringHeader { gsWriteB (base + 64 + 32 * (n % size)) (errBytes r) b with err := { b.err with ringWritten := n + 1 } }) ∧
      (base ≠ 0 → size ≤ (n + 2 ^ 64 - b.obj Obj.errRingHead 0) % 2 ^ 64 →
        toRing r b = ringHeader (bump Ctr.errRingLost 0 1 { b with err := { b.err with ringLost := b.err.ringLost + 1 } })))
end

