-- ==== Sys2Proof/Laws/Mem.lean ====
section
/-! SUPPORT. Every operation of a memory keeps its canonical form, and a byte reads as it was last written. -/
namespace Sys2Proof.Machine

theorem Mem.cellsOk_mono {lo lo' : Nat} (h : lo' ≤ lo) : ∀ {c : List Host.Cell}, Mem.cellsOk lo c = true → Mem.cellsOk lo' c = true
  | [], _ => rfl
  | (a, v) :: t, hc => by
    simp only [Mem.cellsOk, Bool.and_eq_true, decide_eq_true_eq] at hc ⊢
    exact ⟨⟨by omega, hc.1.2⟩, hc.2⟩

/-- Putting a byte at or past the bound keeps the form. -/
theorem Mem.put1_cellsOk {x : Byte} : ∀ {lo a : Nat} {c : List Host.Cell}, lo ≤ a → Mem.cellsOk lo c = true →
    Mem.cellsOk lo (Mem.put1 c a x) = true
  | lo, a, [], h, _ => by
    simp only [Mem.put1]
    split <;> simp_all [Mem.cellsOk]
  | lo, a, (k, v) :: t, h, hc => by
    simp only [Mem.cellsOk, Bool.and_eq_true, decide_eq_true_eq, bne_iff_ne] at hc
    obtain ⟨⟨h1, h2⟩, h3⟩ := hc
    simp only [Mem.put1]
    split
    · split
      · simp_all [Mem.cellsOk]
      · simp_all [Mem.cellsOk]
    · split
      · split
        · exact Mem.cellsOk_mono (by omega) h3
        · simp_all [Mem.cellsOk]
      · simp only [Mem.cellsOk, Bool.and_eq_true, decide_eq_true_eq, bne_iff_ne]
        exact ⟨⟨h1, h2⟩, Mem.put1_cellsOk (by omega) h3⟩

theorem Mem.putAll_cellsOk {lo : Nat} : ∀ {d : List Byte} {a : Nat} {c : List Host.Cell}, lo ≤ a → Mem.cellsOk lo c = true →
    Mem.cellsOk lo (Mem.putAll c a d) = true
  | [], _, _, _, hc => hc
  | _ :: _, a, _, h, hc => Mem.putAll_cellsOk (a := a + 1) (by omega) (Mem.put1_cellsOk h hc)

theorem Mem.normCells_cellsOk : ∀ c : List Host.Cell, Mem.cellsOk 0 (Mem.normCells c) = true
  | [] => rfl
  | (_, _) :: t => Mem.put1_cellsOk (Nat.zero_le _) (Mem.normCells_cellsOk t)

theorem Mem.write_wf {m : Mem} (h : m.wf = true) (a : Nat) (d : List PByte) : (m.write a d).wf = true :=
  Mem.putAll_cellsOk (Nat.zero_le _) h

theorem Mem.writeB_wf {m : Mem} (h : m.wf = true) (a : Nat) (d : List Byte) : (m.writeB a d).wf = true := Mem.write_wf h a _

theorem Mem.forget_wf {m : Mem} (h : m.wf = true) (a n stamp : Nat) : (m.forget a n stamp).wf = true := by
  unfold Mem.forget
  split <;> exact h

theorem Mem.norm_wf (m : Mem) : m.norm.wf = true := by
  unfold Mem.norm
  split
  · assumption
  · exact Mem.normCells_cellsOk m.cells

@[simp] theorem Mem.norm_of_wf {m : Mem} (h : m.wf = true) : m.norm = m := by simp [Mem.norm, h]

/-- An address below every entry reads as unlisted. -/
theorem Mem.look_low {b : Nat} : ∀ {lo : Nat} {c : List Host.Cell}, Mem.cellsOk lo c = true → b < lo → Mem.look c b = Mem.unlisted
  | _, [], _, _ => rfl
  | lo, (k, v) :: t, hc, hb => by
    simp only [Mem.cellsOk, Bool.and_eq_true, decide_eq_true_eq] at hc
    have : k ≠ b := by omega
    simp only [Mem.look, this, if_false]
    exact Mem.look_low hc.2 (by omega)

/-- A byte reads as it was put, every other one as before. -/
theorem Mem.look_put1 {x : Byte} {b : Nat} : ∀ {lo a : Nat} {c : List Host.Cell}, Mem.cellsOk lo c = true →
    Mem.look (Mem.put1 c a x) b = if b = a then x else Mem.look c b
  | lo, a, [], _ => by
    simp only [Mem.put1]
    by_cases hb : b = a <;> split <;> rename_i hx
    · simp [Mem.look, hx]
    · simp [Mem.look, hb]
    · simp [Mem.look]
    · simp [Mem.look, Ne.symm hb]
  | lo, a, (k, v) :: t, hc => by
    simp only [Mem.cellsOk, Bool.and_eq_true, decide_eq_true_eq] at hc
    obtain ⟨⟨h1, h2⟩, h3⟩ := hc
    simp only [Mem.put1]
    split
    · rename_i hlt
      split
      · rename_i hx
        by_cases hb : b = a
        · subst hb
          have hk : k ≠ b := by omega
          simp [Mem.look, hk, hx, Mem.look_low h3 (by omega : b < k + 1)]
        · simp [hb]
      · by_cases hb : b = a <;> simp [Mem.look, hb, eq_comm]
    · split
      · rename_i hak
        subst hak
        split
        · rename_i hx
          by_cases hb : b = a
          · subst hb
            simp [hx, Mem.look_low h3 (by omega : b < b + 1)]
          · simp [Mem.look, hb, Ne.symm hb]
        · by_cases hb : b = a <;> simp [Mem.look, hb, eq_comm]
      · by_cases hb : k = b
        · subst hb
          have : k ≠ a := by omega
          simp [Mem.look, this]
        · simp only [Mem.look, hb, if_false]
          exact Mem.look_put1 h3

/-- Bytes put at rising addresses. -/
theorem Mem.look_putAll {b : Nat} : ∀ {d : List Byte} {a : Nat} {c : List Host.Cell}, Mem.cellsOk 0 c = true →
    Mem.look (Mem.putAll c a d) b = if a ≤ b ∧ b < a + d.length then d.getD (b - a) 0 else Mem.look c b
  | [], a, c, _ => by
    simp [Mem.putAll]
  | x :: t, a, c, hc => by
    simp only [Mem.putAll]
    rw [Mem.look_putAll (Mem.put1_cellsOk (Nat.zero_le _) hc), Mem.look_put1 hc]
    by_cases hb : b = a
    · subst hb
      rw [if_neg (by omega), if_pos rfl, if_pos ⟨Nat.le_refl _, by simp⟩]
      simp
    · by_cases h2 : a + 1 ≤ b ∧ b < a + 1 + t.length
      · obtain ⟨k, rfl⟩ : ∃ k, b = a + 1 + k := ⟨b - (a + 1), by omega⟩
        rw [if_pos h2, if_pos ⟨by omega, by simp only [List.length_cons]; omega⟩]
        have e1 : a + 1 + k - (a + 1) = k := by omega
        have e2 : a + 1 + k - a = k + 1 := by omega
        simp [e1, e2]
      · rw [if_neg h2, if_neg hb, if_neg (by simp only [List.length_cons]; omega)]

end Sys2Proof.Machine
end

