-- ==== Sys2Proof/Laws/State.lean ====
section
/-! SUPPORT. One lemma for each field of the block and each update of Machine/Ops.lean, true by `rfl`, so that no later proof unfolds a
record update. -/
namespace Sys2Proof.Machine
variable (b : Blk)

/-! `bump` -/
@[simp] theorem bump_build (c k n : Nat) : (bump c k n b).build = b.build := rfl
@[simp] theorem bump_straps (c k n : Nat) : (bump c k n b).straps = b.straps := rfl
@[simp] theorem bump_ident (c k n : Nat) : (bump c k n b).ident = b.ident := rfl
@[simp] theorem bump_clk (c k n : Nat) : (bump c k n b).clk = b.clk := rfl
@[simp] theorem bump_pw (c k n : Nat) : (bump c k n b).pw = b.pw := rfl
@[simp] theorem bump_mem (c k n : Nat) : (bump c k n b).mem = b.mem := rfl
@[simp] theorem bump_hostMem (c k n : Nat) : (bump c k n b).hostMem = b.hostMem := rfl
@[simp] theorem bump_front (c k n : Nat) : (bump c k n b).front = b.front := rfl
@[simp] theorem bump_xlat (c k n : Nat) : (bump c k n b).xlat = b.xlat := rfl
@[simp] theorem bump_pitches (c k n : Nat) : (bump c k n b).pitches = b.pitches := rfl
@[simp] theorem bump_units (c k n : Nat) : (bump c k n b).units = b.units := rfl
@[simp] theorem bump_bags (c k n : Nat) : (bump c k n b).bags = b.bags := rfl
@[simp] theorem bump_frags (c k n : Nat) : (bump c k n b).frags = b.frags := rfl
@[simp] theorem bump_orphans (c k n : Nat) : (bump c k n b).orphans = b.orphans := rfl
@[simp] theorem bump_nextUid (c k n : Nat) : (bump c k n b).nextUid = b.nextUid := rfl
@[simp] theorem bump_gs (c k n : Nat) : (bump c k n b).gs = b.gs := rfl
@[simp] theorem bump_port (c k n : Nat) : (bump c k n b).port = b.port := rfl
@[simp] theorem bump_d2d (c k n : Nat) : (bump c k n b).d2d = b.d2d := rfl
@[simp] theorem bump_ridge (c k n : Nat) : (bump c k n b).ridge = b.ridge := rfl
@[simp] theorem bump_host (c k n : Nat) : (bump c k n b).host = b.host := rfl
@[simp] theorem bump_mg (c k n : Nat) : (bump c k n b).mg = b.mg := rfl
@[simp] theorem bump_err (c k n : Nat) : (bump c k n b).err = b.err := rfl
@[simp] theorem bump_retiring (c k n : Nat) : (bump c k n b).retiring = b.retiring := rfl
@[simp] theorem bump_out (c k n : Nat) : (bump c k n b).out = b.out := rfl
@[simp] theorem bump_stamp (c k n : Nat) : (bump c k n b).stamp = b.stamp := rfl
/-! `charge` -/
@[simp] theorem charge_build (ev n : Nat) (ctx q : Option Nat) : (charge ev n ctx q b).build = b.build := rfl
@[simp] theorem charge_straps (ev n : Nat) (ctx q : Option Nat) : (charge ev n ctx q b).straps = b.straps := rfl
@[simp] theorem charge_ident (ev n : Nat) (ctx q : Option Nat) : (charge ev n ctx q b).ident = b.ident := rfl
@[simp] theorem charge_clk (ev n : Nat) (ctx q : Option Nat) : (charge ev n ctx q b).clk = b.clk := rfl
@[simp] theorem charge_pw (ev n : Nat) (ctx q : Option Nat) : (charge ev n ctx q b).pw = b.pw := rfl
@[simp] theorem charge_mem (ev n : Nat) (ctx q : Option Nat) : (charge ev n ctx q b).mem = b.mem := rfl
@[simp] theorem charge_hostMem (ev n : Nat) (ctx q : Option Nat) : (charge ev n ctx q b).hostMem = b.hostMem := rfl
@[simp] theorem charge_front (ev n : Nat) (ctx q : Option Nat) : (charge ev n ctx q b).front = b.front := rfl
@[simp] theorem charge_xlat (ev n : Nat) (ctx q : Option Nat) : (charge ev n ctx q b).xlat = b.xlat := rfl
@[simp] theorem charge_pitches (ev n : Nat) (ctx q : Option Nat) : (charge ev n ctx q b).pitches = b.pitches := rfl
@[simp] theorem charge_units (ev n : Nat) (ctx q : Option Nat) : (charge ev n ctx q b).units = b.units := rfl
@[simp] theorem charge_bags (ev n : Nat) (ctx q : Option Nat) : (charge ev n ctx q b).bags = b.bags := rfl
@[simp] theorem charge_frags (ev n : Nat) (ctx q : Option Nat) : (charge ev n ctx q b).frags = b.frags := rfl
@[simp] theorem charge_orphans (ev n : Nat) (ctx q : Option Nat) : (charge ev n ctx q b).orphans = b.orphans := rfl
@[simp] theorem charge_nextUid (ev n : Nat) (ctx q : Option Nat) : (charge ev n ctx q b).nextUid = b.nextUid := rfl
@[simp] theorem charge_gs (ev n : Nat) (ctx q : Option Nat) : (charge ev n ctx q b).gs = b.gs := rfl
@[simp] theorem charge_port (ev n : Nat) (ctx q : Option Nat) : (charge ev n ctx q b).port = b.port := rfl
@[simp] theorem charge_d2d (ev n : Nat) (ctx q : Option Nat) : (charge ev n ctx q b).d2d = b.d2d := rfl
@[simp] theorem charge_ridge (ev n : Nat) (ctx q : Option Nat) : (charge ev n ctx q b).ridge = b.ridge := rfl
@[simp] theorem charge_host (ev n : Nat) (ctx q : Option Nat) : (charge ev n ctx q b).host = b.host := rfl
@[simp] theorem charge_mg (ev n : Nat) (ctx q : Option Nat) : (charge ev n ctx q b).mg = b.mg := rfl
@[simp] theorem charge_err (ev n : Nat) (ctx q : Option Nat) : (charge ev n ctx q b).err = b.err := rfl
@[simp] theorem charge_retiring (ev n : Nat) (ctx q : Option Nat) : (charge ev n ctx q b).retiring = b.retiring := rfl
@[simp] theorem charge_out (ev n : Nat) (ctx q : Option Nat) : (charge ev n ctx q b).out = b.out := rfl
@[simp] theorem charge_stamp (ev n : Nat) (ctx q : Option Nat) : (charge ev n ctx q b).stamp = b.stamp := rfl
/-! `setObj` -/
@[simp] theorem setObj_build (k v : Nat) : (b.setObj k v).build = b.build := rfl
@[simp] theorem setObj_straps (k v : Nat) : (b.setObj k v).straps = b.straps := rfl
@[simp] theorem setObj_ident (k v : Nat) : (b.setObj k v).ident = b.ident := rfl
@[simp] theorem setObj_clk (k v : Nat) : (b.setObj k v).clk = b.clk := rfl
@[simp] theorem setObj_pw (k v : Nat) : (b.setObj k v).pw = b.pw := rfl
@[simp] theorem setObj_mem (k v : Nat) : (b.setObj k v).mem = b.mem := rfl
@[simp] theorem setObj_hostMem (k v : Nat) : (b.setObj k v).hostMem = b.hostMem := rfl
@[simp] theorem setObj_front (k v : Nat) : (b.setObj k v).front = b.front := rfl
@[simp] theorem setObj_xlat (k v : Nat) : (b.setObj k v).xlat = b.xlat := rfl
@[simp] theorem setObj_pitches (k v : Nat) : (b.setObj k v).pitches = b.pitches := rfl
@[simp] theorem setObj_units (k v : Nat) : (b.setObj k v).units = b.units := rfl
@[simp] theorem setObj_bags (k v : Nat) : (b.setObj k v).bags = b.bags := rfl
@[simp] theorem setObj_frags (k v : Nat) : (b.setObj k v).frags = b.frags := rfl
@[simp] theorem setObj_orphans (k v : Nat) : (b.setObj k v).orphans = b.orphans := rfl
@[simp] theorem setObj_nextUid (k v : Nat) : (b.setObj k v).nextUid = b.nextUid := rfl
@[simp] theorem setObj_gs (k v : Nat) : (b.setObj k v).gs = b.gs := rfl
@[simp] theorem setObj_port (k v : Nat) : (b.setObj k v).port = b.port := rfl
@[simp] theorem setObj_d2d (k v : Nat) : (b.setObj k v).d2d = b.d2d := rfl
@[simp] theorem setObj_ridge (k v : Nat) : (b.setObj k v).ridge = b.ridge := rfl
@[simp] theorem setObj_host (k v : Nat) : (b.setObj k v).host = b.host := rfl
@[simp] theorem setObj_mg (k v : Nat) : (b.setObj k v).mg = { b.mg with val := b.mg.val.set k v } := rfl
@[simp] theorem setObj_err (k v : Nat) : (b.setObj k v).err = b.err := rfl
@[simp] theorem setObj_lan (k v : Nat) : (b.setObj k v).lan = b.lan := rfl
@[simp] theorem setObj_retiring (k v : Nat) : (b.setObj k v).retiring = b.retiring := rfl
@[simp] theorem setObj_out (k v : Nat) : (b.setObj k v).out = b.out := rfl
@[simp] theorem setObj_stamp (k v : Nat) : (b.setObj k v).stamp = b.stamp := rfl
/-! `setLink` -/
@[simp] theorem setLink_build (p : Nat) (l : Link) : (b.setLink p l).build = b.build := rfl
@[simp] theorem setLink_straps (p : Nat) (l : Link) : (b.setLink p l).straps = b.straps := rfl
@[simp] theorem setLink_ident (p : Nat) (l : Link) : (b.setLink p l).ident = b.ident := rfl
@[simp] theorem setLink_clk (p : Nat) (l : Link) : (b.setLink p l).clk = b.clk := rfl
@[simp] theorem setLink_pw (p : Nat) (l : Link) : (b.setLink p l).pw = b.pw := rfl
@[simp] theorem setLink_mem (p : Nat) (l : Link) : (b.setLink p l).mem = b.mem := rfl
@[simp] theorem setLink_hostMem (p : Nat) (l : Link) : (b.setLink p l).hostMem = b.hostMem := rfl
@[simp] theorem setLink_front (p : Nat) (l : Link) : (b.setLink p l).front = b.front := rfl
@[simp] theorem setLink_xlat (p : Nat) (l : Link) : (b.setLink p l).xlat = b.xlat := rfl
@[simp] theorem setLink_pitches (p : Nat) (l : Link) : (b.setLink p l).pitches = b.pitches := rfl
@[simp] theorem setLink_units (p : Nat) (l : Link) : (b.setLink p l).units = b.units := rfl
@[simp] theorem setLink_bags (p : Nat) (l : Link) : (b.setLink p l).bags = b.bags := rfl
@[simp] theorem setLink_frags (p : Nat) (l : Link) : (b.setLink p l).frags = b.frags := rfl
@[simp] theorem setLink_orphans (p : Nat) (l : Link) : (b.setLink p l).orphans = b.orphans := rfl
@[simp] theorem setLink_nextUid (p : Nat) (l : Link) : (b.setLink p l).nextUid = b.nextUid := rfl
@[simp] theorem setLink_gs (p : Nat) (l : Link) : (b.setLink p l).gs = b.gs := rfl
@[simp] theorem setLink_port (p : Nat) (l : Link) : (b.setLink p l).port = b.port := rfl
@[simp] theorem setLink_d2d (p : Nat) (l : Link) : (b.setLink p l).d2d = { b.d2d with links := b.d2d.links.set p l } := rfl
@[simp] theorem setLink_ridge (p : Nat) (l : Link) : (b.setLink p l).ridge = b.ridge := rfl
@[simp] theorem setLink_host (p : Nat) (l : Link) : (b.setLink p l).host = b.host := rfl
@[simp] theorem setLink_mg (p : Nat) (l : Link) : (b.setLink p l).mg = b.mg := rfl
@[simp] theorem setLink_err (p : Nat) (l : Link) : (b.setLink p l).err = b.err := rfl
@[simp] theorem setLink_lan (p : Nat) (l : Link) : (b.setLink p l).lan = b.lan := rfl
@[simp] theorem setLink_retiring (p : Nat) (l : Link) : (b.setLink p l).retiring = b.retiring := rfl
@[simp] theorem setLink_out (p : Nat) (l : Link) : (b.setLink p l).out = b.out := rfl
@[simp] theorem setLink_stamp (p : Nat) (l : Link) : (b.setLink p l).stamp = b.stamp := rfl
/-! `setPort` -/
@[simp] theorem setPort_build (p : Nat) (x : SubPort) : (b.setPort p x).build = b.build := rfl
@[simp] theorem setPort_straps (p : Nat) (x : SubPort) : (b.setPort p x).straps = b.straps := rfl
@[simp] theorem setPort_ident (p : Nat) (x : SubPort) : (b.setPort p x).ident = b.ident := rfl
@[simp] theorem setPort_clk (p : Nat) (x : SubPort) : (b.setPort p x).clk = b.clk := rfl
@[simp] theorem setPort_pw (p : Nat) (x : SubPort) : (b.setPort p x).pw = b.pw := rfl
@[simp] theorem setPort_mem (p : Nat) (x : SubPort) : (b.setPort p x).mem = b.mem := rfl
@[simp] theorem setPort_hostMem (p : Nat) (x : SubPort) : (b.setPort p x).hostMem = b.hostMem := rfl
@[simp] theorem setPort_front (p : Nat) (x : SubPort) : (b.setPort p x).front = b.front := rfl
@[simp] theorem setPort_xlat (p : Nat) (x : SubPort) : (b.setPort p x).xlat = b.xlat := rfl
@[simp] theorem setPort_pitches (p : Nat) (x : SubPort) : (b.setPort p x).pitches = b.pitches := rfl
@[simp] theorem setPort_units (p : Nat) (x : SubPort) : (b.setPort p x).units = b.units := rfl
@[simp] theorem setPort_bags (p : Nat) (x : SubPort) : (b.setPort p x).bags = b.bags := rfl
@[simp] theorem setPort_frags (p : Nat) (x : SubPort) : (b.setPort p x).frags = b.frags := rfl
@[simp] theorem setPort_orphans (p : Nat) (x : SubPort) : (b.setPort p x).orphans = b.orphans := rfl
@[simp] theorem setPort_nextUid (p : Nat) (x : SubPort) : (b.setPort p x).nextUid = b.nextUid := rfl
@[simp] theorem setPort_gs (p : Nat) (x : SubPort) : (b.setPort p x).gs = b.gs := rfl
@[simp] theorem setPort_port (p : Nat) (x : SubPort) : (b.setPort p x).port = b.port := rfl
@[simp] theorem setPort_d2d (p : Nat) (x : SubPort) : (b.setPort p x).d2d = b.d2d := rfl
@[simp] theorem setPort_ridge (p : Nat) (x : SubPort) : (b.setPort p x).ridge = { b.ridge with ports := b.ridge.ports.set p x } := rfl
@[simp] theorem setPort_host (p : Nat) (x : SubPort) : (b.setPort p x).host = b.host := rfl
@[simp] theorem setPort_mg (p : Nat) (x : SubPort) : (b.setPort p x).mg = b.mg := rfl
@[simp] theorem setPort_err (p : Nat) (x : SubPort) : (b.setPort p x).err = b.err := rfl
@[simp] theorem setPort_lan (p : Nat) (x : SubPort) : (b.setPort p x).lan = b.lan := rfl
@[simp] theorem setPort_retiring (p : Nat) (x : SubPort) : (b.setPort p x).retiring = b.retiring := rfl
@[simp] theorem setPort_out (p : Nat) (x : SubPort) : (b.setPort p x).out = b.out := rfl
@[simp] theorem setPort_stamp (p : Nat) (x : SubPort) : (b.setPort p x).stamp = b.stamp := rfl
/-! `setPitch` -/
@[simp] theorem setPitch_build (p : Nat) (x : Pitch) : (b.setPitch p x).build = b.build := rfl
@[simp] theorem setPitch_straps (p : Nat) (x : Pitch) : (b.setPitch p x).straps = b.straps := rfl
@[simp] theorem setPitch_ident (p : Nat) (x : Pitch) : (b.setPitch p x).ident = b.ident := rfl
@[simp] theorem setPitch_clk (p : Nat) (x : Pitch) : (b.setPitch p x).clk = b.clk := rfl
@[simp] theorem setPitch_pw (p : Nat) (x : Pitch) : (b.setPitch p x).pw = b.pw := rfl
@[simp] theorem setPitch_mem (p : Nat) (x : Pitch) : (b.setPitch p x).mem = b.mem := rfl
@[simp] theorem setPitch_hostMem (p : Nat) (x : Pitch) : (b.setPitch p x).hostMem = b.hostMem := rfl
@[simp] theorem setPitch_front (p : Nat) (x : Pitch) : (b.setPitch p x).front = b.front := rfl
@[simp] theorem setPitch_xlat (p : Nat) (x : Pitch) : (b.setPitch p x).xlat = b.xlat := rfl
@[simp] theorem setPitch_pitches (p : Nat) (x : Pitch) : (b.setPitch p x).pitches = b.pitches.set p x := rfl
@[simp] theorem setPitch_units (p : Nat) (x : Pitch) : (b.setPitch p x).units = b.units := rfl
@[simp] theorem setPitch_bags (p : Nat) (x : Pitch) : (b.setPitch p x).bags = b.bags := rfl
@[simp] theorem setPitch_frags (p : Nat) (x : Pitch) : (b.setPitch p x).frags = b.frags := rfl
@[simp] theorem setPitch_orphans (p : Nat) (x : Pitch) : (b.setPitch p x).orphans = b.orphans := rfl
@[simp] theorem setPitch_nextUid (p : Nat) (x : Pitch) : (b.setPitch p x).nextUid = b.nextUid := rfl
@[simp] theorem setPitch_gs (p : Nat) (x : Pitch) : (b.setPitch p x).gs = b.gs := rfl
@[simp] theorem setPitch_port (p : Nat) (x : Pitch) : (b.setPitch p x).port = b.port := rfl
@[simp] theorem setPitch_d2d (p : Nat) (x : Pitch) : (b.setPitch p x).d2d = b.d2d := rfl
@[simp] theorem setPitch_ridge (p : Nat) (x : Pitch) : (b.setPitch p x).ridge = b.ridge := rfl
@[simp] theorem setPitch_host (p : Nat) (x : Pitch) : (b.setPitch p x).host = b.host := rfl
@[simp] theorem setPitch_mg (p : Nat) (x : Pitch) : (b.setPitch p x).mg = b.mg := rfl
@[simp] theorem setPitch_err (p : Nat) (x : Pitch) : (b.setPitch p x).err = b.err := rfl
@[simp] theorem setPitch_lan (p : Nat) (x : Pitch) : (b.setPitch p x).lan = b.lan := rfl
@[simp] theorem setPitch_retiring (p : Nat) (x : Pitch) : (b.setPitch p x).retiring = b.retiring := rfl
@[simp] theorem setPitch_out (p : Nat) (x : Pitch) : (b.setPitch p x).out = b.out := rfl
@[simp] theorem setPitch_stamp (p : Nat) (x : Pitch) : (b.setPitch p x).stamp = b.stamp := rfl
/-! `setSlice` -/
@[simp] theorem setSlice_build (n : Nat) (x : Slice) : (b.setSlice n x).build = b.build := rfl
@[simp] theorem setSlice_straps (n : Nat) (x : Slice) : (b.setSlice n x).straps = b.straps := rfl
@[simp] theorem setSlice_ident (n : Nat) (x : Slice) : (b.setSlice n x).ident = b.ident := rfl
@[simp] theorem setSlice_clk (n : Nat) (x : Slice) : (b.setSlice n x).clk = b.clk := rfl
@[simp] theorem setSlice_pw (n : Nat) (x : Slice) : (b.setSlice n x).pw = b.pw := rfl
@[simp] theorem setSlice_mem (n : Nat) (x : Slice) : (b.setSlice n x).mem = b.mem := rfl
@[simp] theorem setSlice_hostMem (n : Nat) (x : Slice) : (b.setSlice n x).hostMem = b.hostMem := rfl
@[simp] theorem setSlice_front (n : Nat) (x : Slice) : (b.setSlice n x).front = b.front := rfl
@[simp] theorem setSlice_xlat (n : Nat) (x : Slice) : (b.setSlice n x).xlat = b.xlat := rfl
@[simp] theorem setSlice_pitches (n : Nat) (x : Slice) : (b.setSlice n x).pitches = b.pitches := rfl
@[simp] theorem setSlice_units (n : Nat) (x : Slice) : (b.setSlice n x).units = b.units := rfl
@[simp] theorem setSlice_bags (n : Nat) (x : Slice) : (b.setSlice n x).bags = b.bags := rfl
@[simp] theorem setSlice_frags (n : Nat) (x : Slice) : (b.setSlice n x).frags = b.frags := rfl
@[simp] theorem setSlice_orphans (n : Nat) (x : Slice) : (b.setSlice n x).orphans = b.orphans := rfl
@[simp] theorem setSlice_nextUid (n : Nat) (x : Slice) : (b.setSlice n x).nextUid = b.nextUid := rfl
@[simp] theorem setSlice_gs (n : Nat) (x : Slice) : (b.setSlice n x).gs = { b.gs with slices := b.gs.slices.set n x } := rfl
@[simp] theorem setSlice_port (n : Nat) (x : Slice) : (b.setSlice n x).port = b.port := rfl
@[simp] theorem setSlice_d2d (n : Nat) (x : Slice) : (b.setSlice n x).d2d = b.d2d := rfl
@[simp] theorem setSlice_ridge (n : Nat) (x : Slice) : (b.setSlice n x).ridge = b.ridge := rfl
@[simp] theorem setSlice_host (n : Nat) (x : Slice) : (b.setSlice n x).host = b.host := rfl
@[simp] theorem setSlice_mg (n : Nat) (x : Slice) : (b.setSlice n x).mg = b.mg := rfl
@[simp] theorem setSlice_err (n : Nat) (x : Slice) : (b.setSlice n x).err = b.err := rfl
@[simp] theorem setSlice_lan (n : Nat) (x : Slice) : (b.setSlice n x).lan = b.lan := rfl
@[simp] theorem setSlice_retiring (n : Nat) (x : Slice) : (b.setSlice n x).retiring = b.retiring := rfl
@[simp] theorem setSlice_out (n : Nat) (x : Slice) : (b.setSlice n x).out = b.out := rfl
@[simp] theorem setSlice_stamp (n : Nat) (x : Slice) : (b.setSlice n x).stamp = b.stamp := rfl
/-! `emit` -/
@[simp] theorem emit_build (o : Out) : (emit o b).build = b.build := rfl
@[simp] theorem emit_straps (o : Out) : (emit o b).straps = b.straps := rfl
@[simp] theorem emit_ident (o : Out) : (emit o b).ident = b.ident := rfl
@[simp] theorem emit_clk (o : Out) : (emit o b).clk = b.clk := rfl
@[simp] theorem emit_pw (o : Out) : (emit o b).pw = b.pw := rfl
@[simp] theorem emit_mem (o : Out) : (emit o b).mem = b.mem := rfl
@[simp] theorem emit_hostMem (o : Out) : (emit o b).hostMem = b.hostMem := rfl
@[simp] theorem emit_front (o : Out) : (emit o b).front = b.front := rfl
@[simp] theorem emit_xlat (o : Out) : (emit o b).xlat = b.xlat := rfl
@[simp] theorem emit_pitches (o : Out) : (emit o b).pitches = b.pitches := rfl
@[simp] theorem emit_units (o : Out) : (emit o b).units = b.units := rfl
@[simp] theorem emit_bags (o : Out) : (emit o b).bags = b.bags := rfl
@[simp] theorem emit_frags (o : Out) : (emit o b).frags = b.frags := rfl
@[simp] theorem emit_orphans (o : Out) : (emit o b).orphans = b.orphans := rfl
@[simp] theorem emit_nextUid (o : Out) : (emit o b).nextUid = b.nextUid := rfl
@[simp] theorem emit_gs (o : Out) : (emit o b).gs = b.gs := rfl
@[simp] theorem emit_port (o : Out) : (emit o b).port = b.port := rfl
@[simp] theorem emit_d2d (o : Out) : (emit o b).d2d = b.d2d := rfl
@[simp] theorem emit_ridge (o : Out) : (emit o b).ridge = b.ridge := rfl
@[simp] theorem emit_host (o : Out) : (emit o b).host = b.host := rfl
@[simp] theorem emit_mg (o : Out) : (emit o b).mg = b.mg := rfl
@[simp] theorem emit_err (o : Out) : (emit o b).err = b.err := rfl
@[simp] theorem emit_lan (o : Out) : (emit o b).lan = b.lan := rfl
@[simp] theorem emit_retiring (o : Out) : (emit o b).retiring = b.retiring := rfl
@[simp] theorem emit_out (o : Out) : (emit o b).out = b.out ++ [o] := rfl
@[simp] theorem emit_stamp (o : Out) : (emit o b).stamp = b.stamp := rfl
/-! `setQ` -/
@[simp] theorem setQ_build (n : Nat) (x : Queue) : (b.setQ n x).build = b.build := rfl
@[simp] theorem setQ_straps (n : Nat) (x : Queue) : (b.setQ n x).straps = b.straps := rfl
@[simp] theorem setQ_ident (n : Nat) (x : Queue) : (b.setQ n x).ident = b.ident := rfl
@[simp] theorem setQ_clk (n : Nat) (x : Queue) : (b.setQ n x).clk = b.clk := rfl
@[simp] theorem setQ_pw (n : Nat) (x : Queue) : (b.setQ n x).pw = b.pw := rfl
@[simp] theorem setQ_mem (n : Nat) (x : Queue) : (b.setQ n x).mem = b.mem := rfl
@[simp] theorem setQ_hostMem (n : Nat) (x : Queue) : (b.setQ n x).hostMem = b.hostMem := rfl
@[simp] theorem setQ_front (n : Nat) (x : Queue) : (b.setQ n x).front = { b.front with queues := b.front.queues.set n x } := rfl
@[simp] theorem setQ_xlat (n : Nat) (x : Queue) : (b.setQ n x).xlat = b.xlat := rfl
@[simp] theorem setQ_pitches (n : Nat) (x : Queue) : (b.setQ n x).pitches = b.pitches := rfl
@[simp] theorem setQ_units (n : Nat) (x : Queue) : (b.setQ n x).units = b.units := rfl
@[simp] theorem setQ_bags (n : Nat) (x : Queue) : (b.setQ n x).bags = b.bags := rfl
@[simp] theorem setQ_frags (n : Nat) (x : Queue) : (b.setQ n x).frags = b.frags := rfl
@[simp] theorem setQ_orphans (n : Nat) (x : Queue) : (b.setQ n x).orphans = b.orphans := rfl
@[simp] theorem setQ_nextUid (n : Nat) (x : Queue) : (b.setQ n x).nextUid = b.nextUid := rfl
@[simp] theorem setQ_gs (n : Nat) (x : Queue) : (b.setQ n x).gs = b.gs := rfl
@[simp] theorem setQ_port (n : Nat) (x : Queue) : (b.setQ n x).port = b.port := rfl
@[simp] theorem setQ_d2d (n : Nat) (x : Queue) : (b.setQ n x).d2d = b.d2d := rfl
@[simp] theorem setQ_ridge (n : Nat) (x : Queue) : (b.setQ n x).ridge = b.ridge := rfl
@[simp] theorem setQ_host (n : Nat) (x : Queue) : (b.setQ n x).host = b.host := rfl
@[simp] theorem setQ_mg (n : Nat) (x : Queue) : (b.setQ n x).mg = b.mg := rfl
@[simp] theorem setQ_err (n : Nat) (x : Queue) : (b.setQ n x).err = b.err := rfl
@[simp] theorem setQ_lan (n : Nat) (x : Queue) : (b.setQ n x).lan = b.lan := rfl
@[simp] theorem setQ_retiring (n : Nat) (x : Queue) : (b.setQ n x).retiring = b.retiring := rfl
@[simp] theorem setQ_out (n : Nat) (x : Queue) : (b.setQ n x).out = b.out := rfl
@[simp] theorem setQ_stamp (n : Nat) (x : Queue) : (b.setQ n x).stamp = b.stamp := rfl
/-! `modQ` -/
@[simp] theorem modQ_build (n : Nat) (f : Queue → Queue) : (b.modQ n f).build = b.build := rfl
@[simp] theorem modQ_straps (n : Nat) (f : Queue → Queue) : (b.modQ n f).straps = b.straps := rfl
@[simp] theorem modQ_ident (n : Nat) (f : Queue → Queue) : (b.modQ n f).ident = b.ident := rfl
@[simp] theorem modQ_clk (n : Nat) (f : Queue → Queue) : (b.modQ n f).clk = b.clk := rfl
@[simp] theorem modQ_pw (n : Nat) (f : Queue → Queue) : (b.modQ n f).pw = b.pw := rfl
@[simp] theorem modQ_mem (n : Nat) (f : Queue → Queue) : (b.modQ n f).mem = b.mem := rfl
@[simp] theorem modQ_hostMem (n : Nat) (f : Queue → Queue) : (b.modQ n f).hostMem = b.hostMem := rfl
@[simp] theorem modQ_front (n : Nat) (f : Queue → Queue) : (b.modQ n f).front = { b.front with queues := b.front.queues.set n (f (b.q n)) } := rfl
@[simp] theorem modQ_xlat (n : Nat) (f : Queue → Queue) : (b.modQ n f).xlat = b.xlat := rfl
@[simp] theorem modQ_pitches (n : Nat) (f : Queue → Queue) : (b.modQ n f).pitches = b.pitches := rfl
@[simp] theorem modQ_units (n : Nat) (f : Queue → Queue) : (b.modQ n f).units = b.units := rfl
@[simp] theorem modQ_bags (n : Nat) (f : Queue → Queue) : (b.modQ n f).bags = b.bags := rfl
@[simp] theorem modQ_frags (n : Nat) (f : Queue → Queue) : (b.modQ n f).frags = b.frags := rfl
@[simp] theorem modQ_orphans (n : Nat) (f : Queue → Queue) : (b.modQ n f).orphans = b.orphans := rfl
@[simp] theorem modQ_nextUid (n : Nat) (f : Queue → Queue) : (b.modQ n f).nextUid = b.nextUid := rfl
@[simp] theorem modQ_gs (n : Nat) (f : Queue → Queue) : (b.modQ n f).gs = b.gs := rfl
@[simp] theorem modQ_port (n : Nat) (f : Queue → Queue) : (b.modQ n f).port = b.port := rfl
@[simp] theorem modQ_d2d (n : Nat) (f : Queue → Queue) : (b.modQ n f).d2d = b.d2d := rfl
@[simp] theorem modQ_ridge (n : Nat) (f : Queue → Queue) : (b.modQ n f).ridge = b.ridge := rfl
@[simp] theorem modQ_host (n : Nat) (f : Queue → Queue) : (b.modQ n f).host = b.host := rfl
@[simp] theorem modQ_mg (n : Nat) (f : Queue → Queue) : (b.modQ n f).mg = b.mg := rfl
@[simp] theorem modQ_err (n : Nat) (f : Queue → Queue) : (b.modQ n f).err = b.err := rfl
@[simp] theorem modQ_lan (n : Nat) (f : Queue → Queue) : (b.modQ n f).lan = b.lan := rfl
@[simp] theorem modQ_retiring (n : Nat) (f : Queue → Queue) : (b.modQ n f).retiring = b.retiring := rfl
@[simp] theorem modQ_out (n : Nat) (f : Queue → Queue) : (b.modQ n f).out = b.out := rfl
@[simp] theorem modQ_stamp (n : Nat) (f : Queue → Queue) : (b.modQ n f).stamp = b.stamp := rfl
/-! `modDesc` -/
@[simp] theorem modDesc_build (id : Nat) (f : Desc → Desc) : (b.modDesc id f).build = b.build := rfl
@[simp] theorem modDesc_straps (id : Nat) (f : Desc → Desc) : (b.modDesc id f).straps = b.straps := rfl
@[simp] theorem modDesc_ident (id : Nat) (f : Desc → Desc) : (b.modDesc id f).ident = b.ident := rfl
@[simp] theorem modDesc_clk (id : Nat) (f : Desc → Desc) : (b.modDesc id f).clk = b.clk := rfl
@[simp] theorem modDesc_pw (id : Nat) (f : Desc → Desc) : (b.modDesc id f).pw = b.pw := rfl
@[simp] theorem modDesc_mem (id : Nat) (f : Desc → Desc) : (b.modDesc id f).mem = b.mem := rfl
@[simp] theorem modDesc_hostMem (id : Nat) (f : Desc → Desc) : (b.modDesc id f).hostMem = b.hostMem := rfl
@[simp] theorem modDesc_front (id : Nat) (f : Desc → Desc) : (b.modDesc id f).front = { b.front with descs := b.front.descs.map (fun d => if d.id = id then f d else d) } := rfl
@[simp] theorem modDesc_xlat (id : Nat) (f : Desc → Desc) : (b.modDesc id f).xlat = b.xlat := rfl
@[simp] theorem modDesc_pitches (id : Nat) (f : Desc → Desc) : (b.modDesc id f).pitches = b.pitches := rfl
@[simp] theorem modDesc_units (id : Nat) (f : Desc → Desc) : (b.modDesc id f).units = b.units := rfl
@[simp] theorem modDesc_bags (id : Nat) (f : Desc → Desc) : (b.modDesc id f).bags = b.bags := rfl
@[simp] theorem modDesc_frags (id : Nat) (f : Desc → Desc) : (b.modDesc id f).frags = b.frags := rfl
@[simp] theorem modDesc_orphans (id : Nat) (f : Desc → Desc) : (b.modDesc id f).orphans = b.orphans := rfl
@[simp] theorem modDesc_nextUid (id : Nat) (f : Desc → Desc) : (b.modDesc id f).nextUid = b.nextUid := rfl
@[simp] theorem modDesc_gs (id : Nat) (f : Desc → Desc) : (b.modDesc id f).gs = b.gs := rfl
@[simp] theorem modDesc_port (id : Nat) (f : Desc → Desc) : (b.modDesc id f).port = b.port := rfl
@[simp] theorem modDesc_d2d (id : Nat) (f : Desc → Desc) : (b.modDesc id f).d2d = b.d2d := rfl
@[simp] theorem modDesc_ridge (id : Nat) (f : Desc → Desc) : (b.modDesc id f).ridge = b.ridge := rfl
@[simp] theorem modDesc_host (id : Nat) (f : Desc → Desc) : (b.modDesc id f).host = b.host := rfl
@[simp] theorem modDesc_mg (id : Nat) (f : Desc → Desc) : (b.modDesc id f).mg = b.mg := rfl
@[simp] theorem modDesc_err (id : Nat) (f : Desc → Desc) : (b.modDesc id f).err = b.err := rfl
@[simp] theorem modDesc_lan (id : Nat) (f : Desc → Desc) : (b.modDesc id f).lan = b.lan := rfl
@[simp] theorem modDesc_retiring (id : Nat) (f : Desc → Desc) : (b.modDesc id f).retiring = b.retiring := rfl
@[simp] theorem modDesc_out (id : Nat) (f : Desc → Desc) : (b.modDesc id f).out = b.out := rfl
@[simp] theorem modDesc_stamp (id : Nat) (f : Desc → Desc) : (b.modDesc id f).stamp = b.stamp := rfl
/-! `addStatus` -/
@[simp] theorem addStatus_build (id : Nat) (st : Status) : (addStatus id st b).build = b.build := rfl
@[simp] theorem addStatus_straps (id : Nat) (st : Status) : (addStatus id st b).straps = b.straps := rfl
@[simp] theorem addStatus_ident (id : Nat) (st : Status) : (addStatus id st b).ident = b.ident := rfl
@[simp] theorem addStatus_clk (id : Nat) (st : Status) : (addStatus id st b).clk = b.clk := rfl
@[simp] theorem addStatus_pw (id : Nat) (st : Status) : (addStatus id st b).pw = b.pw := rfl
@[simp] theorem addStatus_mem (id : Nat) (st : Status) : (addStatus id st b).mem = b.mem := rfl
@[simp] theorem addStatus_hostMem (id : Nat) (st : Status) : (addStatus id st b).hostMem = b.hostMem := rfl
@[simp] theorem addStatus_xlat (id : Nat) (st : Status) : (addStatus id st b).xlat = b.xlat := rfl
@[simp] theorem addStatus_pitches (id : Nat) (st : Status) : (addStatus id st b).pitches = b.pitches := rfl
@[simp] theorem addStatus_units (id : Nat) (st : Status) : (addStatus id st b).units = b.units := rfl
@[simp] theorem addStatus_bags (id : Nat) (st : Status) : (addStatus id st b).bags = b.bags := rfl
@[simp] theorem addStatus_frags (id : Nat) (st : Status) : (addStatus id st b).frags = b.frags := rfl
@[simp] theorem addStatus_orphans (id : Nat) (st : Status) : (addStatus id st b).orphans = b.orphans := rfl
@[simp] theorem addStatus_nextUid (id : Nat) (st : Status) : (addStatus id st b).nextUid = b.nextUid := rfl
@[simp] theorem addStatus_gs (id : Nat) (st : Status) : (addStatus id st b).gs = b.gs := rfl
@[simp] theorem addStatus_port (id : Nat) (st : Status) : (addStatus id st b).port = b.port := rfl
@[simp] theorem addStatus_d2d (id : Nat) (st : Status) : (addStatus id st b).d2d = b.d2d := rfl
@[simp] theorem addStatus_ridge (id : Nat) (st : Status) : (addStatus id st b).ridge = b.ridge := rfl
@[simp] theorem addStatus_host (id : Nat) (st : Status) : (addStatus id st b).host = b.host := rfl
@[simp] theorem addStatus_mg (id : Nat) (st : Status) : (addStatus id st b).mg = b.mg := rfl
@[simp] theorem addStatus_err (id : Nat) (st : Status) : (addStatus id st b).err = b.err := rfl
@[simp] theorem addStatus_lan (id : Nat) (st : Status) : (addStatus id st b).lan = b.lan := rfl
@[simp] theorem addStatus_retiring (id : Nat) (st : Status) : (addStatus id st b).retiring = b.retiring := rfl
@[simp] theorem addStatus_out (id : Nat) (st : Status) : (addStatus id st b).out = b.out := rfl
@[simp] theorem addStatus_stamp (id : Nat) (st : Status) : (addStatus id st b).stamp = b.stamp := rfl
/-! `alert` -/
@[simp] theorem alert_build (bit : Nat) : (alert bit b).build = b.build := rfl
@[simp] theorem alert_straps (bit : Nat) : (alert bit b).straps = b.straps := rfl
@[simp] theorem alert_ident (bit : Nat) : (alert bit b).ident = b.ident := rfl
@[simp] theorem alert_clk (bit : Nat) : (alert bit b).clk = b.clk := rfl
@[simp] theorem alert_pw (bit : Nat) : (alert bit b).pw = b.pw := rfl
@[simp] theorem alert_mem (bit : Nat) : (alert bit b).mem = b.mem := rfl
@[simp] theorem alert_hostMem (bit : Nat) : (alert bit b).hostMem = b.hostMem := rfl
@[simp] theorem alert_front (bit : Nat) : (alert bit b).front = b.front := rfl
@[simp] theorem alert_xlat (bit : Nat) : (alert bit b).xlat = b.xlat := rfl
@[simp] theorem alert_pitches (bit : Nat) : (alert bit b).pitches = b.pitches := rfl
@[simp] theorem alert_units (bit : Nat) : (alert bit b).units = b.units := rfl
@[simp] theorem alert_bags (bit : Nat) : (alert bit b).bags = b.bags := rfl
@[simp] theorem alert_frags (bit : Nat) : (alert bit b).frags = b.frags := rfl
@[simp] theorem alert_orphans (bit : Nat) : (alert bit b).orphans = b.orphans := rfl
@[simp] theorem alert_nextUid (bit : Nat) : (alert bit b).nextUid = b.nextUid := rfl
@[simp] theorem alert_gs (bit : Nat) : (alert bit b).gs = b.gs := rfl
@[simp] theorem alert_port (bit : Nat) : (alert bit b).port = b.port := rfl
@[simp] theorem alert_d2d (bit : Nat) : (alert bit b).d2d = b.d2d := rfl
@[simp] theorem alert_ridge (bit : Nat) : (alert bit b).ridge = b.ridge := rfl
@[simp] theorem alert_host (bit : Nat) : (alert bit b).host = b.host := rfl
@[simp] theorem alert_err (bit : Nat) : (alert bit b).err = b.err := rfl
@[simp] theorem alert_lan (bit : Nat) : (alert bit b).lan = b.lan := rfl
@[simp] theorem alert_retiring (bit : Nat) : (alert bit b).retiring = b.retiring := rfl
@[simp] theorem alert_out (bit : Nat) : (alert bit b).out = b.out := rfl
@[simp] theorem alert_stamp (bit : Nat) : (alert bit b).stamp = b.stamp := rfl
/-! `modUnit` -/
@[simp] theorem modUnit_build (id : Nat) (f : Unit → Unit) : (b.modUnit id f).build = b.build := rfl
@[simp] theorem modUnit_straps (id : Nat) (f : Unit → Unit) : (b.modUnit id f).straps = b.straps := rfl
@[simp] theorem modUnit_ident (id : Nat) (f : Unit → Unit) : (b.modUnit id f).ident = b.ident := rfl
@[simp] theorem modUnit_clk (id : Nat) (f : Unit → Unit) : (b.modUnit id f).clk = b.clk := rfl
@[simp] theorem modUnit_pw (id : Nat) (f : Unit → Unit) : (b.modUnit id f).pw = b.pw := rfl
@[simp] theorem modUnit_mem (id : Nat) (f : Unit → Unit) : (b.modUnit id f).mem = b.mem := rfl
@[simp] theorem modUnit_hostMem (id : Nat) (f : Unit → Unit) : (b.modUnit id f).hostMem = b.hostMem := rfl
@[simp] theorem modUnit_front (id : Nat) (f : Unit → Unit) : (b.modUnit id f).front = b.front := rfl
@[simp] theorem modUnit_xlat (id : Nat) (f : Unit → Unit) : (b.modUnit id f).xlat = b.xlat := rfl
@[simp] theorem modUnit_pitches (id : Nat) (f : Unit → Unit) : (b.modUnit id f).pitches = b.pitches := rfl
@[simp] theorem modUnit_units (id : Nat) (f : Unit → Unit) : (b.modUnit id f).units = b.units.map (fun u => if u.uid = id then f u else u) := rfl
@[simp] theorem modUnit_bags (id : Nat) (f : Unit → Unit) : (b.modUnit id f).bags = b.bags := rfl
@[simp] theorem modUnit_frags (id : Nat) (f : Unit → Unit) : (b.modUnit id f).frags = b.frags := rfl
@[simp] theorem modUnit_orphans (id : Nat) (f : Unit → Unit) : (b.modUnit id f).orphans = b.orphans := rfl
@[simp] theorem modUnit_nextUid (id : Nat) (f : Unit → Unit) : (b.modUnit id f).nextUid = b.nextUid := rfl
@[simp] theorem modUnit_gs (id : Nat) (f : Unit → Unit) : (b.modUnit id f).gs = b.gs := rfl
@[simp] theorem modUnit_port (id : Nat) (f : Unit → Unit) : (b.modUnit id f).port = b.port := rfl
@[simp] theorem modUnit_d2d (id : Nat) (f : Unit → Unit) : (b.modUnit id f).d2d = b.d2d := rfl
@[simp] theorem modUnit_ridge (id : Nat) (f : Unit → Unit) : (b.modUnit id f).ridge = b.ridge := rfl
@[simp] theorem modUnit_host (id : Nat) (f : Unit → Unit) : (b.modUnit id f).host = b.host := rfl
@[simp] theorem modUnit_mg (id : Nat) (f : Unit → Unit) : (b.modUnit id f).mg = b.mg := rfl
@[simp] theorem modUnit_err (id : Nat) (f : Unit → Unit) : (b.modUnit id f).err = b.err := rfl
@[simp] theorem modUnit_lan (id : Nat) (f : Unit → Unit) : (b.modUnit id f).lan = b.lan := rfl
@[simp] theorem modUnit_retiring (id : Nat) (f : Unit → Unit) : (b.modUnit id f).retiring = b.retiring := rfl
@[simp] theorem modUnit_out (id : Nat) (f : Unit → Unit) : (b.modUnit id f).out = b.out := rfl
@[simp] theorem modUnit_stamp (id : Nat) (f : Unit → Unit) : (b.modUnit id f).stamp = b.stamp := rfl
/-! `modBag` -/
@[simp] theorem modBag_build (t : Nat) (f : Bag → Bag) : (b.modBag t f).build = b.build := rfl
@[simp] theorem modBag_straps (t : Nat) (f : Bag → Bag) : (b.modBag t f).straps = b.straps := rfl
@[simp] theorem modBag_ident (t : Nat) (f : Bag → Bag) : (b.modBag t f).ident = b.ident := rfl
@[simp] theorem modBag_clk (t : Nat) (f : Bag → Bag) : (b.modBag t f).clk = b.clk := rfl
@[simp] theorem modBag_pw (t : Nat) (f : Bag → Bag) : (b.modBag t f).pw = b.pw := rfl
@[simp] theorem modBag_mem (t : Nat) (f : Bag → Bag) : (b.modBag t f).mem = b.mem := rfl
@[simp] theorem modBag_hostMem (t : Nat) (f : Bag → Bag) : (b.modBag t f).hostMem = b.hostMem := rfl
@[simp] theorem modBag_front (t : Nat) (f : Bag → Bag) : (b.modBag t f).front = b.front := rfl
@[simp] theorem modBag_xlat (t : Nat) (f : Bag → Bag) : (b.modBag t f).xlat = b.xlat := rfl
@[simp] theorem modBag_pitches (t : Nat) (f : Bag → Bag) : (b.modBag t f).pitches = b.pitches := rfl
@[simp] theorem modBag_units (t : Nat) (f : Bag → Bag) : (b.modBag t f).units = b.units := rfl
@[simp] theorem modBag_bags (t : Nat) (f : Bag → Bag) : (b.modBag t f).bags = b.bags.map (fun x => if x.tag = t then f x else x) := rfl
@[simp] theorem modBag_frags (t : Nat) (f : Bag → Bag) : (b.modBag t f).frags = b.frags := rfl
@[simp] theorem modBag_orphans (t : Nat) (f : Bag → Bag) : (b.modBag t f).orphans = b.orphans := rfl
@[simp] theorem modBag_nextUid (t : Nat) (f : Bag → Bag) : (b.modBag t f).nextUid = b.nextUid := rfl
@[simp] theorem modBag_gs (t : Nat) (f : Bag → Bag) : (b.modBag t f).gs = b.gs := rfl
@[simp] theorem modBag_port (t : Nat) (f : Bag → Bag) : (b.modBag t f).port = b.port := rfl
@[simp] theorem modBag_d2d (t : Nat) (f : Bag → Bag) : (b.modBag t f).d2d = b.d2d := rfl
@[simp] theorem modBag_ridge (t : Nat) (f : Bag → Bag) : (b.modBag t f).ridge = b.ridge := rfl
@[simp] theorem modBag_host (t : Nat) (f : Bag → Bag) : (b.modBag t f).host = b.host := rfl
@[simp] theorem modBag_mg (t : Nat) (f : Bag → Bag) : (b.modBag t f).mg = b.mg := rfl
@[simp] theorem modBag_err (t : Nat) (f : Bag → Bag) : (b.modBag t f).err = b.err := rfl
@[simp] theorem modBag_lan (t : Nat) (f : Bag → Bag) : (b.modBag t f).lan = b.lan := rfl
@[simp] theorem modBag_retiring (t : Nat) (f : Bag → Bag) : (b.modBag t f).retiring = b.retiring := rfl
@[simp] theorem modBag_out (t : Nat) (f : Bag → Bag) : (b.modBag t f).out = b.out := rfl
@[simp] theorem modBag_stamp (t : Nat) (f : Bag → Bag) : (b.modBag t f).stamp = b.stamp := rfl
/-! `settle` -/
@[simp] theorem settle_build : b.settle.build = b.build := rfl
@[simp] theorem settle_straps : b.settle.straps = b.straps := rfl
@[simp] theorem settle_ident : b.settle.ident = b.ident := rfl
@[simp] theorem settle_clk : b.settle.clk = b.clk := rfl
@[simp] theorem settle_pw : b.settle.pw = { b.pw with heavyAhead := heavyLevel b, alertN := alertLevel b } := rfl
@[simp] theorem settle_mem : b.settle.mem = b.mem.norm := rfl
@[simp] theorem settle_hostMem : b.settle.hostMem = b.hostMem.norm := rfl
@[simp] theorem settle_front : b.settle.front = { b.front with queues := settleQueues b.front.descs b.front.queues } := rfl
@[simp] theorem settle_xlat : b.settle.xlat = b.xlat := rfl
@[simp] theorem settle_pitches : b.settle.pitches = b.pitches := rfl
@[simp] theorem settle_units : b.settle.units = b.units := rfl
@[simp] theorem settle_bags : b.settle.bags = b.bags := rfl
@[simp] theorem settle_frags : b.settle.frags = b.frags := rfl
@[simp] theorem settle_orphans : b.settle.orphans = b.orphans := rfl
@[simp] theorem settle_nextUid : b.settle.nextUid = b.nextUid := rfl
@[simp] theorem settle_gs : b.settle.gs = b.gs := rfl
@[simp] theorem settle_port : b.settle.port = b.port := rfl
@[simp] theorem settle_d2d : b.settle.d2d = b.d2d := rfl
@[simp] theorem settle_ridge : b.settle.ridge = b.ridge := rfl
@[simp] theorem settle_host : b.settle.host = b.host := rfl
@[simp] theorem settle_mg : b.settle.mg = b.mg := rfl
@[simp] theorem settle_err : b.settle.err = b.err := rfl
@[simp] theorem settle_lan : b.settle.lan = b.lan := rfl
@[simp] theorem settle_retiring : b.settle.retiring = b.retiring := rfl
@[simp] theorem settle_out : b.settle.out = b.out := rfl
@[simp] theorem settle_stamp : b.settle.stamp = b.stamp := rfl
/-! `after` -/
@[simp] theorem after_b (s : State) : (s.after b).b = b.settle := rfl
@[simp] theorem after_pending (s : State) : (s.after b).pending = s.pending := rfl

end Sys2Proof.Machine
end

