-- ==== Sys2Proof/Laws/Tbl.lean ====
section
/-! SUPPORT. A sparse table reads as it was last set. -/
namespace Sys2Proof.Tbl
variable {α β : Type}

@[simp] theorem get_set (d x : α) (n m : Nat) : ∀ t : Tbl α, Tbl.get d (Tbl.set t n x) m = if m = n then x else Tbl.get d t m
  | [] => by simp [Tbl.set, Tbl.get, eq_comm]
  | (k, v) :: t => by
    simp only [Tbl.set]
    split
    · simp [Tbl.get, eq_comm]
    · split
      · rename_i h
        subst h
        by_cases hm : m = n
        · simp [Tbl.get, hm]
        · simp [Tbl.get, hm, Ne.symm hm]
      · rename_i h1 h2
        by_cases hk : k = m
        · subst hk
          simp [Tbl.get, Ne.symm h2]
        · simp [Tbl.get, hk, get_set d x n m t]

theorem get_filter (d : α) (p : Nat → Bool) (n : Nat) : ∀ t : Tbl α,
    Tbl.get d (t.filter (fun e => p e.1)) n = if p n then Tbl.get d t n else d
  | [] => by simp [Tbl.get]
  | (k, v) :: t => by
    by_cases hk : k = n
    · subst hk
      by_cases hp : p k <;> simp [hp, Tbl.get, get_filter d p k t]
    · by_cases hp : p k <;> simp [hp, Tbl.get, hk, get_filter d p n t]

@[simp] theorem get_del (d : α) (n m : Nat) (t : Tbl α) : Tbl.get d (Tbl.del t n) m = if m = n then d else Tbl.get d t m := by
  have := get_filter d (fun k => decide (k ≠ n)) m t
  by_cases h : m = n <;> simp_all [Tbl.del]

/-- An entry-by-entry change that leaves the reset value as it is. -/
theorem get_map (d : α) (f : Nat → α → α) (n : Nat) (hd : f n d = d) : ∀ t : Tbl α,
    Tbl.get d (t.map (fun e => (e.1, f e.1 e.2))) n = f n (Tbl.get d t n)
  | [] => by simp [Tbl.get, hd]
  | (k, v) :: t => by
    by_cases hk : k = n
    · subst hk
      simp [Tbl.get]
    · simp [Tbl.get, hk, get_map d f n hd t]

end Sys2Proof.Tbl
end

