-- ==== Sys2Proof/Laws/Ops.lean ====
section
/-! SUPPORT. What the shared operations of Machine/Ops.lean do, once: how an effect becomes an outcome, what `settle` gives, and the parts of
the block that a completion or an error record leaves alone. -/
namespace Sys2Proof.Machine

/-- A command answers a next state exactly when its operands are in range. -/
theorem fire_next {ok : Bool} {f : Blk → Blk} {s t : State} : fire ok f s = .next t ↔ ok = true ∧ t = s.after (f s.b) := by
  unfold fire State.after
  cases ok <;> simp [eq_comm]

theorem fire_true (f : Blk → Blk) (s : State) : fire true f s = .next (s.after (f s.b)) := rfl

theorem fireReady_live {f : Blk → Blk} {s : State} {ok : Bool} (h : Live s) (hok : ok = true) :
    fireReady ok f s = .next (s.after (f s.b)) := by
  subst hok
  simp [fireReady, fire, State.after, show s.b.pw.phase = .ready from h]

/-! ### Queues -/

@[simp] theorem q_setQ (b : Blk) (n m : Nat) (x : Queue) : (b.setQ n x).q m = if m = n then x else b.q m := by simp [Blk.q]

@[simp] theorem q_modQ (b : Blk) (n m : Nat) (f : Queue → Queue) : (b.modQ n f).q m = if m = n then f (b.q n) else b.q m := by
  simp [Blk.q]

@[simp] theorem settleQueue_default (descs : List Desc) (n : Nat) : settleQueue descs n {} = {} := by simp [settleQueue]

/-- A queue after `settle`. -/
@[simp] theorem q_settle (b : Blk) (n : Nat) : b.settle.q n = settleQueue b.front.descs n (b.q n) := by
  simpa [Blk.q, settleQueues] using Tbl.get_map ({} : Queue) (settleQueue b.front.descs) n (settleQueue_default _ _) b.front.queues

theorem settleQueue_settled (descs : List Desc) (n : Nat) (x : Queue) : QueueSettled descs n (settleQueue descs n x) := by
  unfold QueueSettled settleQueue
  by_cases hi : descs.any (fun d => d.q = n) = true
  · exact .inl hi
  · right
    rw [Bool.not_eq_true] at hi
    by_cases h1 : x.stopping = true ∧ (x.st = .running ∨ x.st = .stalledEarly)
    · simp [hi, h1]
    · by_cases h2 : x.reattach = true ∧ x.st = .detached
      · simp [hi, h2]
      · have hn : descs.any (fun d => d.q = n) = false := hi
        rw [if_neg (by simp only [hn]; simpa [and_assoc] using h1), if_neg (by simp only [hn]; simpa using h2)]
        exact ⟨h1, h2⟩

/-! ### What every event leaves -/

@[simp] theorem obj_settle (b : Blk) (k d : Nat) : b.settle.obj k d = b.obj k d := rfl
@[simp] theorem heavyNow_settle (b : Blk) : heavyNow b.settle = heavyNow b := rfl

/-- `settle` gives the invariant. -/
theorem settle_settled (b : Blk) : b.settle.Settled where
  mem := Mem.norm_wf _
  hostMem := Mem.norm_wf _
  alertN := by simp [alertLevel]
  heavyAhead := by simp [heavyLevel]
  queues := by
    intro e he
    simp only [settle_front, settleQueues, List.mem_map] at he
    obtain ⟨a, -, rfl⟩ := he
    exact settleQueue_settled _ _ _

/-- A projection that each step of a fold keeps. -/
theorem foldl_keeps {σ α β : Type} (p : σ → β) (g : σ → α → σ) (h : ∀ s a, p (g s a) = p s) : ∀ (l : List α) (s : σ), p (l.foldl g s) = p s
  | [], _ => rfl
  | a :: t, s => by rw [List.foldl_cons, foldl_keeps p g h t, h]

/-! ### Error records and completions: what they leave alone -/

@[simp] theorem raise_build (r : ErrRec) (b : Blk) : (raise r b).build = b.build := by
  simp only [raise]
  split <;> split <;> split <;> simp
@[simp] theorem raise_straps (r : ErrRec) (b : Blk) : (raise r b).straps = b.straps := by
  simp only [raise]
  split <;> split <;> split <;> simp
@[simp] theorem raise_ident (r : ErrRec) (b : Blk) : (raise r b).ident = b.ident := by
  simp only [raise]
  split <;> split <;> split <;> simp
@[simp] theorem raise_clk (r : ErrRec) (b : Blk) : (raise r b).clk = b.clk := by
  simp only [raise]
  split <;> split <;> split <;> simp
@[simp] theorem raise_pw (r : ErrRec) (b : Blk) : (raise r b).pw = b.pw := by
  simp only [raise]
  split <;> split <;> split <;> simp
@[simp] theorem raise_mem (r : ErrRec) (b : Blk) : (raise r b).mem = b.mem := by
  simp only [raise]
  split <;> split <;> split <;> simp
@[simp] theorem raise_hostMem (r : ErrRec) (b : Blk) : (raise r b).hostMem = b.hostMem := by
  simp only [raise]
  split <;> split <;> split <;> simp
@[simp] theorem raise_front (r : ErrRec) (b : Blk) : (raise r b).front = b.front := by
  simp only [raise]
  split <;> split <;> split <;> simp
@[simp] theorem raise_xlat (r : ErrRec) (b : Blk) : (raise r b).xlat = b.xlat := by
  simp only [raise]
  split <;> split <;> split <;> simp
@[simp] theorem raise_pitches (r : ErrRec) (b : Blk) : (raise r b).pitches = b.pitches := by
  simp only [raise]
  split <;> split <;> split <;> simp
@[simp] theorem raise_units (r : ErrRec) (b : Blk) : (raise r b).units = b.units := by
  simp only [raise]
  split <;> split <;> split <;> simp
@[simp] theorem raise_bags (r : ErrRec) (b : Blk) : (raise r b).bags = b.bags := by
  simp only [raise]
  split <;> split <;> split <;> simp
@[simp] theorem raise_frags (r : ErrRec) (b : Blk) : (raise r b).frags = b.frags := by
  simp only [raise]
  split <;> split <;> split <;> simp
@[simp] theorem raise_orphans (r : ErrRec) (b : Blk) : (raise r b).orphans = b.orphans := by
  simp only [raise]
  split <;> split <;> split <;> simp
@[simp] theorem raise_nextUid (r : ErrRec) (b : Blk) : (raise r b).nextUid = b.nextUid := by
  simp only [raise]
  split <;> split <;> split <;> simp
@[simp] theorem raise_gs (r : ErrRec) (b : Blk) : (raise r b).gs = b.gs := by
  simp only [raise]
  split <;> split <;> split <;> simp
@[simp] theorem raise_port (r : ErrRec) (b : Blk) : (raise r b).port = b.port := by
  simp only [raise]
  split <;> split <;> split <;> simp
@[simp] theorem raise_d2d (r : ErrRec) (b : Blk) : (raise r b).d2d = b.d2d := by
  simp only [raise]
  split <;> split <;> split <;> simp
@[simp] theorem raise_ridge (r : ErrRec) (b : Blk) : (raise r b).ridge = b.ridge := by
  simp only [raise]
  split <;> split <;> split <;> simp
@[simp] theorem raise_host (r : ErrRec) (b : Blk) : (raise r b).host = b.host := by
  simp only [raise]
  split <;> split <;> split <;> simp
@[simp] theorem raise_mg (r : ErrRec) (b : Blk) : (raise r b).mg = b.mg := by
  simp only [raise]
  split <;> split <;> split <;> simp
@[simp] theorem raise_retiring (r : ErrRec) (b : Blk) : (raise r b).retiring = b.retiring := by
  simp only [raise]
  split <;> split <;> split <;> simp
@[simp] theorem raise_out (r : ErrRec) (b : Blk) : (raise r b).out = b.out := by
  simp only [raise]
  split <;> split <;> split <;> simp
@[simp] theorem raise_stamp (r : ErrRec) (b : Blk) : (raise r b).stamp = b.stamp := by
  simp only [raise]
  split <;> split <;> split <;> simp
@[simp] theorem modArrays_build (g : Nat → ArraySt → ArraySt) (b : Blk) : (modArrays g b).build = b.build := by
  unfold modArrays
  refine foldl_keeps Blk.build _ ?_ _ _
  exact fun _ _ => rfl
@[simp] theorem modArrays_straps (g : Nat → ArraySt → ArraySt) (b : Blk) : (modArrays g b).straps = b.straps := by
  unfold modArrays
  refine foldl_keeps Blk.straps _ ?_ _ _
  exact fun _ _ => rfl
@[simp] theorem modArrays_ident (g : Nat → ArraySt → ArraySt) (b : Blk) : (modArrays g b).ident = b.ident := by
  unfold modArrays
  refine foldl_keeps Blk.ident _ ?_ _ _
  exact fun _ _ => rfl
@[simp] theorem modArrays_clk (g : Nat → ArraySt → ArraySt) (b : Blk) : (modArrays g b).clk = b.clk := by
  unfold modArrays
  refine foldl_keeps Blk.clk _ ?_ _ _
  exact fun _ _ => rfl
@[simp] theorem modArrays_pw (g : Nat → ArraySt → ArraySt) (b : Blk) : (modArrays g b).pw = b.pw := by
  unfold modArrays
  refine foldl_keeps Blk.pw _ ?_ _ _
  exact fun _ _ => rfl
@[simp] theorem modArrays_mem (g : Nat → ArraySt → ArraySt) (b : Blk) : (modArrays g b).mem = b.mem := by
  unfold modArrays
  refine foldl_keeps Blk.mem _ ?_ _ _
  exact fun _ _ => rfl
@[simp] theorem modArrays_hostMem (g : Nat → ArraySt → ArraySt) (b : Blk) : (modArrays g b).hostMem = b.hostMem := by
  unfold modArrays
  refine foldl_keeps Blk.hostMem _ ?_ _ _
  exact fun _ _ => rfl
@[simp] theorem modArrays_front (g : Nat → ArraySt → ArraySt) (b : Blk) : (modArrays g b).front = b.front := by
  unfold modArrays
  refine foldl_keeps Blk.front _ ?_ _ _
  exact fun _ _ => rfl
@[simp] theorem modArrays_xlat (g : Nat → ArraySt → ArraySt) (b : Blk) : (modArrays g b).xlat = b.xlat := by
  unfold modArrays
  refine foldl_keeps Blk.xlat _ ?_ _ _
  exact fun _ _ => rfl
@[simp] theorem modArrays_units (g : Nat → ArraySt → ArraySt) (b : Blk) : (modArrays g b).units = b.units := by
  unfold modArrays
  refine foldl_keeps Blk.units _ ?_ _ _
  exact fun _ _ => rfl
@[simp] theorem modArrays_bags (g : Nat → ArraySt → ArraySt) (b : Blk) : (modArrays g b).bags = b.bags := by
  unfold modArrays
  refine foldl_keeps Blk.bags _ ?_ _ _
  exact fun _ _ => rfl
@[simp] theorem modArrays_frags (g : Nat → ArraySt → ArraySt) (b : Blk) : (modArrays g b).frags = b.frags := by
  unfold modArrays
  refine foldl_keeps Blk.frags _ ?_ _ _
  exact fun _ _ => rfl
@[simp] theorem modArrays_orphans (g : Nat → ArraySt → ArraySt) (b : Blk) : (modArrays g b).orphans = b.orphans := by
  unfold modArrays
  refine foldl_keeps Blk.orphans _ ?_ _ _
  exact fun _ _ => rfl
@[simp] theorem modArrays_nextUid (g : Nat → ArraySt → ArraySt) (b : Blk) : (modArrays g b).nextUid = b.nextUid := by
  unfold modArrays
  refine foldl_keeps Blk.nextUid _ ?_ _ _
  exact fun _ _ => rfl
@[simp] theorem modArrays_gs (g : Nat → ArraySt → ArraySt) (b : Blk) : (modArrays g b).gs = b.gs := by
  unfold modArrays
  refine foldl_keeps Blk.gs _ ?_ _ _
  exact fun _ _ => rfl
@[simp] theorem modArrays_port (g : Nat → ArraySt → ArraySt) (b : Blk) : (modArrays g b).port = b.port := by
  unfold modArrays
  refine foldl_keeps Blk.port _ ?_ _ _
  exact fun _ _ => rfl
@[simp] theorem modArrays_d2d (g : Nat → ArraySt → ArraySt) (b : Blk) : (modArrays g b).d2d = b.d2d := by
  unfold modArrays
  refine foldl_keeps Blk.d2d _ ?_ _ _
  exact fun _ _ => rfl
@[simp] theorem modArrays_ridge (g : Nat → ArraySt → ArraySt) (b : Blk) : (modArrays g b).ridge = b.ridge := by
  unfold modArrays
  refine foldl_keeps Blk.ridge _ ?_ _ _
  exact fun _ _ => rfl
@[simp] theorem modArrays_host (g : Nat → ArraySt → ArraySt) (b : Blk) : (modArrays g b).host = b.host := by
  unfold modArrays
  refine foldl_keeps Blk.host _ ?_ _ _
  exact fun _ _ => rfl
@[simp] theorem modArrays_mg (g : Nat → ArraySt → ArraySt) (b : Blk) : (modArrays g b).mg = b.mg := by
  unfold modArrays
  refine foldl_keeps Blk.mg _ ?_ _ _
  exact fun _ _ => rfl
@[simp] theorem modArrays_err (g : Nat → ArraySt → ArraySt) (b : Blk) : (modArrays g b).err = b.err := by
  unfold modArrays
  refine foldl_keeps Blk.err _ ?_ _ _
  exact fun _ _ => rfl
@[simp] theorem modArrays_lan (g : Nat → ArraySt → ArraySt) (b : Blk) : (modArrays g b).lan = b.lan := by
  unfold modArrays
  refine foldl_keeps Blk.lan _ ?_ _ _
  exact fun _ _ => rfl
@[simp] theorem modArrays_retiring (g : Nat → ArraySt → ArraySt) (b : Blk) : (modArrays g b).retiring = b.retiring := by
  unfold modArrays
  refine foldl_keeps Blk.retiring _ ?_ _ _
  exact fun _ _ => rfl
@[simp] theorem modArrays_out (g : Nat → ArraySt → ArraySt) (b : Blk) : (modArrays g b).out = b.out := by
  unfold modArrays
  refine foldl_keeps Blk.out _ ?_ _ _
  exact fun _ _ => rfl
@[simp] theorem modArrays_stamp (g : Nat → ArraySt → ArraySt) (b : Blk) : (modArrays g b).stamp = b.stamp := by
  unfold modArrays
  refine foldl_keeps Blk.stamp _ ?_ _ _
  exact fun _ _ => rfl
@[simp] theorem blockRamp_build (b : Blk) : (blockRamp b).build = b.build := by simp [blockRamp, startRamps]
@[simp] theorem pegRamp_build (b : Blk) : (pegRamp b).build = b.build := by simp [pegRamp, startRamps]
@[simp] theorem blockRamp_straps (b : Blk) : (blockRamp b).straps = b.straps := by simp [blockRamp, startRamps]
@[simp] theorem pegRamp_straps (b : Blk) : (pegRamp b).straps = b.straps := by simp [pegRamp, startRamps]
@[simp] theorem blockRamp_ident (b : Blk) : (blockRamp b).ident = b.ident := by simp [blockRamp, startRamps]
@[simp] theorem pegRamp_ident (b : Blk) : (pegRamp b).ident = b.ident := by simp [pegRamp, startRamps]
@[simp] theorem blockRamp_clk (b : Blk) : (blockRamp b).clk = b.clk := by simp [blockRamp, startRamps]
@[simp] theorem pegRamp_clk (b : Blk) : (pegRamp b).clk = b.clk := by simp [pegRamp, startRamps]
@[simp] theorem blockRamp_pw (b : Blk) : (blockRamp b).pw = b.pw := by simp [blockRamp, startRamps]
@[simp] theorem pegRamp_pw (b : Blk) : (pegRamp b).pw = b.pw := by simp [pegRamp, startRamps]
@[simp] theorem blockRamp_mem (b : Blk) : (blockRamp b).mem = b.mem := by simp [blockRamp, startRamps]
@[simp] theorem pegRamp_mem (b : Blk) : (pegRamp b).mem = b.mem := by simp [pegRamp, startRamps]
@[simp] theorem blockRamp_hostMem (b : Blk) : (blockRamp b).hostMem = b.hostMem := by simp [blockRamp, startRamps]
@[simp] theorem pegRamp_hostMem (b : Blk) : (pegRamp b).hostMem = b.hostMem := by simp [pegRamp, startRamps]
@[simp] theorem blockRamp_front (b : Blk) : (blockRamp b).front = b.front := by simp [blockRamp, startRamps]
@[simp] theorem pegRamp_front (b : Blk) : (pegRamp b).front = b.front := by simp [pegRamp, startRamps]
@[simp] theorem blockRamp_xlat (b : Blk) : (blockRamp b).xlat = b.xlat := by simp [blockRamp, startRamps]
@[simp] theorem pegRamp_xlat (b : Blk) : (pegRamp b).xlat = b.xlat := by simp [pegRamp, startRamps]
@[simp] theorem blockRamp_units (b : Blk) : (blockRamp b).units = b.units := by simp [blockRamp, startRamps]
@[simp] theorem pegRamp_units (b : Blk) : (pegRamp b).units = b.units := by simp [pegRamp, startRamps]
@[simp] theorem blockRamp_bags (b : Blk) : (blockRamp b).bags = b.bags := by simp [blockRamp, startRamps]
@[simp] theorem pegRamp_bags (b : Blk) : (pegRamp b).bags = b.bags := by simp [pegRamp, startRamps]
@[simp] theorem blockRamp_frags (b : Blk) : (blockRamp b).frags = b.frags := by simp [blockRamp, startRamps]
@[simp] theorem pegRamp_frags (b : Blk) : (pegRamp b).frags = b.frags := by simp [pegRamp, startRamps]
@[simp] theorem blockRamp_orphans (b : Blk) : (blockRamp b).orphans = b.orphans := by simp [blockRamp, startRamps]
@[simp] theorem pegRamp_orphans (b : Blk) : (pegRamp b).orphans = b.orphans := by simp [pegRamp, startRamps]
@[simp] theorem blockRamp_nextUid (b : Blk) : (blockRamp b).nextUid = b.nextUid := by simp [blockRamp, startRamps]
@[simp] theorem pegRamp_nextUid (b : Blk) : (pegRamp b).nextUid = b.nextUid := by simp [pegRamp, startRamps]
@[simp] theorem blockRamp_gs (b : Blk) : (blockRamp b).gs = b.gs := by simp [blockRamp, startRamps]
@[simp] theorem pegRamp_gs (b : Blk) : (pegRamp b).gs = b.gs := by simp [pegRamp, startRamps]
@[simp] theorem blockRamp_port (b : Blk) : (blockRamp b).port = b.port := by simp [blockRamp, startRamps]
@[simp] theorem pegRamp_port (b : Blk) : (pegRamp b).port = b.port := by simp [pegRamp, startRamps]
@[simp] theorem blockRamp_d2d (b : Blk) : (blockRamp b).d2d = b.d2d := by simp [blockRamp, startRamps]
@[simp] theorem pegRamp_d2d (b : Blk) : (pegRamp b).d2d = b.d2d := by simp [pegRamp, startRamps]
@[simp] theorem blockRamp_ridge (b : Blk) : (blockRamp b).ridge = b.ridge := by simp [blockRamp, startRamps]
@[simp] theorem pegRamp_ridge (b : Blk) : (pegRamp b).ridge = b.ridge := by simp [pegRamp, startRamps]
@[simp] theorem blockRamp_host (b : Blk) : (blockRamp b).host = b.host := by simp [blockRamp, startRamps]
@[simp] theorem pegRamp_host (b : Blk) : (pegRamp b).host = b.host := by simp [pegRamp, startRamps]
@[simp] theorem blockRamp_mg (b : Blk) : (blockRamp b).mg = b.mg := by simp [blockRamp, startRamps]
@[simp] theorem pegRamp_mg (b : Blk) : (pegRamp b).mg = b.mg := by simp [pegRamp, startRamps]
@[simp] theorem blockRamp_err (b : Blk) : (blockRamp b).err = b.err := by simp [blockRamp, startRamps]
@[simp] theorem pegRamp_err (b : Blk) : (pegRamp b).err = b.err := by simp [pegRamp, startRamps]
@[simp] theorem blockRamp_retiring (b : Blk) : (blockRamp b).retiring = b.retiring := by simp [blockRamp, startRamps]
@[simp] theorem pegRamp_retiring (b : Blk) : (pegRamp b).retiring = b.retiring := by simp [pegRamp, startRamps]
@[simp] theorem blockRamp_out (b : Blk) : (blockRamp b).out = b.out := by simp [blockRamp, startRamps]
@[simp] theorem pegRamp_out (b : Blk) : (pegRamp b).out = b.out := by simp [pegRamp, startRamps]
@[simp] theorem blockRamp_stamp (b : Blk) : (blockRamp b).stamp = b.stamp := by simp [blockRamp, startRamps]
@[simp] theorem pegRamp_stamp (b : Blk) : (pegRamp b).stamp = b.stamp := by simp [pegRamp, startRamps]
@[simp] theorem noteInstance_build (d : Desc) (b : Blk) : (noteInstance d b).build = b.build := by
  unfold noteInstance
  split <;> rfl
@[simp] theorem countUpdate_build (d : Desc) (b : Blk) : (countUpdate d b).build = b.build := by
  unfold countUpdate
  repeat' split
  all_goals simp
@[simp] theorem noteInstance_straps (d : Desc) (b : Blk) : (noteInstance d b).straps = b.straps := by
  unfold noteInstance
  split <;> rfl
@[simp] theorem countUpdate_straps (d : Desc) (b : Blk) : (countUpdate d b).straps = b.straps := by
  unfold countUpdate
  repeat' split
  all_goals simp
@[simp] theorem noteInstance_ident (d : Desc) (b : Blk) : (noteInstance d b).ident = b.ident := by
  unfold noteInstance
  split <;> rfl
@[simp] theorem countUpdate_ident (d : Desc) (b : Blk) : (countUpdate d b).ident = b.ident := by
  unfold countUpdate
  repeat' split
  all_goals simp
@[simp] theorem noteInstance_clk (d : Desc) (b : Blk) : (noteInstance d b).clk = b.clk := by
  unfold noteInstance
  split <;> rfl
@[simp] theorem countUpdate_clk (d : Desc) (b : Blk) : (countUpdate d b).clk = b.clk := by
  unfold countUpdate
  repeat' split
  all_goals simp
@[simp] theorem noteInstance_pw (d : Desc) (b : Blk) : (noteInstance d b).pw = b.pw := by
  unfold noteInstance
  split <;> rfl
@[simp] theorem countUpdate_pw (d : Desc) (b : Blk) : (countUpdate d b).pw = b.pw := by
  unfold countUpdate
  repeat' split
  all_goals simp
@[simp] theorem noteInstance_mem (d : Desc) (b : Blk) : (noteInstance d b).mem = b.mem := by
  unfold noteInstance
  split <;> rfl
@[simp] theorem countUpdate_mem (d : Desc) (b : Blk) : (countUpdate d b).mem = b.mem := by
  unfold countUpdate
  repeat' split
  all_goals simp
@[simp] theorem noteInstance_hostMem (d : Desc) (b : Blk) : (noteInstance d b).hostMem = b.hostMem := by
  unfold noteInstance
  split <;> rfl
@[simp] theorem countUpdate_hostMem (d : Desc) (b : Blk) : (countUpdate d b).hostMem = b.hostMem := by
  unfold countUpdate
  repeat' split
  all_goals simp
@[simp] theorem noteInstance_xlat (d : Desc) (b : Blk) : (noteInstance d b).xlat = b.xlat := by
  unfold noteInstance
  split <;> rfl
@[simp] theorem countUpdate_xlat (d : Desc) (b : Blk) : (countUpdate d b).xlat = b.xlat := by
  unfold countUpdate
  repeat' split
  all_goals simp
@[simp] theorem noteInstance_units (d : Desc) (b : Blk) : (noteInstance d b).units = b.units := by
  unfold noteInstance
  split <;> rfl
@[simp] theorem countUpdate_units (d : Desc) (b : Blk) : (countUpdate d b).units = b.units := by
  unfold countUpdate
  repeat' split
  all_goals simp
@[simp] theorem noteInstance_bags (d : Desc) (b : Blk) : (noteInstance d b).bags = b.bags := by
  unfold noteInstance
  split <;> rfl
@[simp] theorem countUpdate_bags (d : Desc) (b : Blk) : (countUpdate d b).bags = b.bags := by
  unfold countUpdate
  repeat' split
  all_goals simp
@[simp] theorem noteInstance_frags (d : Desc) (b : Blk) : (noteInstance d b).frags = b.frags := by
  unfold noteInstance
  split <;> rfl
@[simp] theorem countUpdate_frags (d : Desc) (b : Blk) : (countUpdate d b).frags = b.frags := by
  unfold countUpdate
  repeat' split
  all_goals simp
@[simp] theorem noteInstance_orphans (d : Desc) (b : Blk) : (noteInstance d b).orphans = b.orphans := by
  unfold noteInstance
  split <;> rfl
@[simp] theorem countUpdate_orphans (d : Desc) (b : Blk) : (countUpdate d b).orphans = b.orphans := by
  unfold countUpdate
  repeat' split
  all_goals simp
@[simp] theorem noteInstance_nextUid (d : Desc) (b : Blk) : (noteInstance d b).nextUid = b.nextUid := by
  unfold noteInstance
  split <;> rfl
@[simp] theorem countUpdate_nextUid (d : Desc) (b : Blk) : (countUpdate d b).nextUid = b.nextUid := by
  unfold countUpdate
  repeat' split
  all_goals simp
@[simp] theorem noteInstance_gs (d : Desc) (b : Blk) : (noteInstance d b).gs = b.gs := by
  unfold noteInstance
  split <;> rfl
@[simp] theorem countUpdate_gs (d : Desc) (b : Blk) : (countUpdate d b).gs = b.gs := by
  unfold countUpdate
  repeat' split
  all_goals simp
@[simp] theorem noteInstance_port (d : Desc) (b : Blk) : (noteInstance d b).port = b.port := by
  unfold noteInstance
  split <;> rfl
@[simp] theorem countUpdate_port (d : Desc) (b : Blk) : (countUpdate d b).port = b.port := by
  unfold countUpdate
  repeat' split
  all_goals simp
@[simp] theorem noteInstance_d2d (d : Desc) (b : Blk) : (noteInstance d b).d2d = b.d2d := by
  unfold noteInstance
  split <;> rfl
@[simp] theorem countUpdate_d2d (d : Desc) (b : Blk) : (countUpdate d b).d2d = b.d2d := by
  unfold countUpdate
  repeat' split
  all_goals simp
@[simp] theorem noteInstance_ridge (d : Desc) (b : Blk) : (noteInstance d b).ridge = b.ridge := by
  unfold noteInstance
  split <;> rfl
@[simp] theorem countUpdate_ridge (d : Desc) (b : Blk) : (countUpdate d b).ridge = b.ridge := by
  unfold countUpdate
  repeat' split
  all_goals simp
@[simp] theorem noteInstance_host (d : Desc) (b : Blk) : (noteInstance d b).host = b.host := by
  unfold noteInstance
  split <;> rfl
@[simp] theorem countUpdate_host (d : Desc) (b : Blk) : (countUpdate d b).host = b.host := by
  unfold countUpdate
  repeat' split
  all_goals simp
@[simp] theorem noteInstance_mg (d : Desc) (b : Blk) : (noteInstance d b).mg = b.mg := by
  unfold noteInstance
  split <;> rfl
@[simp] theorem countUpdate_mg (d : Desc) (b : Blk) : (countUpdate d b).mg = b.mg := by
  unfold countUpdate
  repeat' split
  all_goals simp
@[simp] theorem noteInstance_err (d : Desc) (b : Blk) : (noteInstance d b).err = b.err := by
  unfold noteInstance
  split <;> rfl
@[simp] theorem countUpdate_err (d : Desc) (b : Blk) : (countUpdate d b).err = b.err := by
  unfold countUpdate
  repeat' split
  all_goals simp
@[simp] theorem noteInstance_retiring (d : Desc) (b : Blk) : (noteInstance d b).retiring = b.retiring := by
  unfold noteInstance
  split <;> rfl
@[simp] theorem countUpdate_retiring (d : Desc) (b : Blk) : (countUpdate d b).retiring = b.retiring := by
  unfold countUpdate
  repeat' split
  all_goals simp
@[simp] theorem noteInstance_out (d : Desc) (b : Blk) : (noteInstance d b).out = b.out := by
  unfold noteInstance
  split <;> rfl
@[simp] theorem countUpdate_out (d : Desc) (b : Blk) : (countUpdate d b).out = b.out := by
  unfold countUpdate
  repeat' split
  all_goals simp
@[simp] theorem noteInstance_stamp (d : Desc) (b : Blk) : (noteInstance d b).stamp = b.stamp := by
  unfold noteInstance
  split <;> rfl
@[simp] theorem countUpdate_stamp (d : Desc) (b : Blk) : (countUpdate d b).stamp = b.stamp := by
  unfold countUpdate
  repeat' split
  all_goals simp
@[simp] theorem slackRecord_build (d : Desc) (b : Blk) : (slackRecord d b).build = b.build := rfl
@[simp] theorem complete1_build (id : Nat) (b : Blk) : (complete1 id b).build = b.build := by
  unfold complete1
  split
  · rfl
  · split
    · rfl
    · simp only [modQ_build]
      split <;> split <;> split <;> simp
@[simp] theorem complete_build (id : Nat) (b : Blk) : (complete id b).build = b.build := by
  unfold complete
  rw [foldl_keeps Blk.build _ (fun _ _ => by simp)]
  simp
@[simp] theorem completeWith_build (id : Nat) (s : Status) (aux dropped : Nat) (b : Blk) : (completeWith id s aux dropped b).build = b.build := by
  simp [completeWith]
@[simp] theorem slackRecord_straps (d : Desc) (b : Blk) : (slackRecord d b).straps = b.straps := rfl
@[simp] theorem complete1_straps (id : Nat) (b : Blk) : (complete1 id b).straps = b.straps := by
  unfold complete1
  split
  · rfl
  · split
    · rfl
    · simp only [modQ_straps]
      split <;> split <;> split <;> simp
@[simp] theorem complete_straps (id : Nat) (b : Blk) : (complete id b).straps = b.straps := by
  unfold complete
  rw [foldl_keeps Blk.straps _ (fun _ _ => by simp)]
  simp
@[simp] theorem completeWith_straps (id : Nat) (s : Status) (aux dropped : Nat) (b : Blk) : (completeWith id s aux dropped b).straps = b.straps := by
  simp [completeWith]
@[simp] theorem slackRecord_ident (d : Desc) (b : Blk) : (slackRecord d b).ident = b.ident := rfl
@[simp] theorem complete1_ident (id : Nat) (b : Blk) : (complete1 id b).ident = b.ident := by
  unfold complete1
  split
  · rfl
  · split
    · rfl
    · simp only [modQ_ident]
      split <;> split <;> split <;> simp
@[simp] theorem complete_ident (id : Nat) (b : Blk) : (complete id b).ident = b.ident := by
  unfold complete
  rw [foldl_keeps Blk.ident _ (fun _ _ => by simp)]
  simp
@[simp] theorem completeWith_ident (id : Nat) (s : Status) (aux dropped : Nat) (b : Blk) : (completeWith id s aux dropped b).ident = b.ident := by
  simp [completeWith]
@[simp] theorem slackRecord_clk (d : Desc) (b : Blk) : (slackRecord d b).clk = b.clk := rfl
@[simp] theorem complete1_clk (id : Nat) (b : Blk) : (complete1 id b).clk = b.clk := by
  unfold complete1
  split
  · rfl
  · split
    · rfl
    · simp only [modQ_clk]
      split <;> split <;> split <;> simp
@[simp] theorem complete_clk (id : Nat) (b : Blk) : (complete id b).clk = b.clk := by
  unfold complete
  rw [foldl_keeps Blk.clk _ (fun _ _ => by simp)]
  simp
@[simp] theorem completeWith_clk (id : Nat) (s : Status) (aux dropped : Nat) (b : Blk) : (completeWith id s aux dropped b).clk = b.clk := by
  simp [completeWith]
@[simp] theorem slackRecord_pw (d : Desc) (b : Blk) : (slackRecord d b).pw = b.pw := rfl
@[simp] theorem complete1_pw (id : Nat) (b : Blk) : (complete1 id b).pw = b.pw := by
  unfold complete1
  split
  · rfl
  · split
    · rfl
    · simp only [modQ_pw]
      split <;> split <;> split <;> simp
@[simp] theorem complete_pw (id : Nat) (b : Blk) : (complete id b).pw = b.pw := by
  unfold complete
  rw [foldl_keeps Blk.pw _ (fun _ _ => by simp)]
  simp
@[simp] theorem completeWith_pw (id : Nat) (s : Status) (aux dropped : Nat) (b : Blk) : (completeWith id s aux dropped b).pw = b.pw := by
  simp [completeWith]
@[simp] theorem slackRecord_mem (d : Desc) (b : Blk) : (slackRecord d b).mem = b.mem := rfl
@[simp] theorem complete1_mem (id : Nat) (b : Blk) : (complete1 id b).mem = b.mem := by
  unfold complete1
  split
  · rfl
  · split
    · rfl
    · simp only [modQ_mem]
      split <;> split <;> split <;> simp
@[simp] theorem complete_mem (id : Nat) (b : Blk) : (complete id b).mem = b.mem := by
  unfold complete
  rw [foldl_keeps Blk.mem _ (fun _ _ => by simp)]
  simp
@[simp] theorem completeWith_mem (id : Nat) (s : Status) (aux dropped : Nat) (b : Blk) : (completeWith id s aux dropped b).mem = b.mem := by
  simp [completeWith]
@[simp] theorem slackRecord_hostMem (d : Desc) (b : Blk) : (slackRecord d b).hostMem = b.hostMem := rfl
@[simp] theorem complete1_hostMem (id : Nat) (b : Blk) : (complete1 id b).hostMem = b.hostMem := by
  unfold complete1
  split
  · rfl
  · split
    · rfl
    · simp only [modQ_hostMem]
      split <;> split <;> split <;> simp
@[simp] theorem complete_hostMem (id : Nat) (b : Blk) : (complete id b).hostMem = b.hostMem := by
  unfold complete
  rw [foldl_keeps Blk.hostMem _ (fun _ _ => by simp)]
  simp
@[simp] theorem completeWith_hostMem (id : Nat) (s : Status) (aux dropped : Nat) (b : Blk) : (completeWith id s aux dropped b).hostMem = b.hostMem := by
  simp [completeWith]
@[simp] theorem slackRecord_xlat (d : Desc) (b : Blk) : (slackRecord d b).xlat = b.xlat := rfl
@[simp] theorem complete1_xlat (id : Nat) (b : Blk) : (complete1 id b).xlat = b.xlat := by
  unfold complete1
  split
  · rfl
  · split
    · rfl
    · simp only [modQ_xlat]
      split <;> split <;> split <;> simp
@[simp] theorem complete_xlat (id : Nat) (b : Blk) : (complete id b).xlat = b.xlat := by
  unfold complete
  rw [foldl_keeps Blk.xlat _ (fun _ _ => by simp)]
  simp
@[simp] theorem completeWith_xlat (id : Nat) (s : Status) (aux dropped : Nat) (b : Blk) : (completeWith id s aux dropped b).xlat = b.xlat := by
  simp [completeWith]
@[simp] theorem slackRecord_units (d : Desc) (b : Blk) : (slackRecord d b).units = b.units := rfl
@[simp] theorem complete1_units (id : Nat) (b : Blk) : (complete1 id b).units = b.units := by
  unfold complete1
  split
  · rfl
  · split
    · rfl
    · simp only [modQ_units]
      split <;> split <;> split <;> simp
@[simp] theorem complete_units (id : Nat) (b : Blk) : (complete id b).units = b.units := by
  unfold complete
  rw [foldl_keeps Blk.units _ (fun _ _ => by simp)]
  simp
@[simp] theorem completeWith_units (id : Nat) (s : Status) (aux dropped : Nat) (b : Blk) : (completeWith id s aux dropped b).units = b.units := by
  simp [completeWith]
@[simp] theorem slackRecord_bags (d : Desc) (b : Blk) : (slackRecord d b).bags = b.bags := rfl
@[simp] theorem complete1_bags (id : Nat) (b : Blk) : (complete1 id b).bags = b.bags := by
  unfold complete1
  split
  · rfl
  · split
    · rfl
    · simp only [modQ_bags]
      split <;> split <;> split <;> simp
@[simp] theorem complete_bags (id : Nat) (b : Blk) : (complete id b).bags = b.bags := by
  unfold complete
  rw [foldl_keeps Blk.bags _ (fun _ _ => by simp)]
  simp
@[simp] theorem completeWith_bags (id : Nat) (s : Status) (aux dropped : Nat) (b : Blk) : (completeWith id s aux dropped b).bags = b.bags := by
  simp [completeWith]
@[simp] theorem slackRecord_frags (d : Desc) (b : Blk) : (slackRecord d b).frags = b.frags := rfl
@[simp] theorem complete1_frags (id : Nat) (b : Blk) : (complete1 id b).frags = b.frags := by
  unfold complete1
  split
  · rfl
  · split
    · rfl
    · simp only [modQ_frags]
      split <;> split <;> split <;> simp
@[simp] theorem complete_frags (id : Nat) (b : Blk) : (complete id b).frags = b.frags := by
  unfold complete
  rw [foldl_keeps Blk.frags _ (fun _ _ => by simp)]
  simp
@[simp] theorem completeWith_frags (id : Nat) (s : Status) (aux dropped : Nat) (b : Blk) : (completeWith id s aux dropped b).frags = b.frags := by
  simp [completeWith]
@[simp] theorem slackRecord_orphans (d : Desc) (b : Blk) : (slackRecord d b).orphans = b.orphans := rfl
@[simp] theorem complete1_orphans (id : Nat) (b : Blk) : (complete1 id b).orphans = b.orphans := by
  unfold complete1
  split
  · rfl
  · split
    · rfl
    · simp only [modQ_orphans]
      split <;> split <;> split <;> simp
@[simp] theorem complete_orphans (id : Nat) (b : Blk) : (complete id b).orphans = b.orphans := by
  unfold complete
  rw [foldl_keeps Blk.orphans _ (fun _ _ => by simp)]
  simp
@[simp] theorem completeWith_orphans (id : Nat) (s : Status) (aux dropped : Nat) (b : Blk) : (completeWith id s aux dropped b).orphans = b.orphans := by
  simp [completeWith]
@[simp] theorem slackRecord_nextUid (d : Desc) (b : Blk) : (slackRecord d b).nextUid = b.nextUid := rfl
@[simp] theorem complete1_nextUid (id : Nat) (b : Blk) : (complete1 id b).nextUid = b.nextUid := by
  unfold complete1
  split
  · rfl
  · split
    · rfl
    · simp only [modQ_nextUid]
      split <;> split <;> split <;> simp
@[simp] theorem complete_nextUid (id : Nat) (b : Blk) : (complete id b).nextUid = b.nextUid := by
  unfold complete
  rw [foldl_keeps Blk.nextUid _ (fun _ _ => by simp)]
  simp
@[simp] theorem completeWith_nextUid (id : Nat) (s : Status) (aux dropped : Nat) (b : Blk) : (completeWith id s aux dropped b).nextUid = b.nextUid := by
  simp [completeWith]
@[simp] theorem slackRecord_gs (d : Desc) (b : Blk) : (slackRecord d b).gs = b.gs := rfl
@[simp] theorem complete1_gs (id : Nat) (b : Blk) : (complete1 id b).gs = b.gs := by
  unfold complete1
  split
  · rfl
  · split
    · rfl
    · simp only [modQ_gs]
      split <;> split <;> split <;> simp
@[simp] theorem complete_gs (id : Nat) (b : Blk) : (complete id b).gs = b.gs := by
  unfold complete
  rw [foldl_keeps Blk.gs _ (fun _ _ => by simp)]
  simp
@[simp] theorem completeWith_gs (id : Nat) (s : Status) (aux dropped : Nat) (b : Blk) : (completeWith id s aux dropped b).gs = b.gs := by
  simp [completeWith]
@[simp] theorem slackRecord_port (d : Desc) (b : Blk) : (slackRecord d b).port = b.port := rfl
@[simp] theorem complete1_port (id : Nat) (b : Blk) : (complete1 id b).port = b.port := by
  unfold complete1
  split
  · rfl
  · split
    · rfl
    · simp only [modQ_port]
      split <;> split <;> split <;> simp
@[simp] theorem complete_port (id : Nat) (b : Blk) : (complete id b).port = b.port := by
  unfold complete
  rw [foldl_keeps Blk.port _ (fun _ _ => by simp)]
  simp
@[simp] theorem completeWith_port (id : Nat) (s : Status) (aux dropped : Nat) (b : Blk) : (completeWith id s aux dropped b).port = b.port := by
  simp [completeWith]
@[simp] theorem slackRecord_d2d (d : Desc) (b : Blk) : (slackRecord d b).d2d = b.d2d := rfl
@[simp] theorem complete1_d2d (id : Nat) (b : Blk) : (complete1 id b).d2d = b.d2d := by
  unfold complete1
  split
  · rfl
  · split
    · rfl
    · simp only [modQ_d2d]
      split <;> split <;> split <;> simp
@[simp] theorem complete_d2d (id : Nat) (b : Blk) : (complete id b).d2d = b.d2d := by
  unfold complete
  rw [foldl_keeps Blk.d2d _ (fun _ _ => by simp)]
  simp
@[simp] theorem completeWith_d2d (id : Nat) (s : Status) (aux dropped : Nat) (b : Blk) : (completeWith id s aux dropped b).d2d = b.d2d := by
  simp [completeWith]
@[simp] theorem slackRecord_ridge (d : Desc) (b : Blk) : (slackRecord d b).ridge = b.ridge := rfl
@[simp] theorem complete1_ridge (id : Nat) (b : Blk) : (complete1 id b).ridge = b.ridge := by
  unfold complete1
  split
  · rfl
  · split
    · rfl
    · simp only [modQ_ridge]
      split <;> split <;> split <;> simp
@[simp] theorem complete_ridge (id : Nat) (b : Blk) : (complete id b).ridge = b.ridge := by
  unfold complete
  rw [foldl_keeps Blk.ridge _ (fun _ _ => by simp)]
  simp
@[simp] theorem completeWith_ridge (id : Nat) (s : Status) (aux dropped : Nat) (b : Blk) : (completeWith id s aux dropped b).ridge = b.ridge := by
  simp [completeWith]
@[simp] theorem slackRecord_host (d : Desc) (b : Blk) : (slackRecord d b).host = b.host := rfl
@[simp] theorem complete1_host (id : Nat) (b : Blk) : (complete1 id b).host = b.host := by
  unfold complete1
  split
  · rfl
  · split
    · rfl
    · simp only [modQ_host]
      split <;> split <;> split <;> simp
@[simp] theorem complete_host (id : Nat) (b : Blk) : (complete id b).host = b.host := by
  unfold complete
  rw [foldl_keeps Blk.host _ (fun _ _ => by simp)]
  simp
@[simp] theorem completeWith_host (id : Nat) (s : Status) (aux dropped : Nat) (b : Blk) : (completeWith id s aux dropped b).host = b.host := by
  simp [completeWith]
@[simp] theorem slackRecord_mg (d : Desc) (b : Blk) : (slackRecord d b).mg = b.mg := rfl
@[simp] theorem complete1_mg (id : Nat) (b : Blk) : (complete1 id b).mg = b.mg := by
  unfold complete1
  split
  · rfl
  · split
    · rfl
    · simp only [modQ_mg]
      split <;> split <;> split <;> simp
@[simp] theorem complete_mg (id : Nat) (b : Blk) : (complete id b).mg = b.mg := by
  unfold complete
  rw [foldl_keeps Blk.mg _ (fun _ _ => by simp)]
  simp
@[simp] theorem completeWith_mg (id : Nat) (s : Status) (aux dropped : Nat) (b : Blk) : (completeWith id s aux dropped b).mg = b.mg := by
  simp [completeWith]
@[simp] theorem slackRecord_err (d : Desc) (b : Blk) : (slackRecord d b).err = b.err := rfl
@[simp] theorem complete1_err (id : Nat) (b : Blk) : (complete1 id b).err = b.err := by
  unfold complete1
  split
  · rfl
  · split
    · rfl
    · simp only [modQ_err]
      split <;> split <;> split <;> simp
@[simp] theorem complete_err (id : Nat) (b : Blk) : (complete id b).err = b.err := by
  unfold complete
  rw [foldl_keeps Blk.err _ (fun _ _ => by simp)]
  simp
@[simp] theorem completeWith_err (id : Nat) (s : Status) (aux dropped : Nat) (b : Blk) : (completeWith id s aux dropped b).err = b.err := by
  simp [completeWith]
@[simp] theorem slackRecord_retiring (d : Desc) (b : Blk) : (slackRecord d b).retiring = b.retiring := rfl
@[simp] theorem complete1_retiring (id : Nat) (b : Blk) : (complete1 id b).retiring = b.retiring := by
  unfold complete1
  split
  · rfl
  · split
    · rfl
    · simp only [modQ_retiring]
      split <;> split <;> split <;> simp
@[simp] theorem complete_retiring (id : Nat) (b : Blk) : (complete id b).retiring = b.retiring := by
  unfold complete
  rw [foldl_keeps Blk.retiring _ (fun _ _ => by simp)]
  simp
@[simp] theorem completeWith_retiring (id : Nat) (s : Status) (aux dropped : Nat) (b : Blk) : (completeWith id s aux dropped b).retiring = b.retiring := by
  simp [completeWith]
@[simp] theorem slackRecord_out (d : Desc) (b : Blk) : (slackRecord d b).out = b.out := rfl
@[simp] theorem complete1_out (id : Nat) (b : Blk) : (complete1 id b).out = b.out := by
  unfold complete1
  split
  · rfl
  · split
    · rfl
    · simp only [modQ_out]
      split <;> split <;> split <;> simp
@[simp] theorem complete_out (id : Nat) (b : Blk) : (complete id b).out = b.out := by
  unfold complete
  rw [foldl_keeps Blk.out _ (fun _ _ => by simp)]
  simp
@[simp] theorem completeWith_out (id : Nat) (s : Status) (aux dropped : Nat) (b : Blk) : (completeWith id s aux dropped b).out = b.out := by
  simp [completeWith]
@[simp] theorem slackRecord_stamp (d : Desc) (b : Blk) : (slackRecord d b).stamp = b.stamp := rfl
@[simp] theorem complete1_stamp (id : Nat) (b : Blk) : (complete1 id b).stamp = b.stamp := by
  unfold complete1
  split
  · rfl
  · split
    · rfl
    · simp only [modQ_stamp]
      split <;> split <;> split <;> simp
@[simp] theorem complete_stamp (id : Nat) (b : Blk) : (complete id b).stamp = b.stamp := by
  unfold complete
  rw [foldl_keeps Blk.stamp _ (fun _ _ => by simp)]
  simp
@[simp] theorem completeWith_stamp (id : Nat) (s : Status) (aux dropped : Nat) (b : Blk) : (completeWith id s aux dropped b).stamp = b.stamp := by
  simp [completeWith]

/-! ### Tables of the block -/

@[simp] theorem link_setLink (b : Blk) (p q : Nat) (x : Link) : (b.setLink p x).link q = if q = p then x else b.link q := by simp [Blk.link]
@[simp] theorem port_setPort (b : Blk) (p q : Nat) (x : SubPort) : (b.setPort p x).port_ q = if q = p then x else b.port_ q := by simp [Blk.port_]
@[simp] theorem pitch_setPitch (b : Blk) (p q : Nat) (x : Pitch) : (b.setPitch p x).pitch q = if q = p then x else b.pitch q := by
  simp [Blk.pitch]
@[simp] theorem slice_setSlice (b : Blk) (p q : Nat) (x : Slice) : (b.setSlice p x).slice q = if q = p then x else b.slice q := by
  simp [Blk.slice]
@[simp] theorem obj_setObj (b : Blk) (k m v d : Nat) : (b.setObj k v).obj m d = if m = k then v else b.obj m d := by simp [Blk.obj]

/-! ### WRITE requests -/

/-- A WRITE that passes its object's own check: its action, answered OK. -/
theorem onWrite_ok {b c : Blk} {r : Req} {act : WriteAct} {k n : Nat} (h : Written b k n r) (ha : act r.sub r.value b = .ok c) :
    onWrite k n act b = c.answered r := by
  obtain ⟨h1, h2, h3, row, h4⟩ := h
  simp [onWrite, runHead, h1, h2, h3, runWrite, h4, ha, Blk.answered]

/-- A WRITE that its object refuses. -/
theorem onWrite_error {b : Blk} {r : Req} {act : WriteAct} {k n : Nat} {e : DStatus} (h : Written b k n r) (ha : act r.sub r.value b = .error e) :
    onWrite k n act b = refuse r e b := by
  obtain ⟨h1, h2, h3, row, h4⟩ := h
  simp [onWrite, runHead, h1, h2, h3, runWrite, h4, ha]

end Sys2Proof.Machine
end

