-- ==== Sys2Proof/Laws/Access.lean ====
section
/-! SUPPORT. What reads and writes leave alone: an access may use the caches, links, memories, counters and error records of the block, and
its parked and outstanding accesses, but nothing of its front end, its units of work, its clocks and its dictionary. -/
namespace Sys2Proof.Machine

/-- The parts of the block that no access touches. -/
def Blk.rest (b : Blk) :=
  (b.front, b.units, b.bags, b.frags, b.orphans, b.nextUid, b.clk, b.ident, b.straps, b.build, b.pw, b.mg, b.retiring)

/-- From a call's equation, what its result keeps. -/
theorem rest_of_eq {α : Type} {r : Blk × α} {b : Blk} {x : α} {c : Blk} (h : r = (b, x)) (k : r.1.rest = c.rest) : b.rest = c.rest := by
  rw [h] at k
  exact k

theorem rest_foldl {β : Type} (f : Blk → β → Blk) (h : ∀ b x, (f b x).rest = b.rest) :
    ∀ (l : List β) (b : Blk), (l.foldl f b).rest = b.rest
  | [], _ => rfl
  | x :: t, b => by rw [List.foldl_cons, rest_foldl f h t, h]

/-! ### The block's own updates -/

@[simp] theorem bump_rest (c k n : Nat) (b : Blk) : (bump c k n b).rest = b.rest := rfl
@[simp] theorem charge_rest (e n : Nat) (c q : Option Nat) (b : Blk) : (charge e n c q b).rest = b.rest := rfl
@[simp] theorem setLink_rest (p : Nat) (l : Link) (b : Blk) : (b.setLink p l).rest = b.rest := rfl
@[simp] theorem setPort_rest (p : Nat) (l : SubPort) (b : Blk) : (b.setPort p l).rest = b.rest := rfl
@[simp] theorem setPitch_rest (p : Nat) (x : Pitch) (b : Blk) : (b.setPitch p x).rest = b.rest := rfl
@[simp] theorem emit_rest (o : Out) (b : Blk) : (emit o b).rest = b.rest := rfl
@[simp] theorem xlat_rest (b : Blk) (x : Xlat) : ({ b with xlat := x } : Blk).rest = b.rest := rfl
@[simp] theorem mem_rest (b : Blk) (x : Mem) : ({ b with mem := x } : Blk).rest = b.rest := rfl
@[simp] theorem gs_rest (b : Blk) (x : Ground) : ({ b with gs := x } : Blk).rest = b.rest := rfl
@[simp] theorem host_rest (b : Blk) (x : HostSide) : ({ b with host := x } : Blk).rest = b.rest := rfl
@[simp] theorem err_rest (b : Blk) (x : Errs) : ({ b with err := x } : Blk).rest = b.rest := rfl
@[simp] theorem ridge_rest (b : Blk) (x : Ridge) : ({ b with ridge := x } : Blk).rest = b.rest := rfl
@[simp] theorem port_rest (b : Blk) (x : List Rx) : ({ b with port := x } : Blk).rest = b.rest := rfl
@[simp] theorem out_rest (b : Blk) (x : List Out) : ({ b with out := x } : Blk).rest = b.rest := rfl
@[simp] theorem hostMem_rest (b : Blk) (x : Mem) : ({ b with hostMem := x } : Blk).rest = b.rest := rfl
@[simp] theorem raise_rest (r : ErrRec) (b : Blk) : (raise r b).rest = b.rest := by
  unfold raise
  dsimp only
  repeat' split
  all_goals rfl
@[simp] theorem eccRecord_rest (u i s e : Nat) (c : Option Nat) (r : Bool) (b : Blk) : (eccRecord u i s e c r b).rest = b.rest := by
  simp [eccRecord]
@[simp] theorem takeInject_rest (s : Nat) (b : Blk) : (takeInject s b).1.rest = b.rest := by
  unfold takeInject
  split <;> rfl

/-! ### Packets that leave -/

@[simp] theorem d2dEmit_rest (p : Nat) (k : DPkt) (b : Blk) : (d2dEmit p k b).rest = b.rest := rfl
@[simp] theorem d2dPump_rest (p : Nat) : ∀ (n : Nat) (b : Blk), (d2dPump p n b).rest = b.rest
  | 0, _ => rfl
  | n + 1, b => by
    unfold d2dPump
    dsimp only
    repeat' split
    all_goals first | rfl | rw [d2dPump_rest p n]; simp
@[simp] theorem d2dSend_rest (p : Nat) (k : DPkt) (b : Blk) : (d2dSend p k b).rest = b.rest := by
  unfold d2dSend
  dsimp only
  split <;> simp
@[simp] theorem ridgeQueue_rest (k : RPkt) (b : Blk) : (ridgeQueue k b).rest = b.rest := rfl
@[simp] theorem sendMsg_rest (chip die : Nat) (c : Cls) (m : Msg) (b : Blk) : (sendMsg chip die c m b).rest = b.rest := by
  unfold sendMsg
  dsimp only
  repeat' split
  all_goals first | rfl | simp
@[simp] theorem answer_rest (r : Rx) (m : Msg) (b : Blk) : (answer r m b).rest = b.rest := by
  unfold answer
  dsimp only
  split <;> simp
@[simp] theorem watch_rest (chip : Nat) (b : Blk) : (watch chip b).rest = b.rest := by
  unfold watch
  repeat' split
  all_goals rfl
@[simp] theorem noteHeld_rest (ctx p : Nat) (b : Blk) : (noteHeld ctx p b).rest = b.rest := by
  unfold noteHeld
  dsimp only
  split <;> simp
@[simp] theorem tryReach_rest (ctx chip die : Nat) (b : Blk) : (tryReach ctx chip die b).1.rest = b.rest := by
  unfold tryReach
  split <;> simp

/-! ### Physical accesses -/

@[simp] theorem sendSnoops_rest (ls : List Nat) (b : Blk) : (sendSnoops ls b).rest = b.rest := rfl
@[simp] theorem gsRead_rest (c : Option Nat) (off n : Nat) (b : Blk) : (gsRead c off n b).1.rest = b.rest := by
  unfold gsRead
  dsimp only
  repeat' split
  all_goals first | rfl | simp
@[simp] theorem gsWrite_rest (c : Option Nat) (off : Nat) (d : List PByte) (b : Blk) : (gsWrite c off d b).rest = b.rest := by
  unfold gsWrite
  dsimp only
  repeat' split
  all_goals first | rfl | simp
@[simp] theorem portWrite_rest (u : UnitRef) (off : Nat) (d : List PByte) (b : Blk) : (portWrite u off d b).rest = b.rest := rfl
@[simp] theorem gsWriteB_rest (off : Nat) (d : List Byte) (b : Blk) : (gsWriteB off d b).rest = b.rest := by
  unfold gsWriteB
  split <;> simp
@[simp] theorem askRead_rest (u : UnitRef) (c : Cls) (pa n chip die : Nat) (h : Bool) (b : Blk) :
    (askRead u c pa n chip die h b).rest = b.rest := by simp [askRead]
@[simp] theorem dropRread_rest (t : Nat) (b : Blk) : (dropRread t b).rest = b.rest := rfl
@[simp] theorem readPoison_rest (c off : Nat) (d : List PByte) (b : Blk) : (readPoison c off d b).rest = b.rest := by
  unfold readPoison
  split <;> rfl
@[simp] theorem dropPieces_rest (u : UnitRef) (h : Bool) (ps : List (Nat × Nat)) (b : Blk) : (dropPieces u h ps b).rest = b.rest := by
  unfold dropPieces
  apply rest_foldl
  intro b x
  split <;> rfl
@[simp] theorem askPieces_rest (u : UnitRef) (c : Cls) (chip die : Nat) (h : Bool) (ps : List (Nat × Nat)) (b : Blk) :
    (askPieces u c chip die h ps b).rest = b.rest := by
  unfold askPieces
  apply rest_foldl
  intro b x
  split
  · rfl
  · split <;> simp
@[simp] theorem farRead_rest (u : UnitRef) (c : Cls) (pa n chip die : Nat) (h : Bool) (b : Blk) :
    (farRead u c pa n chip die h b).1.rest = b.rest := by
  unfold farRead
  dsimp only
  repeat' split
  all_goals first
    | rfl
    | (simp; done)
    | (rename_i h; simpa using rest_of_eq h (by simp))
@[simp] theorem hostRefusal_rest (u : UnitRef) (c : Option Nat) (pa d : Nat) (b : Blk) : (hostRefusal u c pa d b).rest = b.rest := by
  simp [hostRefusal]
@[simp] theorem hostRead_rest (u : UnitRef) (c : Cls) (pa n : Nat) (b : Blk) : (hostRead u c pa n b).1.rest = b.rest := by
  unfold hostRead
  split
  · split
    · dsimp only
      split <;> simp
    all_goals rfl
  · split <;> simp
@[simp] theorem readPhys_rest (u : UnitRef) (c : Cls) (pa n : Nat) (h : Bool) (b : Blk) : (readPhys u c pa n h b).1.rest = b.rest := by
  unfold readPhys
  repeat' split
  all_goals first | rfl | simp
@[simp] theorem askWrites_rest (u : UnitRef) (c : Cls) (chip die : Nat) (h : Bool) :
    ∀ (l : List (Nat × List PByte)) (b : Blk), (askWrites u c chip die h l b).rest = b.rest
  | [], _ => rfl
  | (_, _) :: t, b => by
    unfold askWrites
    dsimp only
    rw [askWrites_rest u c chip die h t]
    simp
@[simp] theorem holdWrite_rest (w : HeldWrite) (b : Blk) : (holdWrite w b).rest = b.rest := rfl
@[simp] theorem hostPut_rest (u : UnitRef) (c : Option Nat) (s : Bool) (pa : Nat) (d : List PByte) (b : Blk) :
    (hostPut u c s pa d b).1.rest = b.rest := by
  unfold hostPut
  dsimp only
  repeat' split
  all_goals first | rfl | simp
@[simp] theorem hostWrite_rest (u : UnitRef) (c : Cls) (pa : Nat) (d : List PByte) (b : Blk) : (hostWrite u c pa d b).1.rest = b.rest := by
  unfold hostWrite
  repeat' split
  all_goals first
    | rfl
    | (simp; done)
    | (rename_i h; simpa using rest_of_eq h (by simp))
@[simp] theorem writePhys_rest (u : UnitRef) (c : Cls) (pa : Nat) (d : List PByte) (h : Bool) (b : Blk) :
    (writePhys u c pa d h b).1.rest = b.rest := by
  unfold writePhys
  repeat' split
  all_goals first
    | rfl
    | (simp; done)
    | (rename_i h; simpa using rest_of_eq h (by simp))

/-! ### Caches -/

@[simp] theorem noteWriteback_rest (p : Nat) (l : Line) (b : Blk) : (noteWriteback p l b).rest = b.rest := by
  unfold noteWriteback
  repeat' split
  all_goals first | rfl | simp
@[simp] theorem writeLine_rest (u : UnitRef) (p : Nat) (l : Line) (b : Blk) : (writeLine u p l b).rest = b.rest := by
  unfold writeLine
  rw [rest_foldl]
  · simp
  · intro b x
    repeat' split
    all_goals first | rfl | simp
@[simp] theorem cleanKey_rest (p key : Nat) (b : Blk) : (cleanKey p key b).rest = b.rest := by
  unfold cleanKey
  dsimp only
  repeat' split
  all_goals first | rfl | simp
@[simp] theorem mdcCheck_rest (p key : Nat) (b : Blk) : (mdcCheck p key b).rest = b.rest := by
  unfold mdcCheck
  dsimp only
  repeat' split
  all_goals first | rfl | simp
@[simp] theorem cacheCheck_rest (u s k : Nat) (c : Cache) (b : Blk) : (cacheCheck u s k c b).1.rest = b.rest := by
  unfold cacheCheck
  repeat' split
  all_goals first | rfl | simp
@[simp] theorem evictLine_rest (p : Nat) (l : Line) (b : Blk) : (evictLine p l b).rest = b.rest := by
  unfold evictLine
  repeat' split
  all_goals first | rfl | simp
@[simp] theorem mdcInstall_rest (p : Nat) (l : Line) (b : Blk) : (mdcInstall p l b).rest = b.rest := by
  unfold mdcInstall
  dsimp only
  repeat' split
  all_goals first | rfl | simp
@[simp] theorem lineDirect_rest (u : UnitRef) (c : Cls) (pa : Nat) (h : Bool) (b : Blk) : (lineDirect u c pa h b).1.rest = b.rest := by
  unfold lineDirect
  split <;> (rename_i h; simpa using rest_of_eq h (by simp))
@[simp] theorem lineRead_rest (rq : Rq) (u : UnitRef) (c : Cls) (pa : Nat) (h f : Bool) (b : Blk) :
    (lineRead rq u c pa h f b).1.rest = b.rest := by
  unfold lineRead
  dsimp only
  repeat' split
  all_goals first
    | rfl
    | (simp; done)
    | (rename_i h; simpa using rest_of_eq h (by simp))

/-! ### Translation -/

@[simp] theorem ownMeta_rest (rq : Rq) (u : UnitRef) (c : Cls) (off n : Nat) (f : Bool) (b : Blk) :
    (ownMeta rq u c off n f b).1.rest = b.rest := by
  unfold ownMeta
  split
  · rename_i h
    simpa using rest_of_eq h (by simp)
  · simp
@[simp] theorem findSeg_rest (rq : Rq) (u : UnitRef) (c : Cls) (va : Nat) (f : Bool) :
    ∀ (n : Nat) (b : Blk), (findSeg rq u c va f n b).1.rest = b.rest
  | 0, _ => rfl
  | n + 1, b => by
    unfold findSeg
    dsimp only
    split
    · rename_i h
      have k := rest_of_eq h (c := b) (by simp)
      split
      · exact k
      · rw [findSeg_rest rq u c va f n, k]
    · rename_i h
      exact rest_of_eq h (by simp)
theorem readHdr_at_once (ctx : Nat) (b : Blk) (h : mustWait b none (ctxEntry b ctx) 64 = none) :
    readHdr ctx b = ((gsRead (some ctx) (ctxEntry b ctx) 64 b).1, .ok (gsRead (some ctx) (ctxEntry b ctx) 64 b).2) := by
  unfold readHdr
  rw [h]
theorem readHdr_waits (ctx : Nat) (b : Blk) (ls : List Nat) (h : mustWait b none (ctxEntry b ctx) 64 = some ls) :
    readHdr ctx b = (sendSnoops ls b, .wait) := by
  unfold readHdr
  rw [h]
theorem rest_of_fst {α β : Type} {r : Blk × α} {w : Blk × β} {x : α} {b : Blk} (h : r = (w.1, x)) (k : w.1.rest = b.rest) : r.1.rest = b.rest := by
  rw [h]
  exact k
@[simp] theorem readHdr_rest (ctx : Nat) (b : Blk) : (readHdr ctx b).1.rest = b.rest := by
  rcases Option.eq_none_or_eq_some (mustWait b none (ctxEntry b ctx) 64) with h | ⟨ls, h⟩
  · exact rest_of_fst (readHdr_at_once ctx b h) (gsRead_rest (some ctx) (ctxEntry b ctx) 64 b)
  · have k := readHdr_waits ctx b ls h
    rw [k]
    exact sendSnoops_rest ls b
@[simp] theorem translate_rest (rq : Rq) (u : UnitRef) (c : Cls) (va : Nat) (w f : Bool) (b : Blk) :
    (translate rq u c va w f b).1.rest = b.rest := by
  unfold translate
  split
  · rename_i h; exact rest_of_eq h (by simp)
  · rename_i h; exact rest_of_eq h (by simp)
  · rename_i b1 hd h
    have k : b1.rest = b.rest := rest_of_eq h (by simp)
    rw [← k]
    split
    · rfl
    split
    · rfl
    split
    · rfl
    have q := findSeg_rest rq u c va f 16 b1
    split
    · rename_i b2 n s r h2
      have k2 : b2.rest = b1.rest := rest_of_eq h2 q
      rw [← k2]
      dsimp only
      split
      · rfl
      split
      · have k3 := ownMeta_rest rq u c (s.pmap + 8 * ((va - s.vbase) / 2 ^ 21 / 64)) 8 f b2
        split <;> (rename_i h3; rw [h3] at k3)
        · split <;> exact k3
        all_goals exact k3
      · rfl
    all_goals (rename_i h2; exact rest_of_eq h2 q)

/-! ### Faults and parking -/

@[simp] theorem writeFaultTail_rest (ctx : Nat) (b : Blk) : (writeFaultTail ctx b).rest = b.rest := by
  unfold writeFaultTail
  dsimp only
  split <;> simp
@[simp] theorem enterKey_rest (r : FaultRec) (b : Blk) : (enterKey r b).rest = b.rest := by
  unfold enterKey
  split <;> rfl
@[simp] theorem offerFault_rest (r : FaultRec) (s : Blk × List FaultRec) : (offerFault r s).1.rest = s.1.rest := by
  unfold offerFault
  dsimp only
  repeat' split
  all_goals first | rfl | simp
theorem offerFaults_rest : ∀ (l : List FaultRec) (s : Blk × List FaultRec), (l.foldl (fun s r => offerFault r s) s).1.rest = s.1.rest
  | [], _ => rfl
  | r :: t, s => by rw [List.foldl_cons, offerFaults_rest t, offerFault_rest]
@[simp] theorem faultBatch_rest (b : Blk) : (faultBatch b).rest = b.rest := by
  unfold faultBatch
  dsimp only
  rw [rest_foldl]
  · simp [offerFaults_rest]
  · intro b x
    simp
@[simp] theorem stageFault_rest (r : FaultRec) (b : Blk) : (stageFault r b).rest = b.rest := by
  unfold stageFault
  split
  · split
    · dsimp only
      split
      · exact writeFaultTail_rest _ _
      · rfl
    · rfl
  · rfl
@[simp] theorem newFault_rest (r : FaultRec) (b : Blk) : (newFault r b).rest = b.rest := by
  unfold newFault
  dsimp only
  split <;> simp
@[simp] theorem recordFault_rest (rq : Rq) (ctx : Nat) (w : Bool) (cause seg gran : Nat) (b : Blk) :
    (recordFault rq ctx w cause seg gran b).rest = b.rest := by
  unfold recordFault
  dsimp only
  repeat' split
  all_goals first | rfl | simp
@[simp] theorem park_rest (u : UnitRef) (ctx : Nat) (rq : Rq) (va len : Nat) (w : Bool) (cause : Nat) (b : Blk) :
    (park u ctx rq va len w cause b).rest = b.rest := by
  unfold park
  split <;> rfl
@[simp] theorem dropReads_rest (u : UnitRef) (b : Blk) : (dropReads u b).rest = b.rest := rfl
@[simp] theorem forgetUnit_rest (u : UnitRef) (b : Blk) : (forgetUnit u b).rest = b.rest := rfl

/-! ### Reads and writes at device virtual addresses -/

@[simp] theorem rdPart_rest (rq : Rq) (u : UnitRef) (c : Cls) (p : Nat × Nat) (b : Blk) : (rdPart rq u c p b).1.rest = b.rest := by
  unfold rdPart
  split
  · rfl
  · split
    · rename_i h
      have k := rest_of_eq h (c := b) (by simp)
      rw [← k]
      split <;> (rename_i h2; exact rest_of_eq h2 (by simp))
    all_goals (rename_i h; simpa using rest_of_eq h (by simp))
@[simp] theorem rdEach_rest (rq : Rq) (u : UnitRef) (c : Cls) : ∀ (l : List (Nat × Nat)) (b : Blk), (rdEach rq u c l b).1.rest = b.rest
  | [], _ => rfl
  | p :: t, b => by
    unfold rdEach
    dsimp only
    rw [rdEach_rest rq u c t]
    simp
@[simp] theorem holdParts_rest (u : UnitRef) (l : List ((Nat × Nat) × PartRd)) (b : Blk) : (holdParts u l b).rest = b.rest := rfl
@[simp] theorem parkParts_rest (rq : Rq) (u : UnitRef) (ctx : Nat) (l : List ((Nat × Nat) × PartRd)) (b : Blk) :
    (parkParts rq u ctx l b).rest = b.rest := by
  unfold parkParts
  apply rest_foldl
  intro b x
  split <;> simp
@[simp] theorem rdParts_rest (rq : Rq) (u : UnitRef) (c : Cls) (l : List (Nat × Nat)) (b : Blk) : (rdParts rq u c l b).1.rest = b.rest := by
  unfold rdParts
  dsimp only
  repeat' split
  all_goals first | rfl | simp
@[simp] theorem rd_rest (rq : Rq) (u : UnitRef) (c : Cls) (va n : Nat) (b : Blk) : (rd rq u c va n b).1.rest = b.rest := by
  unfold rd
  dsimp only
  split
  · rename_i h; have k := rest_of_eq h (rdParts_rest ..); exact k
  · rename_i h; have k := rest_of_eq h (rdParts_rest ..); exact k
  · rename_i h; have k := rest_of_eq h (rdParts_rest ..); exact k
  · exact rdParts_rest ..
@[simp] theorem rdLines_rest (rq : Rq) (u : UnitRef) (c : Cls) : ∀ (n va : Nat) (b : Blk), (rdLines rq u c n va b).1.rest = b.rest
  | 0, _, _ => rfl
  | n + 1, va, b => by
    unfold rdLines
    split
    · rename_i h
      have k := rest_of_eq h (c := b) (by simp)
      rw [← k]
      split
      · rename_i h2
        have k2 := rest_of_eq h2 (lineRead_rest ..)
        rw [← k2]
        have k3 := rdLines_rest rq u c n (va + 128)
        split
        · rename_i h3
          exact rest_of_eq h3 (k3 _)
        · exact k3 _
      all_goals (rename_i h2; exact rest_of_eq h2 (by simp))
    all_goals (rename_i h; simpa using rest_of_eq h (by simp))
@[simp] theorem rdMeta_rest (rq : Rq) (u : UnitRef) (c : Cls) (va n : Nat) (b : Blk) : (rdMeta rq u c va n b).1.rest = b.rest := by
  unfold rdMeta
  split
  · dsimp only
    split
    · rename_i h; exact rest_of_eq h (rdLines_rest ..)
    · exact rdLines_rest ..
  · split
    · rename_i h
      have k := rest_of_eq h (rd_rest ..)
      split <;> exact k
    · exact rd_rest ..
@[simp] theorem wrTrans_rest (rq : Rq) (u : UnitRef) (c : Cls) : ∀ (l : List (Nat × Nat)) (b : Blk), (wrTrans rq u c l b).1.rest = b.rest
  | [], _ => rfl
  | (va, n) :: t, b => by
    unfold wrTrans
    split
    · rename_i h
      have k := rest_of_eq h (c := b) (by simp)
      rw [← k]
      have k3 := wrTrans_rest rq u c t
      split
      · rename_i h3
        exact rest_of_eq h3 (k3 _)
      · exact k3 _
    · rename_i h
      dsimp only
      rw [wrTrans_rest rq u c t]
      simpa using rest_of_eq h (c := b) (by simp)
    all_goals (rename_i h; exact rest_of_eq h (by simp))
@[simp] theorem wrPut_rest (u : UnitRef) (c : Cls) : ∀ (l : List ((Nat × Bool × Bool) × List PByte)) (b : Blk), (wrPut u c l b).1.rest = b.rest
  | [], _ => rfl
  | ((pa, h, s), d) :: t, b => by
    unfold wrPut
    split
    · rename_i h
      rw [wrPut_rest u c t]
      exact rest_of_eq h (by simp)
    all_goals (rename_i h; exact rest_of_eq h (by simp))
@[simp] theorem wr_rest (rq : Rq) (u : UnitRef) (c : Cls) (va : Nat) (d : List PByte) (b : Blk) : (wr rq u c va d b).1.rest = b.rest := by
  unfold wr
  dsimp only
  split
  · rename_i h
    rw [wrPut_rest]
    exact rest_of_eq h (by simp)
  · rename_i h
    exact rest_of_eq h (by simp)
@[simp] theorem wrPutLater_rest (u : UnitRef) (c : Cls) :
    ∀ (l : List ((Nat × Bool × Bool) × List PByte)) (b : Blk), (wrPutLater u c l b).1.rest = b.rest
  | [], _ => rfl
  | ((pa, h, s), d) :: t, b => by
    unfold wrPutLater
    split
    · split
      · rw [wrPutLater_rest u c t]
        simp
      · simp
    · split
      · rename_i h
        rw [wrPutLater_rest u c t]
        exact rest_of_eq h (by simp)
      all_goals (rename_i h; exact rest_of_eq h (by simp))
@[simp] theorem wrOut_rest (rq : Rq) (u : UnitRef) (c : Cls) (va : Nat) (d : List PByte) (b : Blk) : (wrOut rq u c va d b).1.rest = b.rest := by
  unfold wrOut
  dsimp only
  split
  · rename_i h
    rw [wrPutLater_rest]
    exact rest_of_eq h (by simp)
  · rename_i h
    exact rest_of_eq h (by simp)

end Sys2Proof.Machine
end

