-- ==== Sys2Proof/Tests/Slice0.lean ====
section
/-! SUPPORT. Tests of one step on small states, each from the rule that its comment names, and for every statement with hypotheses the concrete
states that meet them: theorem `meets_…` shows the hypotheses of a clause, all together, at named values. -/
namespace Sys2Proof.Tests
open Sys2Proof Sys2Proof.Machine

-- one test after another: many that run at once would need a thread each
set_option Elab.async false

/-! ### Small states -/

/-- The reset state with its block changed. -/
def st (f : Blk → Blk) : State := { State.reset with b := f State.reset.b }

/-- Something holds of the block after a command. -/
def onNext (o : Host.Outcome State Fault Refusal) (p : Blk → Bool) : Bool :=
  match o with
  | .next t => p t.b
  | .fault _ => false
  | .refused _ => false

def faults (o : Host.Outcome State Fault Refusal) : Bool :=
  match o with
  | .fault .operand => true
  | .next _ => false
  | .refused _ => false

def bs (l : List Nat) : List Byte := l.map (BitVec.ofNat 8)

/-- Memory holds these bytes at these offsets. -/
def img (l : List (Nat × List Byte)) (b : Blk) : Blk := { b with mem := l.foldl (fun m e => m.writeB e.1 e.2) b.mem }

/-- A queue of context 0 in state `x` with a ring of 64 slots, of batch class, completing at 0x8000, with its tail word at 0xC000. -/
def qd (x : QState) : Queue := { st := x, ringBase := 0x6000, cqBase := 0x8000, cqTailAddr := 0xC000 }

/-- A descriptor: its opcode, flags and body, the rest as R31 lays it down for one slot. -/
def dbytes (op flags : Nat) (body : List Byte) : List Byte := padTo 64 (bs [op, flags, 7, 0, 0xFF, 0, 1, 0] ++ body)

/-- Descriptor 5 of queue 1 at a stage. -/
def dd (stage : Stage) (l : List Byte) (w : Work := .none) : Desc :=
  { id := 5, q := 1, slot := 0, pos := 0, slots := 1, replay := 0, bytes := l, stage := stage, work := w }

/-- Queue 1 runs, with these descriptors in flight. -/
def run1 (l : List Desc) (b : Blk) : Blk :=
  { b with front := { b.front with queues := [(1, qd .running)], descs := l, nextId := 9 } }

/-- Queue 1 has handed descriptor 5 to its unit. -/
def handed (op : Nat) (body : List Byte) : State := st (run1 [dd .handed (dbytes op 0 body)])

/-- Context 0 translates (R205): its ring of 64 records is at 0x4000, its tail word at 0x3F00, its tables at 1 MiB; segment 0 maps virtual address 0
on, 64 granules, writable, onto memory 0 (R207). -/
def ctxImg : List (Nat × List Byte) :=
  [(0, bs [1, 6]), (8, toLe 8 0x100000), (16, toLe 8 0x4000), (24, toLe 8 0x3F00), (64, toLe 32 (2 ^ 96 + 2 ^ 98 + 64 * 2 ^ 64))]

def nop5 : Desc := dd .handed (dbytes 0x01 0 [])

/-- A WRITE of `n` bytes of an object's value that has just come by I3C (R359). -/
def wreq (key ty n v : Nat) : Req :=
  { bi := .i3c, eid := 9, fwd := none,
    body := bs [0x82, 1, 0x80, 0] ++ toLe 2 (key / 256) ++ bs [key % 256, ty, 0, 0, 0, 0] ++ toLe 2 n ++ bs [0, 0] ++ toLe n v }
def sackOf (r : Req) (b : Blk) : Blk := { b with mg := { b.mg with sack := [r] } }
def isWritten (b : Blk) (k n : Nat) (r : Req) : Bool :=
  headReq b == some r && isWriteTo k n r && execHere b r && (match checkReq b r with
    | .ok _ => true
    | .error _ => false)
theorem isWritten_written (b : Blk) (k n : Nat) (r : Req) (h : isWritten b k n r = true) : Written b k n r := by
  simp only [isWritten, Bool.and_eq_true, beq_iff_eq] at h
  obtain ⟨⟨⟨h1, h2⟩, h3⟩, h4⟩ := h
  refine ⟨h1, h2, h3, ?_⟩
  split at h4
  · exact ⟨_, by assumption⟩
  · exact absurd h4 (by decide)

/-! ### Well-formedness -/

/-- R26, R240: 256 queues, 64 functions; R273, R300: flits of 256 bytes; R211: OP; R2: pitches; the other bounds of WellFormed.lean. -/
theorem smoke_wellFormed : [Instr.doorbell 64 0 0, .doorbell 0 256 0, .registerWrite (.bar 0 0x400000 8 0), .registerWrite (.bar 0 0 3 0),
    .nop 256, .periodAutoOpen 8, .indexParse 32, .contribPlace 64, .faultHeadWrite 0 4 0 0, .resume 0 0x100, .resumeAbort 0 0,
    .invalidateGranule 0 2, .invalidateSegment 0 1, .invalidateContext 0 1, .invalidateAll 0 3, .gsWdone 65536,
    .hostMemAccess false false false (2 ^ 43) 0 [], .hostMemAccess false false false 0 4097 [], .hostSnoop (2 ^ 52), .bisnpResponse 0 [0],
    .bivouacWindowAccess false (2 ^ 32) 0 [], .hostLost false 65536, .flr 64, .d2dFlit 4 (List.replicate 256 0), .d2dFlit 0 [], .d2dHalfFail 12 true,
    .retrain 4, .proposal 0 4 0, .result 0 0 (2 ^ 24), .holdDown 0 256, .ridgeFlit 64 (List.replicate 256 0) false, .neg 0 [],
    .reachIdleExpiry 16384, .laneLock 64, .laneFail 256, .partitionCommit 16, .coldReset { Straps.reference with i3cAddr := 128 } Ident.reference,
    .setdasa 128 0, .entdaa 128, .i3cPrivateRead 128, .setEndpointId .i3c 256, .relrokMessage .i3c 256 0 true [], .rwcCommit 65536 0,
    .sackMismatch (.fetch 256), .sackMismatch (.internal 32)].all
    (fun c => !WellFormed c && faults (exec c State.reset)) = true := by decide +kernel

/-! ### Reset, the queue of commands and the clock -/

theorem meets_IdleStep : Live State.reset ∧ State.reset.pending = [] := ⟨rfl, rfl⟩
theorem meets_NextExactly : WellFormed (.doorbell 63 255 0) = true ∧ WellFormed (.doorbell 64 255 0) = false := by decide

theorem meets_NothingElse : WellFormed (.nop 0) = true ∧ MetInReset (.nop 0) = false ∧ State.coldReset.b.pw.phase ≠ .ready := by decide

theorem meets_KeepsInvariant : ∃ s t : State, Inv s ∧ step s = .next t := ⟨State.reset.after State.reset.b, _, settle_settled _, rfl⟩

/-- R329: CK_CORE has an edge in one root cycle of 4. -/
theorem test_tick_core : let b := State.reset.b
    (nextClocks b).core = 20160 ∧ (nextClocks b).root = 80641 ∧ (nextClocks { b with clk := { b.clk with root := 80643 } }).core = 20161 ∧
    (nextClocks { b with clk := { b.clk with root := 80643 } }).half = 10080 := by decide +kernel

/-- R335: READY rises 20,160 CK_CORE cycles after t2; before, nothing of queue work acts (R334). -/
theorem test_ready : onNext (exec .ready (st (fun b => { b with pw := { b.pw with phase := .initialise, readyPin := false }, ridge := {} })))
      (fun b => b == State.reset.b) = true ∧
    onNext (exec .ready (st (fun b => { b with pw := { b.pw with phase := .initialise, readyPin := false }, clk := { b.clk with core := 20159 } })))
      (fun b => !b.pw.readyPin) = true := by
  decide +kernel

/-! ### Bytes and check codes -/

theorem meets_FieldsAreLittleEndian : (3 : Nat) ≤ 5 ∧ 2 + 2 ≤ (bs [1, 2, 3, 4]).length ∧ bitsOf 0xF5 7 4 = 0xF ∧ field (bs [1, 2, 3, 4]) 2 2 = 0x0403 := by
  decide

/-- R32: over "123456789". -/
theorem test_crc8 : crc8 (bs [0x31, 0x32, 0x33, 0x34, 0x35, 0x36, 0x37, 0x38, 0x39]) = 0x20 := by decide +kernel
/-- R275 and R300: the check values of the two codes over "123456789". -/
theorem test_crc16_crc32 : crc16 (bs [0x31, 0x32, 0x33, 0x34, 0x35, 0x36, 0x37, 0x38, 0x39]) = 0x29B1 ∧
    crc32 (bs [0x31, 0x32, 0x33, 0x34, 0x35, 0x36, 0x37, 0x38, 0x39]) = 0xCBF43926 := by decide +kernel

theorem meets_MemoryReads : ({} : Mem).wf = true ∧ ({} : Mem).undefAt 70 = none ∧
    (({} : Mem).write 60 [(1, false), (2, true)]).byte 61 = 2 ∧ (({} : Mem).write 63 [(1, false), (2, true)]).poisoned = [1] := by decide

/-! ### Shared operations -/

/-- R40. -/
theorem meets_RecordStatus : precedence[2]? = some .cancelled ∧ Status.cancelled ∈ [Status.malformed, .cancelled] ∧
    recordStatus [.malformed, .cancelled] = .cancelled ∧ (∀ s ∈ precedence, s ∉ [Status.stalledEarly]) := by decide

theorem meets_Completion : let b := (st (run1 [nop5])).b
    b.desc? 5 = some nop5 ∧ nop5.stage ≠ .complete ∧ nop5.opcode ≠ 0x03 ∧ (∀ e ∈ b.front.descs, e.behind ≠ some 5) := by decide +kernel

theorem meets_Counter : Ctr.hsForeignWrites < 2 ^ 16 ∧ (255 : Nat) < 256 ∧ counter (bump Ctr.hsForeignWrites 0 3 State.reset.b) Ctr.hsForeignWrites 0 = 3 := by
  decide +kernel

/-- R391, R393: the 65th record pushes the first out. -/
theorem meets_ErrorRecord : let b : Blk := { State.reset.b with err := { staging := List.replicate 64 ({ cause := 1, unit := 0 }, 0) } }
    64 ≤ b.err.staging.length ∧ counter (raise { cause := 2, ctx := some 255, unit := 0 } b) Ctr.errStagingLost 0 = 1 ∧
    counter (raise { cause := 2, ctx := some 255, unit := 0 } b) Ctr.errCtxRecords 255 = 1 := by decide +kernel

/-- A request of any type for this die (R359). -/
def req (op index sub : Nat) (data : List Byte) : Req :=
  { bi := .i3c, eid := 9, fwd := none, body := bs [0x80 + op, 1, 0x80, 0] ++ toLe 2 index ++ bs [sub, 0] ++ toLe 8 0 ++ data }

theorem meets_RequestIsCounted : (req 1 0x7000 0 []).fwd = none ∧ (req 1 0x7000 0 []).bi = .i3c ∧ State.reset.b.host.state = 0 := by decide

/-! ### Packets -/

theorem meets_MessageSurvives : MsgFits (.gradAck { status := 255, overrange := true, msgs := 65535, tag := 2 ^ 32 - 1, occFrozen := 2 ^ 32 - 1, chip := 16383, die := 3 }) ∧
    MsgFits (.memWrite { addr := 2 ^ 64 - 1, bytes := 2, tag := 65535, host := true, poison := true, data := [1, 2] }) ∧
    MsgFits (.partialV { status := 0, bf16 := true, tag := 1, frag := 65535, chip := 0, die := 0, vals := [0x3F800000] }) ∧
    MsgFits (.pegResult { part := 4095, barrier := 15, status := 0, count := 1, rank := 65535, gen := 1, vals := [1], ctx := 0 }) := by
  simp [MsgFits, ChipDieFits, MemFits]

theorem meets_HdrFits : HdrFits { ptype := 255, vc := 7, sub := 1, len := 1023, dst := 65535, src := 65535, part := 4095, hops := 255, dim := 7, stream := 7 } := by
  constructor <;> decide

/-! ### The front end -/

theorem meets_Doorbell : let s := st (run1 [])
    Served s 0 1 ∧ s.b.released = true ∧ (s.b.q 1).st = .running ∧
    -- TAIL 64 is the whole ring, 65 is past it
    (64 % 2 ^ 32 = (64#64).toNat % 2 ^ 32 ∧ (s.b.q 1).fetch ≤ 64 ∧ 64 ≤ (s.b.q 1).fetch + (s.b.q 1).ringSize ∧ (s.b.q 1).tail ≤ 64) ∧
    bitsOf (64#64).toNat 39 32 = (s.b.q 1).epoch ∧ bitsOf (0x100000040#64).toNat 39 32 ≠ (s.b.q 1).epoch ∧
    (∀ t, t % 2 ^ 32 = (65#64).toNat % 2 ^ 32 → (s.b.q 1).fetch ≤ t → t ≤ (s.b.q 1).fetch + (s.b.q 1).ringSize → t < (s.b.q 1).tail) := by
  refine ⟨⟨rfl, by decide, by decide, rfl, rfl, rfl, rfl⟩, rfl, rfl, by decide +kernel, by decide +kernel, by decide +kernel, ?_⟩
  have h : ((st (run1 [])).b.q 1).ringSize = 64 := by decide +kernel
  have h0 : ((st (run1 [])).b.q 1).fetch = 0 := rfl
  intro t ht _ h2
  rw [h, h0] at h2
  have : (65#64).toNat = 65 := rfl
  omega

/-- R30, R43: TAIL 64 is taken; TAIL 65 is beyond the ring of 64, rejected and recorded. -/
theorem test_doorbell : onNext (exec (.doorbell 0 1 64) (st (run1 []))) (fun b => (b.q 1).tail == 64) = true ∧
    onNext (exec (.doorbell 0 1 65) (st (run1 []))) (fun b => (b.q 1).tail == 0 && counter b Ctr.doorbellRejected 1 == 1
      && b.err.staging.map (fun e => (e.1.cause, e.1.detail)) == [(1, 65)]) = true := by decide +kernel

/-- Dies 0 and 1 are joined by a link that is up; queue 1 is served by die 1. -/
def twoDies (b : Blk) : Blk :=
  { b with build := { b.build with moduleMap := [0, 0xFFF, 0, 0] }, front := { b.front with queueDie := [(1, 1)] },
           d2d := { b.d2d with links := [(1, { state := .up, halves := 0xFFFFFF, proto := 3, peerRev := 0x30000, credits := [63, 63, 63, 63, 63, 63, 63, 63] })] } }

theorem meets_QueueControls : (∀ x ∈ [QState.stopped, .running, .stalledEarly, .bindErr, .unbound],
      let s := st (fun b => b.setQ 255 (qd x))
      Live s ∧ hostReaches s.b = true ∧ owns s.b 0 255 = true ∧ s.b.front.queueDie = [] ∧ (s.b.q 255).st = x ∧ s.b.inflight 255 = 0) ∧
    qcfgValid State.reset.b 0 0 (0x0100_0000_00FF_0A06#64 &&& qcfgMask) = false ∧
    qcfgValid State.reset.b 0 0 (0x0100_0000_FF00_0A06#64 &&& qcfgMask) = true ∧ bitsOf (0x0100_0000_FF00_0A06#64).toNat 23 22 = State.reset.b.ident.die ∧
    (let b := { (twoDies State.reset.b) with front := State.reset.b.front }
     qcfgValid b 0 0 (0x0100_0000_FF40_0A06#64 &&& qcfgMask) = true ∧ bitsOf (0x0100_0000_FF40_0A06#64).toNat 23 22 = 1 ∧ b.ident.die ≠ 1 ∧
     reachFail b 0 b.ident.chip 1 = none) := by
  refine ⟨?_, by decide +kernel, by decide +kernel, by decide +kernel, by decide +kernel⟩
  simp only [List.mem_cons, List.not_mem_nil, or_false]
  rintro x (rfl | rfl | rfl | rfl | rfl) <;> exact ⟨rfl, rfl, by decide +kernel, rfl, rfl, by decide +kernel⟩

/-- R407: STOP with nothing in flight stops the queue at once; R29: UNBIND frees it. -/
theorem test_stop_unbind : onNext (exec (.stop 0 1) (st (run1 []))) (fun b => (b.q 1).st == .stopped) = true ∧
    onNext (exec (.stop 0 1) (st (run1 [nop5]))) (fun b => (b.q 1).st == .running && (b.q 1).stopping) = true ∧
    onNext (exec (.unbind 0 1) (st (fun b => b.setQ 1 (qd .stopped)))) (fun b => b.q 1 == {}) = true := by decide +kernel

theorem meets_PageWrites : Live State.reset ∧ hostReaches State.reset.b = true ∧ owns State.reset.b 1 0 = false ∧
    let s := st twoDies
    hostReaches s.b = true ∧ owns s.b 0 1 = true ∧ s.b.front.queueDie.find? (fun e => e.1 = 1) = some (1, 1) ∧ reachFail s.b 0 s.b.ident.chip 1 = none ∧
    fnDisabled s.b 0 = false ∧ (1 ≠ s.b.ident.die) ∧
    -- a QCFG back to die 0 moves the queue; one to die 1 does not
    (bitsOf (0x0100_0000_FF00_0A06#64).toNat 23 22 ≠ 1 ∧ qcfgFields s.b 0 1 (0x0100_0000_FF00_0A06#64 &&& qcfgMask) = true) ∧
    bitsOf (0x0100_0000_FF40_0A06#64).toNat 23 22 = 1 ∧
    let s := st (fun b => let b := twoDies b; { b with d2d := {} })
    s.b.front.queueDie.find? (fun e => e.1 = 1) = some (1, 1) ∧ reachFail s.b 0 s.b.ident.chip 1 ≠ none ∧
    let s := st (fun b => { b with host := { b.host with fns := [(0, { trigger := some (0, 0) })] } })
    hostReaches s.b = true ∧ owns s.b 0 1 = true ∧ fnDisabled s.b 0 = true := by
  refine ⟨rfl, ?_⟩
  decide +kernel

/-- R241: a foreign write is counted; R270: a write to a queue of die 1 leaves as a packet. -/
theorem test_pages : onNext (exec (.start 1 0) State.reset) (fun b => counter b Ctr.hsForeignWrites 0 == 1) = true ∧
    onNext (exec (.start 0 1) (st twoDies)) (fun b => b.out.length == 1) = true := by decide +kernel

/-- A descriptor with its CHECK. -/
def checked (l : List Byte) : List Byte := splice l 7 (bs [crc8 (l.take 7 ++ l.drop 8)])

/-- Queue 1 runs with slots up to TAIL 1, at `tail0`, and this slot 0 in its ring. -/
def slot0 (l : List Byte) (x : Queue) : State := st (fun b => (img (ctxImg ++ [(0x6000, l)]) b).setQ 1 { x with tail := 1 })

theorem meets_Fetching : let s := slot0 [] (qd .running)
    Live s ∧ fetching s.b 1 = true ∧ (s.b.q 1).cancels = [] ∧ (s.b.q 1).burst = none ∧ (s.b.q 1).poll = none ∧ (s.b.q 1).fetch < (s.b.q 1).tailSlots ∧
    fetchRoom s.b 1 = true ∧
    let s := slot0 [] { qd .running with poll := some { t0 := 10016, k := 0 } }
    fetching s.b 1 = true ∧ (s.b.q 1).poll = some { t0 := 10016, k := 0 } ∧ 10016 + 64 * (0 + 1) ≤ s.b.clk.half ∧
    let s := st (fun b => (run1 [] { b with clk := { b.clk with half := 20000 } }).setQ 1 { qd .running with tail := 1, poll := some { t0 := 3616, k := 255 } })
    fetching s.b 1 = true ∧ (s.b.q 1).poll = some { t0 := 3616, k := 255 } ∧ 3616 + 16384 ≤ s.b.clk.half := by
  refine ⟨rfl, ?_⟩
  decide +kernel

/-- R43: the queue is STALLED_EARLY at t0 + 16,384 and not a cycle before. -/
theorem test_stalledEarly : let s (t0 : Nat) := st (fun b => (run1 [] { b with clk := { b.clk with half := 20000 } }).setQ 1
      { qd .running with tail := 1, poll := some { t0 := t0, k := 255 } })
    onNext (exec (.stalledEarly 1) (s 3616)) (fun b => (b.q 1).st == .stalledEarly && (b.q 1).recq == [.event .stalledEarly 0 0 3616 none]) = true ∧
    onNext (exec (.stalledEarly 1) (s 3617)) (fun b => (b.q 1).st == .running) = true := by decide +kernel

/-- The burst of slot 0 has come back. -/
def burst1 : Queue := { qd .running with burst := some { first := 0, n := 1, repoll := false } }

/-- Every hypothesis of a clause about the slot in place, and what the slot says. -/
def slotIs (s : State) (p : Queue → List Byte → Bool) : Bool :=
  let x := s.b.q 1
  fetching s.b 1 && x.cancels.isEmpty && x.rearmFail.isNone && x.patches.isEmpty && x.burst == some { first := 0, n := 1, repoll := false } &&
    decide (x.fetch < x.tailSlots) && fetchRoom (s.b.setQ 1 x) 1 &&
    (match rdSlot 1 0 false (s.b.setQ 1 x) with
     | (c, .ok d) => !anyPoison d && p x (plain d) && c.err == s.b.err
     | (_, _) => false)

theorem meets_CheckedSlot : slotIs (slot0 [] burst1) (fun x l => (byteAt l 1).testBit 0 != x.phase) = true ∧
    slotIs (slot0 (dbytes 0x01 1 []) burst1) (fun x l => (byteAt l 1).testBit 0 == x.phase && byteAt l 6 == 1 && crc8 (l.take 7 ++ l.drop 8) != byteAt l 7) = true ∧
    slotIs (slot0 (checked (dbytes 0x01 1 [])) burst1) (fun x l => (byteAt l 1).testBit 0 == x.phase && byteAt l 6 == 1
      && crc8 (l.take 7 ++ l.drop 8) == byteAt l 7 && slotOk l x true && !(byteAt l 1).testBit 2) = true ∧
    ∀ e ∈ (slot0 [] burst1).b.front.descs, e.id < (slot0 [] burst1).b.front.nextId ∧ e.behind ≠ some (slot0 [] burst1).b.front.nextId := by
  decide +kernel

/-- A slot of two, of which TAIL 1 lets one be seen, or the burst of one; both slots of it; a length of 5; a poisoned slot. -/
theorem meets_JudgedSlots : let two := checked (padTo 128 (bs [0x01, 1, 7, 0, 0xFF, 0, 2]))
    let x2 : Queue := { burst1 with burst := some { first := 0, n := 2, repoll := false } }
    let q2 (x : Queue) (l : List PByte) : Blk := { (slot0 [] burst1).b with mem := (slot0 [] burst1).b.mem.write 0x6000 l }.setQ 1 { x with tail := 2 }
    slotIs (slot0 two burst1) (fun x l => byteAt l 6 == 2 && decide (x.tailSlots < x.fetch + 2)) = true ∧
    slotIs { State.reset with b := q2 burst1 (clean two) } (fun x l => byteAt l 6 == 2 && decide (x.fetch + 2 ≤ x.tailSlots)) = true ∧
    slotIs (slot0 (dbytes 0x01 1 [] |>.set 6 5) burst1) (fun x l => byteAt l 6 == 5 && (byteAt l 1).testBit 0 == x.phase) = true ∧
    (let b := q2 x2 (clean two)
     match rdSlot 1 0 false (b.setQ 1 (b.q 1)) with
     | (r, .ok d) => (match rdSlots 1 false 1 1 r with
        | (_, .ok rest) => !anyPoison rest && crc8 ((plain (d ++ rest)).take 7 ++ (plain (d ++ rest)).drop 8) == byteAt (plain (d ++ rest)) 7
        | (_, _) => false)
     | (_, _) => false) = true ∧
    (let b := q2 burst1 (two.map (·, true))
     match rdSlot 1 0 false (b.setQ 1 (b.q 1)) with
     | (_, .ok d) => anyPoison d
     | (_, _) => false) = true := by decide +kernel

/-- R34, R55: a slot that is malformed, of a STEP or not; one that is tagged, behind a PERIOD, in an open period, and in none. -/
theorem meets_TakenDesc : let x := (slot0 [] burst1).b.q 1
    let tagged := (dbytes 0x02 5 []).set 4 2
    slotOk (dbytes 0x02 1 (bs [2])) x true = false ∧ byteAt (dbytes 0x02 1 (bs [2])) 0 ≠ 0x22 ∧
    slotOk ((dbytes 0x22 1 []).set 4 2) x true = false ∧ byteAt ((dbytes 0x22 1 []).set 4 2) 0 = 0x22 ∧
    slotOk tagged { x with cfg := 0x0100_0000_0200_0606#64 } true = true ∧ (byteAt tagged 1).testBit 2 = true := by
  decide +kernel

/-- R33, R34: a slot whose CHECK is right is a descriptor; one bit wrong, and it is not yet written. -/
theorem test_slotCheck : onNext (exec (.slotCheck 1) (slot0 (checked (dbytes 0x01 1 [])) burst1)) (fun b =>
      b.front.descs.map (fun d => (d.opcode, d.seq, d.stage)) == [(1, 7, .held)] && (b.q 1).fetch == 1) = true ∧
    onNext (exec (.slotCheck 1) (slot0 (checked (dbytes 0x01 1 []) |>.set 63 1) burst1)) (fun b =>
      b.front.descs.isEmpty && (b.q 1).poll == some { t0 := 10080, k := 0 } && counter b Ctr.slotCheckFailed 1 == 1) = true := by decide +kernel

/-- R34: a PEG_LOCAL whose MODE is reserved completes MALFORMED. -/
theorem test_malformed : onNext (exec (.slotCheck 1) (slot0 (checked (dbytes 0x02 1 (bs [2]))) burst1)) (fun b =>
      b.front.descs.map (fun d => (d.statuses, d.stage)) == [([.malformed], .complete)]) = true := by decide +kernel

theorem meets_Dispatch : let d := dd .held (dbytes 0x01 0 [])
    let s := st (run1 [d])
    Live s ∧ nextDispatch s.b 1 = some d ∧ mayDispatch s.b 1 = true ∧ d.patched = false ∧ (s.b.q 1).patches = [] ∧ d.bad = false ∧ nextPre d = none ∧
    judge (spendCredit 1 (s.b.modDesc d.id (fun _ => d))) d = [] ∧
    let e := { d with bad := true }
    let s := st (run1 [e])
    nextDispatch s.b 1 = some e ∧ mayDispatch s.b 1 = true ∧ e.bad = true ∧ e.opcode ≠ 0x22 ∧
    let e := { dd .held (dbytes 0x22 0 []) with bad := true }
    let s := st (run1 [e])
    nextDispatch s.b 1 = some e ∧ mayDispatch s.b 1 = true ∧ e.bad = true ∧ e.opcode = 0x22 ∧ nextDispatch State.reset.b 1 = none := by
  refine ⟨rfl, ?_⟩
  decide +kernel

/-- R39: the record's 16 bytes, and R41: the counter of peg group 0, bit 0 rises. -/
theorem meets_CompletionWrite : let d := { dd .complete (dbytes 0x01 2 [] |>.set 5 1) with statuses := [.ok] }
    let s := st (fun b => (img ctxImg (run1 [d] b)).setQ 1 { qd .running with recq := [.desc 5], fetch := 1, tail := 1 })
    Live s ∧ s.b.isParked (.compl 1) = false ∧ (s.b.q 1).written - (s.b.q 1).cqHead.toNat < (s.b.q 1).cqSize ∧ (s.b.q 1).recq = [.desc 5] ∧
    s.b.desc? 5 = some d ∧ d.stats = none ∧ d.pegged = false ∧ s.b.writesDone (.desc 5) = true ∧ d.pegInc = true ∧
    (ringWrite 1 0x8000 (toLe 2 d.seq ++ bs [0, 1] ++ toLe 4 0 ++ toLe 4 0 ++ toLe 4 (s.b.clk.half - d.checkedAt))
      (pegIncrements d (s.b.modDesc 5 (fun d => { d with pegged := true })))).2 = true ∧
    onNext (exec (.completionWrite 1) s) (fun b => b.mem.bytes 0x8000 16 == toLe 2 7 ++ bs [0, 1] ++ toLe 8 0 ++ toLe 4 10080
      && b.front.descs.isEmpty && b.peg 0 0 == 1 && b.peg 0 1 == 0) = true := by
  refine ⟨rfl, ?_⟩
  decide +kernel

/-- A record whose writes are not over; statistics to write first; the marker of a CANCEL; a full ring. -/
theorem meets_CompletionOther : let d := { dd .complete (dbytes 0x01 2 [] |>.set 5 1) with statuses := [.ok], stats := some (0xA000, bs [1, 2]) }
    let b (r : List RecItem) := (st (fun b => (img ctxImg (run1 [d] b)).setQ 1 { qd .running with recq := r, fetch := 1, tail := 1 })).b
    (b [.desc 5]).desc? 5 = some d ∧ (b [.desc 5]).writesDone (.desc 5) = true ∧
    (wr (.slice 0) (.desc 5) (clsOf (b [.desc 5]) 1) 0xA000 (clean (bs [1, 2])) (b [.desc 5])).2 = .ok ∧
    { (b []) with gs := { (b []).gs with writes := [(0, 0xA000, clean [1], .desc 5)] } }.writesDone (.desc 5) = false ∧
    ((b [.event .cancelled 2 3 4 (some 5)]).q 1).recq = [.event .cancelled 2 3 4 (some 5)] ∧
    (ringWrite 1 0x8000 (toLe 2 0xFFFF ++ bs [0x05, 1] ++ toLe 4 2 ++ toLe 4 3 ++ toLe 4 10076) (b [])).2 = true ∧
    ¬(64 - (0#64).toNat < (qd .running).cqSize) ∧ tailDue State.reset.b 1 = false := by decide +kernel

theorem meets_TailWord : let s := st (fun b => (img ctxImg b).setQ 1 { qd .running with written := 3, reported := 2, tailSince := 0 })
    tailDue s.b 1 = true ∧ (ringWrite 1 0xC000 (toLe 4 3 ++ toLe 4 0) s.b).2 = true ∧
    onNext (exec (.tailWordTimer 1) s) (fun b => b.mem.bytes 0xC000 8 == bs [3, 0, 0, 0, 0, 0, 0, 0] && (b.q 1).reported == 3) = true := by
  decide +kernel

/-! ### Operators of the front end -/

/-- PEG_LOCAL of counter 3 with a target (R50). -/
def pegLocal (mode target : Nat) : List Byte := bs [mode, 3] ++ toLe 6 0 ++ toLe 8 target

def pegAt (v : W64) (s : State) : State := { s with b := { s.b with front := { s.b.front with pegs := [(3, v)] } } }

theorem meets_NopAndPegLocal : let d (op : Nat) (body : List Byte) := dd .handed (dbytes op 0 body)
    Live (handed 0x01 []) ∧ handedOf (handed 0x01 []).b 1 [0x01] = some (d 0x01 []) ∧
    (let s := pegAt 5 (handed 0x02 (pegLocal 0 5)); let e := d 0x02 (pegLocal 0 5)
     handedOf s.b 1 [0x02] = some e ∧ e.f 8 1 = 0 ∧ (s.b.peg 0 (e.f 9 1) - e.target).msb = false) ∧
    (let s := pegAt 4 (handed 0x02 (pegLocal 0 5)); let e := d 0x02 (pegLocal 0 5)
     handedOf s.b 1 [0x02] = some e ∧ (s.b.peg 0 (e.f 9 1) - e.target).msb = true) ∧
    (let s := handed 0x02 (pegLocal 1 5); handedOf s.b 1 [0x02] = some (d 0x02 (pegLocal 1 5)) ∧ (d 0x02 (pegLocal 1 5)).f 8 1 = 1) ∧
    (let e := dd .running (dbytes 0x02 0 (pegLocal 0 5)) .pegWait; let s := pegAt 5 (st (run1 [e]))
     (s.b.descsOf 1).find? (fun d => d.stage == .running && d.work == .pegWait && !((s.b.peg 0 (d.f 9 1) - d.target).msb)) = some e) := by
  refine ⟨rfl, ?_⟩
  decide +kernel

/-- The descriptor's record waits, with this status and AUX. -/
def completed (b : Blk) (st : Status) (aux : Nat) : Bool :=
  b.front.descs.map (fun d => (d.statuses, d.aux, d.stage)) == [([st], aux, .complete)] && (b.q 1).recq == [.desc 5]

/-- R406. -/
theorem test_nop : onNext (exec (.nop 1) (handed 0x01 [])) (fun b => completed b .ok 0) = true := by decide +kernel
/-- R50: (counter − TARGET) modulo 2^64 is signed, so 2^63 and more above the counter waits, and a counter that has wrapped past passes. -/
theorem test_pegLocal : onNext (exec (.pegLocalWaitGe 1) (pegAt 1 (handed 0x02 (pegLocal 0 (2 ^ 64 - 1))))) (fun b => completed b .ok 1) = true ∧
    onNext (exec (.pegLocalWaitGe 1) (pegAt 1 (handed 0x02 (pegLocal 0 2)))) (fun b => b.front.descs.map (·.stage) == [.running]) = true ∧
    onNext (exec (.pegLocalSet 1) (handed 0x02 (pegLocal 1 (2 ^ 40 + 6)))) (fun b => completed b .ok 6 && b.peg 0 3 == BitVec.ofNat 64 (2 ^ 40 + 6)) = true := by
  decide +kernel
theorem test_pegWaitPass : onNext (exec (.pegWaitPass 1) (pegAt 5 (st (run1 [dd .running (dbytes 0x02 0 (pegLocal 0 5)) .pegWait]))))
    (fun b => completed b .ok 5) = true := by decide +kernel

/-- PERIOD (R54). -/
def period (mode p dl : Nat) : List Byte := bs [mode, 0, 0, 0] ++ toLe 4 p ++ toLe 4 dl

/-- Queue 1 is bound to stream 2. -/
def rt2 (s : State) : State := { s with b := s.b.modQ 1 (fun x => { x with cfg := 0x0100_0000_0200_0606#64 }) }

theorem meets_Periods : (∀ m p dl, (m, p, dl) ∈ [(0, 0, 4096), (1, 2048, 2048), (2, 0, 0)] →
      let s := rt2 (handed 0x04 (period m p dl)); let d := dd .handed (dbytes 0x04 0 (period m p dl))
      Live s ∧ handedOf s.b 1 [0x04] = some d ∧ d.f 8 1 = m) ∧
    (let x : Stream := { open_ := true, num := 1, openedAt := 100, deadlineAt := some 20160, auto := some (2048, 2048) }
     let s := st (fun b => b.setStream 7 x)
     (s.b.stream 7).auto = some (2048, 2048) ∧ (s.b.stream 7).openedAt + 2048 ≤ s.b.clk.core ∧ (s.b.stream 7).deadlineAt = some 20160 ∧
     (s.b.stream 7).open_ = true ∧ 20160 ≤ s.b.clk.core) := by
  refine ⟨?_, by decide +kernel⟩
  intro m p dl h
  simp only [List.mem_cons, Prod.mk.injEq, List.not_mem_nil, or_false] at h
  rcases h with ⟨rfl, rfl, rfl⟩ | ⟨rfl, rfl, rfl⟩ | ⟨rfl, rfl, rfl⟩ <;> exact ⟨rfl, by decide +kernel, by decide +kernel⟩

/-- A period that drops one descriptor and keeps another; and a tagged descriptor behind a PERIOD that completes. -/
theorem meets_PeriodDrops : let l := [{ nop5 with stage := .held, period := some 1 }, { nop5 with id := 6, stage := .held }]
    let b := (rt2 (st (fun b => run1 l (b.setStream 2 { open_ := true, num := 1 })))).b
    (b.front.descs.map (·.id)).Nodup ∧ (l.head?.map (fun d => (d.period, (b.q d.q).stream))) = some (some (b.stream 2).num, 2) ∧
    (∀ e ∈ b.front.descs, e.behind = none) ∧
    let l := [dd .handed (dbytes 0x04 0 []), { nop5 with id := 6, stage := .held, behind := some 5 }]
    let b := (st (run1 l)).b
    (b.front.descs.map (·.id)).Nodup ∧ b.desc? 5 = l[0]? ∧ b.desc? 6 = l[1]? ∧ (l.map (·.stage)) = [.handed, .held] := by decide +kernel

/-- R54, R57: the period opens now, with the first tagged dispatch 32 cycles later. -/
theorem test_periodManual : onNext (exec (.periodManual 1) (rt2 (handed 0x04 (period 0 0 4096)))) (fun b => completed b .ok 0
      && b.stream 2 == { open_ := true, num := 1, openedAt := 20160, deadlineAt := some 24256, readyAt := 20192 }) = true ∧
    onNext (exec (.periodAuto 1) (rt2 (handed 0x04 (period 1 2048 2000)))) (fun b => (b.stream 2).auto == some (2048, 2000)) = true ∧
    onNext (exec (.periodStop 1) (rt2 (handed 0x04 (period 2 0 0)))) (fun b => completed b .ok 0 && (b.stream 2).auto == none) = true := by decide +kernel

/-- R54, R56. -/
theorem test_deadline : let x : Stream := { open_ := true, num := 1, openedAt := 18112, deadlineAt := some 20160, auto := some (2048, 2048) }
    onNext (exec (.deadline 2) (st (fun b => b.setStream 2 x))) (fun b => (b.stream 2).passed) = true ∧
    onNext (exec (.periodAutoOpen 2) (st (fun b => b.setStream 2 x))) (fun b => (b.stream 2).num == 2 && (b.stream 2).openedAt == 20160) = true ∧
    onNext (exec (.deadline 2) (st (fun b => b.setStream 2 { x with deadlineAt := some 20161 }))) (fun b => !(b.stream 2).passed) = true := by
  decide +kernel

/-- KINDLE (R61): classes, lead and duration. -/
def kindle (cls lead dur : Nat) : List Byte := bs [cls, 0, 0, 0] ++ toLe 4 lead ++ toLe 4 dur
/-- CANCEL (R45): the target queue, from a slot on. -/
def cancelBody (q slot : Nat) : List Byte := bs [q, 0] ++ toLe 2 slot

theorem meets_Kindle : let s := handed 0x05 (kindle 1 1048576 0)
    Live s ∧ handedOf s.b 1 [0x05] = some (dd .handed (dbytes 0x05 0 (kindle 1 1048576 0))) ∧
    (let e := dd .running (dbytes 0x05 0 (kindle 1 0 0)) (.kindle 20160); let s := st (run1 [e])
     (s.b.descsOf 1).find? (fun d => match d.work with
        | .kindle t => d.stage == .running && decide (t ≤ s.b.clk.core)
        | _ => false) = some e) ∧
    (let s := st (fun b => { b with front := { b.front with heavy := [{ cls := 1, fin := 20160 }, { cls := 2, fin := 20161 }] } })
     ∃ h ∈ s.b.front.heavy, s.b.clk.core < h.fin) := by
  refine ⟨rfl, by decide +kernel, by decide +kernel, ⟨{ cls := 2, fin := 20161 }, by decide +kernel, by decide +kernel⟩⟩

/-- R61, R348: HEAVY_AHEAD is high from dispatch, and low once the share ends. -/
theorem test_kindle : onNext (exec (.kindle 1) (handed 0x05 (kindle 1 100 50))) (fun b => b.pw.heavyAhead
      && b.front.heavy == [{ cls := 1, fin := 20310 }] && b.front.descs.map (·.work) == [.kindle 20260]) = true ∧
    onNext (exec .heavyRequestEnd (st (fun b => { b with front := { b.front with heavy := [{ cls := 1, fin := 20160 }, { cls := 2, fin := 20161 }] } })))
      (fun b => b.front.heavy == [{ cls := 2, fin := 20161 }]) = true ∧
    onNext (exec (.kindleLeadEnd 1) (st (run1 [dd .running (dbytes 0x05 0 (kindle 1 0 0)) (.kindle 20160)]))) (fun b => completed b .ok 0) = true := by
  decide +kernel

theorem meets_Cancel : let d (q : Nat) := dd .handed (dbytes 0x07 0 (cancelBody q 0))
    handedOf (handed 0x07 (cancelBody 2 0)).b 1 [0x07] = some (d 2) ∧ ((handed 0x07 (cancelBody 2 0)).b.q 2).st = .unbound ∧
    (let s := st (fun b => (run1 [d 2] b).setQ 2 { qd .running with cfg := 0x0100_0000_FF01_0606#64 })
     handedOf s.b 1 [0x07] = some (d 2) ∧ (s.b.q 2).st = .running ∧ (s.b.q 2).ctx ≠ (s.b.q 1).ctx) ∧
    (let s := st (fun b => (run1 [d 2] b).setQ 2 (qd .running))
     handedOf s.b 1 [0x07] = some (d 2) ∧ (s.b.q 2).st = .running ∧ (s.b.q 2).ctx = (s.b.q 1).ctx) ∧
    (let r : CancelRange := { skipFrom := 0, skipTo := 0, skipped := 0, reached := true, members := [], epoch := 3, fixedAt := 0, dropped := 2, byDesc := none }
     let s := st (fun b => (run1 [] b).setQ 1 { qd .running with cancels := [r] })
     (s.b.q 1).cancels.find? (markerReady s.b) = some r ∧ cancelFrom s.b 1 0 = none) ∧
    (State.reset.b.q 1).cancels.find? (markerReady State.reset.b) = none := by decide +kernel

/-- R45, R47: nothing of the target is cancelled twice; the marker's record names the EPOCH. -/
theorem test_cancel : onNext (exec (.cancel 1) (handed 0x07 (cancelBody 2 0))) (fun b => completed b .ok 0) = true ∧
    onNext (exec (.cancelMarker 1) (st (fun b => (run1 [] b).setQ 1 { qd .running with cancels := [
      { skipFrom := 0, skipTo := 0, skipped := 4, reached := true, members := [], epoch := 3, fixedAt := 9, dropped := 2, byDesc := none }] })))
      (fun b => (b.q 1).cancels.isEmpty && (b.q 1).recq == [.event .cancelled 2 (4 + 3 * 65536) 9 none]) = true := by decide +kernel

/-- REARM (R59): entries and their table. -/
def rearmBody (k va : Nat) : List Byte := toLe 2 k ++ toLe 6 0 ++ toLe 8 va

/-- Queue 1 is persistent, of 4 slots; its REARM in slot 0 has this table at 0x7000. -/
def rearmed (k : Nat) (table : List Byte) : State :=
  let s := handed 0x06 (rearmBody k 0x7000)
  { s with b := (img (ctxImg ++ [(0x7000, table)]) s.b).modQ 1 (fun x => { x with cfg := 0x0101_0003_FF00_0606#64 }) }

/-- Every hypothesis on the table in place, and what R59 says of it. -/
def rearmIs (s : State) (k : Nat) (ok : Bool) : Bool :=
  let d := dd .handed (dbytes 0x06 0 (rearmBody k 0x7000))
  handedOf s.b 1 [0x06] == some d && d.f 8 2 == k && (match rd .front (.desc 5) (clsOf s.b 1) 0x7000 (16 * k) s.b with
    | (b1, .ok l) => !anyPoison l && rearmTableOk (b1.q 1) d (pieces 16 (plain l)) == ok
    | (_, _) => false)

theorem meets_Rearm : Live (rearmed 1 (toLe 2 2 ++ bs [1, 0] ++ toLe 4 0 ++ toLe 8 77)) ∧
    rearmIs (rearmed 1 (toLe 2 2 ++ bs [1, 0] ++ toLe 4 0 ++ toLe 8 77)) 1 true = true ∧
    rearmIs (rearmed 1 (toLe 2 9 ++ bs [1, 0] ++ toLe 4 0 ++ toLe 8 77)) 1 false = true ∧
    (dd .handed (dbytes 0x06 0 (rearmBody 1025 0))).f 8 2 = 1025 ∧ handedOf (rearmed 0 []).b 1 [0x06] = some (dd .handed (dbytes 0x06 0 (rearmBody 0 0x7000))) ∧
    (let s := rearmed 1 []; let b := { s.b with mem := s.b.mem.write 0x7000 [(0, true)] }
     handedOf b 1 [0x06] = some (dd .handed (dbytes 0x06 0 (rearmBody 1 0x7000))) ∧
     (match rd .front (.desc 5) (clsOf b 1) 0x7000 16 b with
      | (_, .ok l) => anyPoison l
      | (_, _) => false) = true) ∧
    -- an entry for word 8 of slot 2 cannot patch a held descriptor there of one slot
    patchBad [patchOf 0 (toLe 2 2 ++ bs [8, 0] ++ toLe 4 0 ++ toLe 8 77)] 0 2 1 1 = true := by
  refine ⟨rfl, ?_⟩
  decide +kernel

/-- R59, R60. -/
theorem test_rearm : onNext (exec (.rearm 1) (rearmed 1 (toLe 2 2 ++ bs [1, 0] ++ toLe 4 0 ++ toLe 8 77))) (fun b => completed b .ok 0
      && (b.q 1).patches == [{ replay := 0, slot := 2, word := 1, value := 77 }]) = true ∧
    onNext (exec (.rearm 1) (rearmed 0 [])) (fun b => completed b .malformed 0 && (b.q 1).patches.isEmpty) = true := by decide +kernel

/-- MAINT of everything (R62). -/
def maintBody (op : Nat) : List Byte := bs [op, 2, 7, 0, 255, 255, 255, 255]

/-- Pitch 3 holds a dirty line at 0x1000. -/
def dirty3 (s : State) : State :=
  { s with b := s.b.setPitch 3 { mdc := { lines := [(0, { addr := s.b.selfPa 0x1000, data := List.replicate 128 (9, false), dirty := true, ctx := 0 })] } } }

theorem meets_Maint : ∀ op ∈ [1, 2, 3], let s := dirty3 (handed 0x08 (maintBody op)); let d := dd .handed (dbytes 0x08 0 (maintBody op))
    Live s ∧ handedOf s.b 1 [0x08] = some d ∧ d.f 8 1 = op ∧ (s.b.pitch 3).mdc.lines.any (fun e => maintSelects d s.b e.1 e.2 && e.2.dirty) = true := by
  simp only [List.mem_cons, List.not_mem_nil, or_false]
  rintro op (rfl | rfl | rfl) <;> exact ⟨rfl, by decide +kernel, by decide +kernel, by decide +kernel⟩

/-- R62: CLEAN writes the line back and keeps it, INVALIDATE after a clean drops it. -/
theorem test_maint : onNext (exec (.maintClean 1) (dirty3 (handed 0x08 (maintBody 1)))) (fun b => completed b .ok 1 && b.mem.byte 0x107F == 9
      && (b.pitch 3).mdc.lines.map (·.2.dirty) == [false]) = true ∧
    onNext (exec (.maintCleanInvalidate 1) (dirty3 (handed 0x08 (maintBody 3)))) (fun b => b.mem.byte 0x107F == 9 && (b.pitch 3).mdc.lines.isEmpty) = true := by
  decide +kernel

/-! ### Barriers -/

/-- A packet of this chip's own die in the port sack. -/
def rx (m : Msg) : Rx := { msg := m, chip := 0, die := 0, via := .local, rt := false, stream := 0, part := 0 }
def inPort (m : Msg) : State := st (fun b => { b with port := [rx m] })

/-- PEG_GLOBAL (R51): SUM of one value at 0x7000 at barrier 2, generation 9, the result to 0x7100. -/
def pegBody : List Byte := bs [1, 1, 2, 0, 0, 0, 0, 0] ++ toLe 4 9 ++ toLe 4 0 ++ toLe 8 0x7000 ++ toLe 8 0x7100
def pegWait0 : BarWait := { barrier := 2, gen := 9, reduce := 1, count := 1, sentAt := none, own := none }
def pegD (w : Option Nat) : Desc := dd .running (dbytes 0x03 0 pegBody) (.peg { pegWait0 with sentAt := w })
/-- FP64 1.0 and 3.0. -/
def one64 : W64 := 0x3FF0000000000000#64
def three64 : W64 := 0x4008000000000000#64
def arrive0 : PegArriveB := { part := 0, barrier := 2, reduce := 1, count := 1, mismatch := false, abort := false, subtree := 1, gen := 9, vals := [three64], ctx := 1 }
def result0 : PegResultB := { part := 0, barrier := 2, status := 0, count := 1, rank := 0, gen := 9, vals := [three64], ctx := 1 }
def withMem (l : List (Nat × List Byte)) (s : State) : State := { s with b := img (ctxImg ++ l) s.b }

theorem meets_Barriers : let s := withMem [(0x7000, toLe 8 three64.toNat)] (handed 0x03 pegBody)
    Live s ∧ handedOf s.b 1 [0x03] = some (dd .handed (dbytes 0x03 0 pegBody)) ∧
    (let b0 := startWork 5 (.peg pegWait0) s.b
     (b0.descsOf 1).find? (fun d => match d.work with
          | .peg w => w.sentAt.isNone && !(barrierHeld b0 d w) && !(b0.isParked (.desc d.id))
          | _ => false) = some (pegD none) ∧
     (match rd .front (.desc 5) (clsOf b0 1) 0x7000 8 b0 with
      | (b1, .ok l) => !anyPoison l && b1.desc? 5 == some (pegD none) && b1.ident.die == 0
      | (_, _) => false) = true) ∧
    (let s := inPort (.pegArrive arrive0); let b0 := takeRx 0 (rx (.pegArrive arrive0)) s.b
     oldest s.b (fun r => match r.msg with
        | .pegArrive _ => true
        | _ => false) = some (0, rx (.pegArrive arrive0)) ∧ b0.dies = [0] ∧ barrierOf b0 0 1 = (0, none) ∧ findNode b0 0 2 = none ∧
     b0.ridge.abandoned = []) ∧
    (let a : Arrival := { child := false, who := 0, subtree := 1, reduce := 1, count := 1, mismatch := false, abort := false, vals := [three64] }
     let x : Node := { ctx := 0, slot := none, part := 0, barrier := 2, gen := 9, arrivals := [a] }
     inOrder State.reset.b x = [a] ∧ State.reset.b.dies.length = 1 ∧ nodeParent State.reset.b none = none ∧
     inOrder State.reset.b { x with arrivals := [{ a with mismatch := true }] } = [{ a with mismatch := true }]) ∧
    oldest (inPort (.pegResult result0)).b (fun r => match r.msg with
        | .pegResult _ => true
        | _ => false) = some (0, rx (.pegResult result0)) := by
  refine ⟨rfl, ?_⟩
  decide +kernel

/-- A result that has come is the participant's own status, another status, or the values, which are written. -/
theorem meets_BarrierFinish : let w : BarWait := { pegWait0 with sentAt := some 9 }
    (∀ own code, (own, code) ∈ [(some Status.cancelled, 0), (none, 1), (none, 0)] →
      let x := { w with own := own, result := some (code, 0, [three64]) }
      let b := (withMem [] (st (run1 [dd .running (dbytes 0x03 0 pegBody) (.peg x)]))).b
      b.desc? 5 = some (dd .running (dbytes 0x03 0 pegBody) (.peg x)) ∧ b.isParked (.desc 5) = false ∧
      (wr .front (.desc 5) (clsOf b 1) 0x7100 (clean (toLe 8 three64.toNat)) b).2 = .ok) := by
  intro w own code h
  simp only [List.mem_cons, Prod.mk.injEq, List.not_mem_nil, or_false] at h
  rcases h with ⟨rfl, rfl⟩ | ⟨rfl, rfl⟩ | ⟨rfl, rfl⟩ <;> exact ⟨by decide +kernel, by decide +kernel, by decide +kernel⟩

/-- R51, R271: the arrival reaches the combining die's port sack; R322, R323: the sum of one participant is its value, with rank 0. -/
theorem test_pegGlobal : onNext (exec (.pegGlobal 1) (withMem [(0x7000, toLe 8 three64.toNat)] (handed 0x03 pegBody)))
      (fun b => b.port.map (·.msg) == [.pegArrive arrive0] && b.front.descs.map (·.work) == [.peg { pegWait0 with sentAt := some 20160 }]) = true ∧
    onNext (exec .pegResult (withMem [] (st (fun b => { run1 [pegD (some 20000)] b with port := [rx (.pegResult result0)] }))))
      (fun b => b.mem.bytes 0x7100 8 == toLe 8 three64.toNat && b.front.descs.map (fun d => (d.statuses, d.aux)) == [([.ok], 0)]) = true ∧
    onNext (exec .pegArrive (withMem [] (st (fun b => { run1 [pegD (some 20000)] b with port := [rx (.pegArrive arrive0)] }))))
      (fun b => b.mem.bytes 0x7100 8 == toLe 8 three64.toNat && b.front.descs.map (·.stage) == [.complete]) = true ∧
    reduceVals 1 [one64] [one64, three64] = [0x4000000000000000#64] ∧ reduceVals 2 [one64] [three64] = [three64] := by decide +kernel

/-! ### LOOKUP -/

/-- LOOKUP (R87): SUM pooling of 2 bags of table 0, lengths at 0x7000, indices at 0x7100, output of stride 256 at 0x9000, mask at 0xA000. -/
def lookupBody : List Byte :=
  bs [0, 0, 0, 0] ++ toLe 4 2 ++ toLe 4 2 ++ toLe 2 0 ++ toLe 2 0 ++ toLe 4 256 ++ toLe 4 0 ++ toLe 8 0 ++ toLe 8 0x7000 ++ toLe 8 0x7100 ++ toLe 8 0
    ++ toLe 8 0x9000 ++ toLe 8 0xA000 ++ toLe 8 0
def lookupBytes : List Byte := padTo 128 (bs [0x10, 0, 7, 0, 0xFF, 0, 2, 0] ++ lookupBody)

/-- Table 0 (R64): FP32 rows of 4 elements with stride 16, 32-bit unsigned indices, 64 rows, one chip, which 0x5000 names, one die, rows from 2 MiB. -/
def head0 (fmt dim stride rows : Nat) : List Byte :=
  bs [1, fmt, 0, 0] ++ toLe 2 dim ++ toLe 2 stride ++ toLe 8 rows ++ toLe 2 1 ++ bs [0, 0, 0, 1] ++ toLe 2 0xFFFF ++ toLe 8 0x5000
/-- The fields from FREEZE_MAP (80) to the log's size (144), and the row base of slot 0 (192). -/
def tabOf (head : List Byte) (mid : List Nat) : List Byte :=
  head ++ List.replicate 48 0 ++ mid.flatMap (toLe 8) ++ List.replicate 40 0 ++ toLe 8 0x200000 ++ List.replicate 56 0
def table0 : List Byte := tabOf (head0 0 4 16 64) [0, 0, 0, 0, 0, 0, 0, 0, 0]
def cap0 : Captured := { table := 0, bytes := table0, slot := 0 }
theorem test_table0 : cap0.ok = true := by decide +kernel

def lookupRun : UnitsRun := { tabs := [cap0], segs := [(0, 0, 2)], lens := [1, 1], total := 2 }
def lookupD (stage : Stage) (w : Work) : Desc := { dd stage lookupBytes w with slots := 2, pre := { tabs := [cap0], lens := [1, 1] } }

/-- Bag 0 on pitch 0 with its index fetched. -/
def bag0 (ix : Nat) : Machine.Unit := { uid := 20, op := 5, kind := .bag, no := 0, pitch := 0, have_ := [(0x7100, (toLe 4 ix).map (·, false))] }
def looking (u : Machine.Unit) (bags : List Bag) : State :=
  withMem [] (st (fun b => { run1 [lookupD .running (.units lookupRun)] b with units := [u], bags := bags, nextUid := 30 }))

/-- Every hypothesis of INDEX_PARSE in place, and what the index and its row come to. -/
def parses (s : State) (u : Machine.Unit) (p : Blk → IxClass → Bool) : Bool :=
  nextUnit s.b 0 0 (s.b.units.filter (parseReady s.b 0)) == some u
    && s.b.desc? u.op == some (lookupD .running (.units lookupRun)) && !(tabOfBag lookupRun u.no).bad && tabOfBag lookupRun u.no == cap0
    && (match u.input 0x7100 4 with
        | some ix => !anyPoison ix && p (openBag u (lookupD .running (.units lookupRun)) 0 s.b) (classify cap0 (le (plain ix)))
        | none => false)

/-- Its partial, with one fragment still out to chip 1. -/
def bagOut : Bag := { tag := 20, op := 5, unit := 20, cell := 0, pitch := 0, q := 1, tab := 0, parsed := true, frags := [{ chip := 1, die := 0, frag := 0 }] }
def partial0 (st : Nat) : PartialB := { status := st, bf16 := false, tag := 20, frag := 0, chip := 1, die := 0, vals := [1, 2, 3, 4] }
def rx1 (m : Msg) : Rx := { rx m with chip := 1, via := .ridge 0 }

theorem meets_Lookup : let s := withMem [] (st (run1 [lookupD .handed .none]))
    Live s ∧ (handedOf s.b 1 [0x10] = some (lookupD .handed .none) ∧ (zeroMask 5 0xA000 2 s.b).2 = .ok) ∧
    parses (looking (bag0 0xFFFFFFFF) []) (bag0 0xFFFFFFFF) (fun _ k => k.counter.isSome) = true ∧
    parses (looking (bag0 63) []) (bag0 63) (fun b k => k == .valid 63 && (serveRow 0 20 (clsOf b 1) cap0 63 b).2 == .here (0x200000 + 16 * 63) .shard) = true ∧
    (let s := looking (bag0 63) []; parses { s with b := img [(0x5000, toLe 2 1)] s.b } (bag0 63)
      (fun b k => k == .valid 63 && (serveRow 0 20 (clsOf b 1) cap0 63 b).2 == .away 1 0)) = true ∧
    (∀ code ∈ [0, 1], let s := looking (bag0 63) [bagOut]; let s : State := { s with b := { s.b with port := [rx1 (.partialV (partial0 code))] } }
      oldest s.b (fun r => match r.msg with
        | .partialV _ => true
        | _ => false) = some (0, rx1 (.partialV (partial0 code))) ∧
      (heard 1 (takeRx 0 (rx1 (.partialV (partial0 code))) s.b)).bags.find? (fun x => x.tag % 2 ^ 32 = 20
        && x.frags.any (fun f => f.chip = 1 && f.die = 0 && f.frag = 0 && f.vals.isNone)) = some bagOut) ∧
    (let u := { bag0 63 with next := 1, nValid := 1 }
     let x := { bagOut with frags := [{ chip := 0, die := 0, frag := 0, vals := some [1, 2, 3, 4] }] }
     let s := looking u [x]
     unitOf s.b 20 = some (u, lookupD .running (.units lookupRun)) ∧ u.stage ≠ .write ∧ bagReady s.b (lookupD .running (.units lookupRun)) lookupRun u = true ∧
     (storeAll 0 20 (clsOf s.b 1) (bagOutput (lookupD .running (.units lookupRun)) u 4 x.frags) s.b).2 = .ok ∧
     let u := { u with stage := .write }
     let s := looking u [x]
     let b0 := flushUnit u s.b
     outputVisible b0 ((b0.unit? 20).getD u) = true ∧ (setMaskBit 0 5 20 (clsOf b0 1) 0xA000 0 b0).2 = .ok) := by
  refine ⟨rfl, ?_⟩
  decide +kernel

/-- R87, R91: two bags, each with its index tile, are handed out; R106: the mask is zeroed first. -/
theorem test_lookup : onNext (exec (.lookup 1) (withMem [(0xA000, bs [255])] (st (run1 [lookupD .handed .none]))))
      (fun b => b.units.map (fun u => (u.no, u.need)) == [(0, [(0x7100, 4)]), (1, [(0x7104, 4)])] && b.mem.byte 0xA000 == 0) = true := by decide +kernel

/-- R77: a missing index is dropped and counted; R92: a valid row of this die is bound for its home. -/
theorem test_indexParse : onNext (exec (.indexParse 0) (looking (bag0 0xFFFFFFFF) [])) (fun b => b.front.descs.map (·.dropped) == [1]
      && (b.units.map (·.nValid)) == [0]) = true ∧
    onNext (exec (.indexParse 0) (looking (bag0 63) [])) (fun b => counter b Ctr.lkLocalRows 1 == 1 && (b.units.map (·.nValid)) == [1]
      && b.frags.map (fun f => f.rows.map (·.va)) == [[0x200000 + 16 * 63]]) = true := by decide +kernel

/-- R102. -/
theorem test_partialIn : let s := looking (bag0 63) [bagOut]
    onNext (exec .partialIn { s with b := { s.b with port := [rx1 (.partialV (partial0 0))] } })
      (fun b => b.bags.map (fun x => x.frags.map (·.vals)) == [[some [1, 2, 3, 4]]]) = true := by decide +kernel

/-- R106: the bag's sum is written, then its mask bit is set. -/
theorem test_bagCommit : let u := { bag0 63 with next := 1, nValid := 1 }
    let x := { bagOut with frags := [{ chip := 0, die := 0, frag := 0, vals := some [0x3F800000#32, 2, 3, 4] }] }
    onNext (exec (.bagCommit 20) (looking u [x])) (fun b => b.gs.writes.map (fun w => (w.2.1, w.2.2.1.take 4)) == [(0x9000, [(0, false), (0, false), (0x80, false), (0x3F, false)])]) = true ∧
    onNext (exec (.bagCommit 20) (looking { u with stage := .write } [x])) (fun b => b.mem.byte 0xA000 == 1 && counter b Ctr.lkBagsValid 1 == 1) = true := by
  decide +kernel

/-! ### A fragment at its home -/

def fragReq0 : FragReqB := { ctx := 0, weighted := false, bf16 := false, slot := 0, stream := 255, table := 0, frag := 0, tag := 20, srcChip := 1, srcDie := 0, srcPitch := 2, rows := [63], weights := [] }
/-- Its table descriptor lies in the directory; `v` is the slot that it names. -/
def homeState (m : FragReqB) (tab : List Byte) : State := withMem [(0x100000, tab)] (st (fun b => { b with port := [rx1 (.fragReq m)] }))

/-- Every hypothesis of FRAG_REQ in place, and what its table is. -/
def requests (s : State) (m : FragReqB) (p : Captured → Bool) : Bool :=
  let f : Frag := { fid := s.b.nextUid, pitch := leastServing s.b, ctx := m.ctx, table := m.table, slot := m.slot, fmt := 0, dim := 0, bf16 := m.bf16,
                    rows := [], acc := [], req := some (m, 0), resolved := false, tag := m.tag, frag := m.frag, rt := false, stream := 0 }
  let b0 := takeRx 0 (rx1 (.fragReq m)) s.b
  s.b.frags.isEmpty && oldest s.b (fun r => match r.msg with
        | .fragReq _ => true
        | _ => false) == some (0, rx1 (.fragReq m))
    && (match readTable (.pitch f.pitch) (.frag f.fid) f.cls f.table { b0 with frags := b0.frags ++ [f], nextUid := b0.nextUid + 1 } with
        | (_, .ok l) => p { table := m.table, bytes := plain l, slot := m.slot }
        | (_, _) => false)

def frag0 : Frag := { fid := 40, pitch := 3, ctx := 0, table := 0, slot := 0, fmt := 0, dim := 4, bf16 := false,
                      rows := [{ row := 63, va := 0x200000 + 16 * 63, src := .shard, w := 0x3F800000#32 }], acc := [0, 0, 0, 0], req := some (fragReq0, 0), tag := 20, frag := 0 }
def serving (f : Frag) : State :=
  withMem [(0x200000 + 16 * 63, toLe 4 0x3F800000 ++ toLe 4 0x40000000 ++ toLe 8 0)] (st (fun b => { b with frags := [f] }))

/-- Every hypothesis of SECTOR_RETURN in place. -/
def returns (f : Frag) : Bool :=
  let s := serving f
  bestBy Frag.prio (s.b.frags.filter (fun f => f.pitch = 3 && f.resolved && !(s.b.isParked (.frag f.fid)))) == some f
    && (match f.rows[f.next]? with
        | some r => (match readRow f r s.b with
            | (_, .ok d) => !anyPoison d
            | (_, _) => false)
        | none => false)

theorem meets_Home : Live (homeState fragReq0 table0) ∧ requests (homeState fragReq0 []) fragReq0 (fun t => !t.shapeOk) = true ∧
    requests (homeState { fragReq0 with slot := 3 } table0) { fragReq0 with slot := 3 } (fun t => t.shapeOk && t.rowBase 3 == 0) = true ∧
    requests (homeState fragReq0 table0) fragReq0 (fun t => t.shapeOk && t.rowBase 0 != 0) = true ∧
    returns frag0 = true ∧ frag0.next + 1 = frag0.rows.length ∧
    returns { frag0 with rows := frag0.rows ++ frag0.rows } = true := by
  refine ⟨rfl, ?_⟩
  decide +kernel

/-- R96: rows are resolved to addresses; R100: the row is pooled by its weight. -/
theorem test_home : onNext (exec .fragReq (homeState fragReq0 table0)) (fun b => b.frags.map (fun f => (f.resolved, f.rows.map (·.va))) == [(true, [0x200000 + 16 * 63])]) = true ∧
    onNext (exec (.sectorReturn 3) (serving { frag0 with rows := frag0.rows ++ frag0.rows }))
      (fun b => b.frags.map (fun f => (f.next, f.acc)) == [(1, [0x3F800000#32, 0x40000000#32, 0#32, 0#32])]) = true ∧
    onNext (exec (.sectorReturn 3) (serving frag0)) (fun b => b.frags.isEmpty) = true := by decide +kernel

/-- R36: a LOOKUP names its lengths and its table, which are read before it is handed over. -/
theorem meets_DispatchReads : let d := { dd .held lookupBytes with slots := 2 }
    let s := withMem [(0x7000, toLe 2 1 ++ toLe 2 1), (0x100000, table0)] (st (run1 [d]))
    nextDispatch s.b 1 = some d ∧ mayDispatch s.b 1 = true ∧ d.patched = false ∧ d.bad = false ∧
    (match runPre 5 4200 (s.b.modDesc 5 (fun _ => d)) with
     | (b1, .ready) => (match b1.desc? 5 with
        | some d1 => judge (spendCredit 1 b1) d1 == [] && d1.pre.lens == [1, 1] && d1.pre.tabs == [cap0]
        | none => false)
     | (_, _) => false) = true := by decide +kernel

/-! ### LATTICE -/

/-- A running operator of units on pitch 0. -/
def unitsOn (d : Desc) (us : List Machine.Unit) : State := withMem [] (st (fun b => { run1 [d] b with units := us, nextUid := 30 }))

/-- LATTICE (R111): 2 dimensions, FP32 coordinates at 0x7000, one level, 2 points, output of stride 16 at 0x9000, mask at 0xA000, bounds 0 to 1. -/
def latticeBytes : List Byte :=
  padTo 128 (bs [0x12, 0, 7, 0, 0xFF, 0, 2, 0] ++ bs [2, 0, 0, 1] ++ toLe 4 2 ++ toLe 4 8 ++ toLe 4 16 ++ toLe 8 0x7000 ++ toLe 8 0x7800 ++ toLe 8 0x9000
    ++ toLe 8 0xA000 ++ toLe 8 0 ++ toLe 16 0 ++ toLe 4 0x3F800000 ++ toLe 4 0x3F800000)
/-- A dense level of resolution 4 in table 0 (R112): buffered or not. -/
def level (buffered : Nat) : List Byte := padTo 32 (bs [0, 0, 0, buffered] ++ toLe 4 4)
/-- Table 0 with 25 rows of one lattice element, FMT 4. -/
def capL : Captured := { table := 0, slot := 0, bytes := tabOf (head0 4 1 2 25) [0, 0, 0, 0, 0, 0, 0, 0, 0] }
def latticeRun (buffered : Nat) : UnitsRun := { tabs := [capL], levels := [level buffered], total := 1 }
def latticeD (stage : Stage) (w : Work) : Desc := { dd stage latticeBytes w with slots := 2, pre := latticeRun 0 }
/-- Group 0 with both points' coordinates: (0.5, 0.25) and (x, 0). -/
def group0 (x : Nat) : Machine.Unit :=
  { uid := 20, op := 5, kind := .group, no := 0, pitch := 0,
    have_ := [(0x7000, (toLe 4 0x3F000000 ++ toLe 4 0x3E800000 ++ toLe 4 x ++ toLe 4 0).map (·, false))] }

/-- Every hypothesis of a pitch's lattice unit in place. -/
def latticeIs (s : State) (u : Machine.Unit) (buffered : Nat) (p : Blk → Bool) : Bool :=
  let b0 := scrubGrid 0 s.b
  latticeUnit b0 0 == some u && b0.desc? 5 == some (latticeD .running (.units (latticeRun buffered))) && p b0

theorem meets_Lattice : let s := withMem [] (st (run1 [latticeD .handed .none]))
    Live s ∧ handedOf s.b 1 [0x12] = some (latticeD .handed .none) ∧ (zeroMask 5 0xA000 1 s.b).2 = .ok ∧
    latticeIs (unitsOn (latticeD .running (.units (latticeRun 1))) [group0 0]) (group0 0) 1 (fun b => match missingLevels b 0 0 (latticeRun 1) with
      | [(g, n)] => (match (rd (.pitch 0) (.unit 20) (clsOf b 1) g.va n b).2 with
          | .ok _ => n == 50
          | _ => false)
      | _ => false) = true ∧
    (let u := { group0 0x7FC00000 with next := 1 }
     latticeIs (unitsOn (latticeD .running (.units (latticeRun 0))) [u]) u 0 (fun b => missingLevels b 0 0 (latticeRun 0) == [] && mayOpen b 0
      && (match u.input 0x7008 8 with
          | some l => (coordsOf latticeBytes l).any (fun c => (rd32 c).isNan) && (pieces 4 l).all (fun x => !anyPoison x)
          | none => false))) = true ∧
    (let u := group0 0
     latticeIs (unitsOn (latticeD .running (.units (latticeRun 0))) [u]) u 0 (fun b => match u.input 0x7000 8 with
      | some l => !((coordsOf latticeBytes l).any (fun c => (rd32 c).isNan))
          && (match serveCorners 0 20 (clsOf b 1) (level 0) capL (cornersOf latticeBytes (level 0) 25 (coordsOf latticeBytes l)) b with
              | (_, .here _ _, rows) => rows.length == 4
              | (_, _, _) => false)
      | none => false)) = true := by
  refine ⟨rfl, ?_⟩
  decide +kernel

/-- R114, R116: (0.5, 0.25) on a dense level of resolution 4 is the vertex (2, 1) itself: entry 2 + 5·1, with weight 1. -/
theorem test_corners : cornersOf latticeBytes (level 0) 25 [0x3F000000#32, 0x3E800000#32] =
    [(7, 0x3F800000#32), (8, 0#32), (12, 0#32), (13, 0#32)] := by decide +kernel

/-- R138: one group of both points; R121: the level's 25 entries of 2 bytes are loaded; R115: a NaN drops its point, and the group is written. -/
theorem test_lattice : onNext (exec (.lattice 1) (withMem [] (st (run1 [latticeD .handed .none])))) (fun b => b.units.map (fun u => (u.kind, u.need)) == [(.group, [(0x7000, 16)])]) = true ∧
    onNext (exec (.gridBufferLoad 0) (unitsOn (latticeD .running (.units (latticeRun 1))) [group0 0])) (fun b => (b.pitch 0).grid.map (·.data.length) == [50]) = true ∧
    onNext (exec (.latticePoint 0) (unitsOn (latticeD .running (.units (latticeRun 0))) [{ group0 0x7FC00000 with next := 1 }]))
      (fun b => b.front.descs.map (·.dropped) == [1] && b.units.map (·.drops) == [[1]]) = true ∧
    onNext (exec (.latticePoint 0) (unitsOn (latticeD .running (.units (latticeRun 0))) [group0 0]))
      (fun b => b.frags.map (fun f => f.rows.map (·.row)) == [[7, 8, 12, 13]] && b.units.map (·.next) == [1]) = true := by decide +kernel

/-! ### The matrix array -/

/-- ARRAY_RUN (R127): INT8, 1 by 1 of depth 2, A at 0x7000, B at 0x7100, INT32 output at 0x9000, mask at 0xA000. -/
def arrayBytes : List Byte :=
  padTo 128 (bs [0x13, 0, 7, 0, 0xFF, 0, 2, 0] ++ bs [1, 3, 0, 0] ++ toLe 4 1 ++ toLe 4 1 ++ toLe 4 2 ++ toLe 8 0x7000 ++ toLe 8 0x7100 ++ toLe 8 0x9000
    ++ toLe 4 2 ++ toLe 4 1 ++ toLe 4 4 ++ toLe 4 0x3F800000 ++ toLe 8 0 ++ toLe 8 0xA000)
theorem test_arrayRunOk : arrayRunOk arrayBytes false = true := by decide +kernel
def arrayD (stage : Stage) (w : Work) : Desc := { dd stage arrayBytes w with slots := 2 }
def arrayOn (us : List Machine.Unit) (arr : ArraySt) : State :=
  let s := unitsOn (arrayD .running (.units { total := 1 })) us
  { s with b := s.b.setPitch 0 { arr := arr } }
/-- Block 0 with A = (2, 3) and B = (4, −1). -/
def block0 : Machine.Unit :=
  { uid := 20, op := 5, kind := .block, no := 0, pitch := 0, have_ := [(0x7000, [(2, false), (3, false)]), (0x7100, [(4, false)]), (0x7101, [(0xFF, false)])] }
def key0 : PanelKey := { op := 5, unit := 20, pass := 0 }

/-- INTERACT (R131): FP32, 2 vectors of 4 elements at 0x7200 by the offsets at 0x7100, one sample, output at 0x9000, mask at 0xA000. -/
def interactBytes : List Byte :=
  padTo 128 (bs [0x11, 0, 7, 0, 0xFF, 0, 2, 0] ++ bs [0, 0, 0, 0] ++ toLe 2 2 ++ toLe 2 4 ++ toLe 4 1 ++ toLe 4 0 ++ toLe 8 0x7200 ++ toLe 8 0x7100 ++ toLe 8 0x9000
    ++ toLe 4 16 ++ toLe 4 0 ++ toLe 8 0xA000)
theorem test_interactOk : interactOk interactBytes false = true := by decide +kernel
def interactD (stage : Stage) (w : Work) : Desc := { dd stage interactBytes w with slots := 2 }
def sample0 : Machine.Unit :=
  { uid := 20, op := 5, kind := .sample, no := 0, pitch := 0, opened := true,
    have_ := [(0x7100, (toLe 8 0 ++ toLe 8 16).map (·, false)), (0x7200, (toLe 4 0x3F800000 ++ toLe 4 0x40000000 ++ toLe 8 0).map (·, false)),
              (0x7210, (toLe 4 0x40400000 ++ toLe 4 0x3F800000 ++ toLe 8 0).map (·, false))] }
def interactOn (u : Machine.Unit) (arr : ArraySt) : State :=
  let s := unitsOn (interactD .running (.units { total := 1 })) [u]
  { s with b := s.b.setPitch 0 { arr := arr } }

/-- A decoder of one layer from 1 input to 1 output in BF16 (R135). -/
def decoder0 : List Byte := padTo 64 (bs [1, 0, 0, 0, 1] ++ toLe 11 0 ++ toLe 8 0x7C00)
def decodeD : Desc := latticeD .running (.units { latticeRun 0 with decoder := decoder0 })
def decoding : State :=
  let s := unitsOn decodeD [{ group0 0 with stage := .pass, next := 0, cells := [(0, [0x3F800000#32]), (1, [0#32])] }]
  { s with b := s.b.setPitch 0 { arr := { decoder := some 5, active := some (decoderKey 5, [0x40000000#32, 0x3F800000#32]), lastPass := 20160 } } }

/-- The unit that a pitch's array serves. -/
def passes (s : State) (u : Machine.Unit) (p : Blk → Bool) : Bool :=
  passUnit s.b 0 == some u && (s.b.desc? 5).isSome && p (idleRamp 0 s.b)

theorem meets_Array : (let s := withMem [] (st (run1 [arrayD .handed .none]))
     Live s ∧ handedOf s.b 1 [0x13] = some (arrayD .handed .none) ∧ (zeroMask 5 (runBody arrayBytes).mask (runBody arrayBytes).units s.b).2 = .ok) ∧
    (let s := withMem [] (st (run1 [interactD .handed .none]))
     handedOf s.b 1 [0x11] = some (interactD .handed .none) ∧ (zeroMask 5 0xA000 1 s.b).2 = .ok) ∧
    (let s := arrayOn [block0] {}
     passes { s with b := { s.b with clk := { s.b.clk with pitch := 20161 } } } block0 (fun b => !permitted b 0)) = true ∧
    passes (arrayOn [block0] {}) block0 (fun b => permitted b 0 && (activePanel (seatPanel 0 key0 b) 0 key0).isNone) = true ∧
    passes (arrayOn [block0] { shadow := some (key0, [4, 0xFFFFFFFF]) }) block0 (fun b => permitted b 0 && (activePanel (seatPanel 0 key0 b) 0 key0).isSome
      && block0.have_.all (fun h => !anyPoison h.2)) = true ∧
    passes (interactOn sample0 { shadow := some (key0, [0x3F800000, 0x40000000, 0, 0, 0x40400000, 0x3F800000, 0, 0]) }) sample0
      (fun b => permitted b 0 && (activePanel (seatPanel 0 key0 b) 0 key0).isSome && sample0.have_.all (fun h => !anyPoison h.2)) = true ∧
    passes decoding { group0 0 with stage := .pass, next := 0, cells := [(0, [0x3F800000#32]), (1, [0#32])] }
      (fun b => permitted b 0 && (decodeD.run == some { latticeRun 0 with decoder := decoder0 }) && (b.pitch 0).arr.decoder == some 5 && (activePanel b 0 (decoderKey 5)).isSome) = true ∧
    (let s := arrayOn [block0] { filling := some key0, fillAsked := 20000 }
     (s.b.pitch 0).arr.filling = some key0 ∧ unitOf s.b key0.unit = some (block0, arrayD .running (.units { total := 1 }))) ∧
    (let u := { block0 with stage := .combine, next := 1, acc := [5] }
     let s := arrayOn [u] {}
     let d := arrayD .running (.units { total := 1 })
     unitOf s.b 20 = some (u, d) ∧ s.b.isParked (.unit 20) = false ∧ (storeAll 0 20 (clsOf s.b 1) (unitOutput d { total := 1 } u) s.b).2 = .ok ∧
     let u := { u with stage := .write }
     let s := arrayOn [u] {}
     let b0 := flushUnit u s.b
     outputVisible b0 ((b0.unit? 20).getD u) = true ∧ unitMask d ≠ 0 ∧ (setMaskBit 0 5 20 (clsOf b0 1) (unitMask d) 0 b0).2 = .ok) ∧
    -- a pass whose panel is filled ahead; a decoder that another operator's panel has replaced, and its load
    (passes (arrayOn [block0] {}) block0 (fun b => (aheadPanel b 0 == some (key0, [4, 0xFFFFFFFF])) && ((b.pitch 0).arr.filling).isNone) = true ∧
     ((State.reset.b.pitch 0).arr.filling = none ∧ aheadPanel State.reset.b 0 = none)) ∧
    (let u := { group0 0 with stage := .pass, next := 0, cells := [(0, [0x3F800000#32]), (1, [0#32])] }
     let s : State := { decoding with b := (decoding.b.setPitch 0 { arr := { filling := some (decoderKey 5), fillAsked := 20000 } }) }
     passes s u (fun b => permitted b 0 && (b.pitch 0).arr.decoder != some 5) = true ∧
     s.b.units.find? (fun u => u.op = 5 && u.kind = .group && passReady s.b 0 u) = some u ∧
     (match (loadLayers u decodeD decoder0 decodeD.encWidth (byteAt decoder0 0) s.b).2.1 with
      | .ok _ => true
      | _ => false) = true) ∧
    unitMask (arrayD .running .none) = 0xA000 ∧ unitMask { arrayD .running .none with bytes := splice arrayBytes 72 (toLe 8 0) } = 0 := by
  refine ⟨⟨rfl, ?_⟩, ?_⟩
  all_goals decide +kernel

/-- R130, R133: units and their inputs. -/
theorem test_handOut : onNext (exec (.arrayRun 1) (withMem [] (st (run1 [arrayD .handed .none]))))
      (fun b => b.units.map (fun u => u.need) == [[(0x7000, 2), (0x7100, 1), (0x7101, 1)]]) = true ∧
    onNext (exec (.interact 1) (withMem [] (st (run1 [interactD .handed .none])))) (fun b => b.units.map (·.need) == [[(0x7100, 16)]]) = true := by
  decide +kernel

/-- R129: 2·4 + 3·(−1) = 5; R125: 1·3 + 2·1 = 5.0 in the lower triangle of the sample; a decoder's layer: 1·2 + 1 = 3.0. -/
theorem test_arrayPass : onNext (exec (.arrayPass 0) (arrayOn [block0] { shadow := some (key0, [4, 0xFFFFFFFF]) }))
      (fun b => b.units.map (fun u => (u.acc, u.stage)) == [([5], .combine)] && counter b Ctr.arPasses 0 == 1) = true ∧
    onNext (exec (.arrayPass 0) (interactOn sample0 { shadow := some (key0, [0x3F800000, 0x40000000, 0, 0, 0x40400000, 0x3F800000, 0, 0]) }))
      (fun b => b.units.map (fun u => u.acc.getD 2 0) == [0x40A00000]) = true ∧
    onNext (exec (.arrayPass 0) decoding) (fun b => b.units.map (fun u => (u.cells, u.stage)) == [([(0, [0x40400000]), (1, [0x3F800000])], .combine)]) = true := by
  decide +kernel

/-- R124: the panel's weights, and 160 bubbles. -/
theorem test_shadowFill : onNext (exec (.shadowFill 0) (arrayOn [block0] { filling := some key0, fillAsked := 20000 }))
    (fun b => (b.pitch 0).arr.shadow == some (key0, [4, 0xFFFFFFFF]) && counter b Ctr.arBubbles 0 == 160) = true := by decide +kernel

/-- R130. -/
theorem test_unitCommit : onNext (exec (.unitCommit 20) (arrayOn [{ block0 with stage := .combine, next := 1, acc := [5] }] {}))
      (fun b => b.gs.writes.map (fun w => (w.2.1, plain w.2.2.1)) == [(0x9000, [5, 0, 0, 0])]) = true ∧
    onNext (exec (.unitCommit 20) (arrayOn [{ block0 with stage := .write, next := 1, acc := [5] }] {}))
      (fun b => b.mem.byte 0xA000 == 1 && b.units.isEmpty && b.front.descs.map (fun d => (d.stage, d.statuses)) == [(.complete, [.ok])]) = true := by decide +kernel

/-! ### SCATTER -/

/-- The forward record: the LOOKUP of 2 bags, its opcode in place of R146. -/
def scatterBytes (mask : Nat) : List Byte := dbytes 0x20 0 (bs [0, mask, 0, 0] ++ toLe 4 16 ++ toLe 8 0x7800 ++ toLe 8 0x7200)
def scatterD (mask : Nat) (stage : Stage) (w : Work) : Desc :=
  { dd stage (scatterBytes mask) w with pre := { tabs := [cap0], lens := [1, 1] }, forward := lookupBytes }
def scatterRun : ScatterRun := { run := lookupRun, forward := lookupBytes, open_ := [0], msgs := 2, out := [(0, 1, 0, 2)] }
/-- Bag 0's unit, with its index and its gradient (1.0, 2.0, 0, 0). -/
def scat0 (ix : Nat) : Machine.Unit :=
  { uid := 20, op := 5, kind := .scatter, no := 0, pitch := 0, opened := true,
    have_ := [(0x7100, (toLe 4 ix).map (·, false)), (0x7200, (toLe 4 0x3F800000 ++ toLe 4 0x40000000 ++ toLe 8 0).map (·, false))] }
def scattering (mask : Nat) (us : List Machine.Unit) : State := unitsOn (scatterD mask .running (.scatter scatterRun)) us
/-- Bag 0's unit, with its mask word. -/
def masked (w : Nat) : Machine.Unit := { scat0 0 with opened := false, have_ := [(0xA000, (toLe 8 w).map (·, false))] }

def scatters (s : State) (u : Machine.Unit) (mask : Nat) (p : Desc → Blk → Bool) : Bool :=
  let d := scatterD mask .running (.scatter scatterRun)
  nextUnit s.b 0 3 (s.b.units.filter (scatterReady s.b 0)) == some u && s.b.desc? 5 == some d
    && d.scatter? == some scatterRun && p d s.b

theorem meets_Scatter : Live (st (run1 [scatterD 0 .handed .none])) ∧
    handedOf (st (run1 [scatterD 0 .handed .none])).b 1 [0x20] = some (scatterD 0 .handed .none) ∧
    (∀ w ∈ [0, 1], scatters (scattering 1 [masked w]) (masked w) 1 (fun d _ => useMask d && (match (masked w).input (maskWord d 0) 8 with
      | some x => !anyPoison x && maskBit x 0 == (w == 1)
      | none => false)) = true) ∧
    scatters (scattering 0 [scat0 64]) (scat0 64) 0 (fun d _ => !useMask d && d.unitOp == 0x10 && tabOfBag lookupRun 0 == cap0
      && (bagSpan d.forward lookupRun 0).2 == 1 && !poisonIn (scat0 64) 0x7100 4 && (bagIndex (scat0 64) cap0 0x7100).counter.isSome) = true ∧
    scatters (scattering 0 [scat0 63]) (scat0 63) 0 (fun d b => bagIndex (scat0 63) cap0 0x7100 == .valid 63 && mayOccur b 0 cap0
      && (homeFor (scat0 63) d cap0 63 b).2 == .away 0 0 && gradAddr d 0 == 0x7200 && gradBytes d == 4 && !poisonIn (scat0 63) 0x7200 16) = true ∧
    ([Fp.nan].map (toExact 0 1)).any Option.isNone = true ∧
    (let m : GradAckB := { status := 2, overrange := false, msgs := 2, tag := scatterTag 5 0, occFrozen := 1, chip := 1, die := 0 }
     let s := scattering 0 []
     let s : State := { s with b := { s.b with port := [rx1 (.gradAck m)] } }
     oldest s.b (fun r => match r.msg with
        | .gradAck _ => true
        | _ => false) = some (0, rx1 (.gradAck m)) ∧
     tagOwner (heard 1 (takeRx 0 (rx1 (.gradAck m)) s.b)) m.tag = some (scatterD 0 .running (.scatter scatterRun), scatterRun) ∧
     (settleOut (m.tag % 32) 1 0 2 scatterRun.out).2 ≠ 0) := by
  refine ⟨rfl, ?_⟩
  decide +kernel

/-- Group 0 of a forward LATTICE of one level: each point has four corners, and its gradient of one FP32 element at 0x7200. -/
def scatterLD : Desc :=
  { dd .running (scatterBytes 0) (.scatter { scatterRun with run := latticeRun 0, forward := latticeBytes }) with
    pre := latticeRun 0, forward := latticeBytes }
def scatL (x : Nat) : Machine.Unit :=
  { group0 x with kind := .scatter, opened := true, next := 4,
                  have_ := (group0 x).have_ ++ [(0x7200, (toLe 4 0x3F800000).map (·, false)), (0x7210, (toLe 4 0x40000000).map (·, false))] }

/-- The second point is dropped for its NaN; with x = 0.5 its first corner has its gradient. -/
theorem meets_ScatterPoints : ∀ x ∈ [0x7FC00000, 0x3F000000], let u := scatL x
    let s := unitsOn scatterLD [u]
    nextUnit s.b 0 3 (s.b.units.filter (scatterReady s.b 0)) = some u ∧ s.b.desc? 5 = some scatterLD ∧
    (match scatterLD.scatter? with
     | some r => useMask scatterLD == false && scatterLD.unitOp != 0x10 && !(r.run.tabs.any (·.bad)) && (r.run.levels.length == 1)
     | none => false) = true ∧
    (match u.input (coordAddr latticeBytes 1) 8 with
     | some l => !anyPoison l && ((coordsOf latticeBytes l).any (fun c => (rd32 c).isNan) == (x == 0x7FC00000))
     | none => false) = true ∧
    gradAddr scatterLD 1 = 0x7210 ∧ scatterLD.encWidth = 1 ∧ poisonIn u 0x7210 4 = false ∧ mayOccur s.b 0 capL = true ∧
    (homeFor u scatterLD capL 7 s.b).2 = .away 0 0 := by decide +kernel

/-- R145: the units' first input is the mask where USE_MASK is set; R143: 1.0 and 2.0 with ACC_EXP 0 are 1 and 2, a third of 2.0 rounds to 1;
R166, R168: the account is settled, what was frozen counts as dropped, and status 2 makes it MALFORMED. -/
theorem test_scatter : onNext (exec (.scatter 1) (withMem [] (st (run1 [scatterD 1 .handed .none])))) (fun b => b.units.map (·.need) == [[(0xA000, 8)], [(0xA000, 8)]]) = true ∧
    onNext (exec (.scatterOccurrence 0) (scattering 1 [masked 1])) (fun b => b.units.map (fun u => (u.opened, u.need)) == [(true, [(0x7100, 4), (0x7200, 16)])]) = true ∧
    onNext (exec (.scatterOccurrence 0) (scattering 0 [scat0 63, { scat0 63 with uid := 21, no := 1 }])) (fun b =>
      (b.pitch 0).comb.map (fun e => (e.row, e.elems, e.occ)) == [(63, [1, 2, 0, 0], 1)] && counter b Ctr.scOccurrences 1 == 1) = true ∧
    toExact 0 3 (rd32 0x40000000) = some (1, false) ∧ toExact (-1) 1 (rd32 0x3F800000) = some (2, false) ∧
    (let m : GradAckB := { status := 2, overrange := false, msgs := 2, tag := scatterTag 5 0, occFrozen := 1, chip := 1, die := 0 }
     let s := scattering 0 []
     onNext (exec .gradAck { s with b := { s.b with port := [rx1 (.gradAck m)] } })
       (fun b => b.front.descs.map (fun d => (d.stage, d.dropped, recordStatus d.applying)) == [(.complete, 1, .malformed)])) = true := by
  decide +kernel

/-! ### Contributions at their home -/

/-- Table 0 with an arena of 64 buckets at 3 MiB and a log of 4,096 bytes at 0x340000 (R64). -/
def homeTab : List Byte := tabOf (head0 0 4 16 64) [0, 0, 0, 0, 0, 0x300000, 6, 0x340000, 4096]
def capH : Captured := { table := 0, bytes := homeTab, slot := 0 }
def contrib0 : ContribB :=
  { ctx := 0, width := 0, sat := false, slot := 0, table := 0, chunk := 0, row := 63, tag := 160, occ := 1, srcChip := 1, srcDie := 0, srcPitch := 2, elems := [5, -6, 7, 8] }
def slice63 : Nat := ownerSlice State.reset.b 63
def smsg0 (usable : Bool) : SMsg := { mid := 3, b := contrib0, lrow := 63, usable := usable }
/-- The message is at its slice; the memory holds the table and this much more. -/
def placing (usable : Bool) (l : List (Nat × List Byte)) : State :=
  let s := withMem ((0x100000, homeTab) :: l) (st (fun b => { b with gs := { b.gs with nextMid := 4 } }))
  { s with b := s.b.setSlice slice63 { inbox := [smsg0 usable] } }
def clsH : Cls := { ctx := 0 }
/-- The 32 buckets that row 63 probes are row 0's. -/
def fullArena : List (Nat × List Byte) := (List.range 32).map (fun j => (0x300006 + 64 * (((mix64 63).toNat + j) % 64), bs [1]))
/-- A freeze map at 0x3000 whose bit 63 is set. -/
def frozenTab : List Byte := tabOf (head0 0 4 16 64) [0x3000, 0, 0, 0, 0, 0x300000, 6, 0x340000, 4096]
/-- Context 0's job is VISIT (R158). -/
def visit0 (s : State) : State := { s with b := s.b.setObj Obj.ctxAccumMode 0 }

def places (s : State) (t : Captured) (p : Blk → Bool) : Bool :=
  nextMsg s.b [] (s.b.slice slice63).inbox == some (smsg0 true)
    && (match readHome slice63 slice63 (.msg 3) clsH 0 s.b with
        | (b1, .ok t1) => t1 == t && t.rowBase 0 != 0 && p b1
        | (_, _) => false)
def isFree (t : Captured) (b : Blk) (p : Blk → Bool) : Bool := match freezeCheck slice63 (.msg 3) clsH t 63 b with
  | (b2, .free) => p b2
  | (_, _) => false

def logRec0 : LogRec :=
  { ctx := 0, table := 0, lrow := 63, chunk := 0, occ := 1, sat := false, elems := [5, -6, 7, 8], msg := some (smsg0 true), mode := 1, slice := slice63, base := 0x340000, bytes := 4096 }
def logging (used : Nat) : State := withMem [(0x340000 + 16, toLe 8 used)] (st (fun b => { b with gs := { b.gs with logq := [logRec0] } }))
def runEnt0 (since : Nat) : RunEnt := { ctx := 0, table := 0, lrow := 63, chunk := 0, elems := [1], occ := 1, sat := false, since := since, base := 0x340000, bytes := 4096 }
def gsAt (n : Nat) (s : State) : State := { s with b := { s.b with clk := { s.b.clk with gs := n } } }

theorem meets_Slices :
    (let s := withMem [(0x100000, homeTab)] (inPort (.contrib contrib0))
     Live s ∧ contribsInOrder s.b = [(0, rx (.contrib contrib0))] ∧ s.b.isParked (dispatchRef 0 0) = false ∧
     (readHome 64 0 (dispatchRef 0 0) { rt := false, stream := 0, ctx := 0 } 0 s.b).2 = .ok capH ∧ (homeOf capH 63).lrow = 63 ∧
     withholds s.b slice63 = false ∧ stepRunning s.b 0 0 = false ∧
     (readHome 64 0 (dispatchRef 0 0) { rt := false, stream := 0, ctx := 0 } 0 (withMem [] (inPort (.contrib contrib0))).b).2 = .bad) ∧
    capH.rowBase 3 = 0 ∧
    nextMsg (placing false []).b [] ((placing false []).b.slice slice63).inbox = some (smsg0 false) ∧
    places (placing true [(0x100000, frozenTab), (0x3007, bs [0x80])]) { capH with bytes := frozenTab }
      (fun b => (freezeCheck slice63 (.msg 3) clsH { capH with bytes := frozenTab } 63 b).2 == .frozen) = true ∧
    places (visit0 (placing true [])) capH (fun b => isFree capH b (fun b => isVisit b 0)) = true ∧
    places (placing true []) capH (fun b => isFree capH b (fun b => !isVisit b 0 && (match probeArena slice63 (.msg 3) clsH capH 63 32 0 b with
      | (b3, .bucket j _ k) => k == 1 && (match rd (.slice slice63) (.msg 3) clsH (bucketAddr capH j + 16) 48 b3 with
          | (b4, .ok d) => (exactValues d).all (fun o => !o.2)
              && (wrAll (.slice slice63) (.msg 3) clsH [(bucketAddr capH j, clean (bucketHeader 63 false 1)), (bucketAddr capH j + 16, clean (List.replicate 48 1))] b4).2 == .ok
          | (_, _) => false)
      | (_, _) => false))) = true ∧
    (nextLog (logging 0).b [logRec0] = some logRec0 ∧ (appendTo logRec0 clsH 65536 (logging 0).b).2 = .done) ∧
    (appendTo logRec0 clsH 65536 (logging 4000).b).2 = .full 0x340000 ∧
    (let s := gsAt 4096 (st (fun b => b.setSlice 63 { run := [runEnt0 0] })); (s.b.slice 63).run.any (fun e => e.since + 4096 ≤ s.b.clk.gs) = true) := by
  refine ⟨⟨rfl, ?_⟩, ?_⟩
  all_goals decide +kernel

/-- R156: the message goes to its owner slice. -/
theorem test_contrib : onNext (exec .contrib (withMem [(0x100000, homeTab)] (inPort (.contrib contrib0))))
    (fun b => b.port.isEmpty && (b.slice slice63).inbox.map (fun m => (m.lrow, m.usable)) == [(63, true)]) = true := by decide +kernel

/-- R161, R159: the bucket of the row holds the header and the four exact values of 12 bytes. -/
theorem test_contribPlace : let j := (mix64 63).toNat % 64
    onNext (exec (.contribPlace slice63) (placing true [])) (fun b => b.mem.bytes (0x300000 + 64 * j) 64 ==
      bs [63, 0, 0, 0, 0, 0, 1, 0, 1, 0, 0, 0, 0, 0, 0, 0] ++ toLe 12 5 ++ toLe 12 (2 ^ 96 - 6) ++ toLe 12 7 ++ toLe 12 8
      && (b.slice slice63).inbox.isEmpty && (b.slice slice63).acks.map (fun a => (a.msgs, a.status)) == [(1, 0)]) = true := by decide +kernel

/-- R157: a frozen row's message is dropped. -/
theorem test_contribPlace_other : onNext (exec (.contribPlace slice63) (placing true [(0x100000, frozenTab), (0x3007, bs [0x80])]))
      (fun b => counter b Ctr.gsDropFrozen 0 == 1 && (b.slice slice63).acks.map (fun a => (a.msgs, a.occFrozen)) == [(1, 1)]) = true := by decide +kernel

theorem meets_SlicesNone : places (placing true fullArena) capH (fun b => isFree capH b (fun b =>
    !isVisit b 0 && (probeArena slice63 (.msg 3) clsH capH 63 32 0 b).2 == .none 32)) = true := by decide +kernel

/-- R162: the record of 64 bytes stands after the block's header, whose USED rises; R163: a full log faults. -/
theorem test_overflowAppend : onNext (exec .overflowAppend (logging 0)) (fun b => b.mem.bytes 0x340040 12 == bs [63, 0, 0, 0, 0, 0, 0, 4, 1, 0, 0, 0]
      && b.mem.bytes 0x340010 8 == toLe 8 64 && b.gs.logq.isEmpty) = true ∧
    onNext (exec .overflowAppend (logging 4000)) (fun b => counter b Ctr.gsLogFull 0 == 1 && b.xlat.staging.map (·.cause) == [3] && b.gs.logq.length == 1) = true := by
  decide +kernel

/-- R164, R166: at 4,096 and 1,024 GS cycles, and not one before. -/
theorem test_sliceTimers : onNext (exec (.runBufferTimer 63) (gsAt 4096 (st (fun b => b.setSlice 63 { run := [runEnt0 0] })))) (fun b => b.gs.logq.length == 2) = true ∧
    onNext (exec (.runBufferTimer 63) (gsAt 4095 (st (fun b => b.setSlice 63 { run := [runEnt0 0] })))) (fun b => b.gs.logq.isEmpty) = true ∧
    (let a : AckAcc := { chip := 0, die := 0, pitch := 2, tag := 160, status := 0, ctx := 0, tables := [(0, 0)], msgs := 3, occFrozen := 0, since := 0 }
     onNext (exec (.ackTimer 63) (gsAt 1024 (st (fun b => b.setSlice 63 { acks := [a] })))) (fun b => b.port.length == 1 && (b.slice 63).acks.isEmpty) = true ∧
     onNext (exec (.ackTimer 63) (gsAt 1023 (st (fun b => b.setSlice 63 { acks := [a] })))) (fun b => b.port.isEmpty) = true) := by decide +kernel

/-! ### STEP and PRECOND -/

/-- STEP (R171) on table 0: barrier 2, generation 9, step 3, a sort area of 4,096 bytes at 0x90000, statistics to 0xA000. -/
def stepBody (loc : Nat) : List Byte := bs [0, 0, 2 + 128 * loc, 0] ++ toLe 4 9 ++ toLe 8 3 ++ toLe 8 0x90000 ++ toLe 8 4096 ++ toLe 8 0xA000
/-- One FP32 momentum tensor for each row (R64) at 0x280000, 16 bytes each; coefficients at 0x3100; an arena of 64 buckets at 3 MiB. -/
def stepTab (freeze : Nat) : List Byte := splice (tabOf (head0 0 4 16 64) [freeze, 0x3100, 0, 0x280000, 16, 0x300000, 6, 0, 0]) 20 [1]
def capS (freeze : Nat) : Captured := { table := 0, bytes := stepTab freeze, slot := 0 }
/-- R183: GSCALE 1, CLIP 0, A1 1, LR 0.5, GMIX 1, the others 0; MOMENTUM. -/
def coefS : List Byte :=
  padTo 128 (toLe 4 0x3F800000 ++ toLe 16 0 ++ toLe 4 0x3F800000 ++ toLe 12 0 ++ toLe 4 0x3F000000 ++ toLe 8 0 ++ toLe 4 0x3F800000 ++ toLe 12 0 ++ toLe 4 4)
def stepW (res : Option (Nat × Nat × List W64)) : BarWait := { barrier := 2, gen := 9, reduce := 1, count := 4, sentAt := none, own := none, result := res }
/-- Row 63: exact gradients 2, −4, 6 and 8 of one occurrence, in the bucket at 3 MiB. -/
def row63 : StepRow := { lrow := 63, x := [2, -4, 6, 8], sat := false, occ := 1, bucket := some 0x300000, frozen := false, poisoned := false }
def stepR (phase : StepPhase) (freeze : Nat) : StepRun := { cap := capS freeze, phase := phase, coef := coefS, overIn := false }
def stepD (loc : Nat) (r : StepRun) (w : Option BarWait) : Desc := dd .running (dbytes 0x22 0 (stepBody loc)) (.step r w)
def stepping (d : Desc) (l : List (Nat × List Byte)) : State := withMem l (st (run1 [d]))
def rowTwo : StepRun := { stepR .two 0 with prog := 2, scale := 0x3F800000#32, todo := [row63], rows := [row63], ran := true }
def bTwo : Blk := (stepping (stepD 0 rowTwo none) [(0x200000 + 16 * 63, (List.replicate 4 (toLe 4 0x3F800000)).flatten), (0x300000, bs [63, 0, 0, 0, 0, 0, 1])]).b

/-- The row's freeze check with this FREEZE_MAP, whose byte of row 63 is 0x80. -/
def checksRow (freeze : Nat) (p : Frz → Bool) : Bool :=
  let d := stepD 0 { stepR .one freeze with todo := [row63] } (some (stepW none))
  let b := (stepping d [(0x100000, stepTab freeze), (0x3007, bs [0x80])]).b
  let n := ownerSlice b 63
  b.desc? 5 == some d && !(b.isParked (.desc 5)) && (match freezeFields n (.desc 5) (clsOf b 1) (capS freeze) b with
    | (b1, .ok t) => p (freezeCheck n (.desc 5) (clsOf b 1) t 63 b1).2
    | (_, _) => false)

theorem meets_Step : let s := handed 0x22 (stepBody 0)
    Live s ∧ (handedOf s.b 1 [0x22]).isSome = true ∧
    (let d : Desc := { dd .handed (dbytes 0x22 0 (stepBody 1)) with statuses := [.malformed] }
     handedOf (st (run1 [d])).b 1 [0x22] = some d ∧ d.isLocal = true) ∧
    (let d : Desc := { dd .handed (dbytes 0x22 0 (stepBody 0)) with statuses := [.malformed] }
     handedOf (st (run1 [d])).b 1 [0x22] = some d ∧ d.isLocal = false ∧ stepInstanceOk d.bytes = true) ∧
    (let d := stepD 0 (stepR .one 0) (some (stepW none))
     let s := stepping d []
     s.b.desc? 5 = some d ∧ s.b.isParked (.desc 5) = false) ∧
    checksRow 0 (fun f => f == .free) = true ∧ checksRow 0x3000 (fun f => f == .frozen) = true ∧
    -- a message of the table is still to be placed; an earlier generation of the barrier is still out
    (let d := stepD 0 { stepR .ready1 0 with got := 3 } none
     let b := (stepping d []).b.setSlice slice63 { inbox := [smsg0 true] }
     b.desc? 5 = some d ∧ b.isParked (.desc 5) = false ∧ accumDrained (closeAccum 0 0 b) 0 0 = false) ∧
    (let d := stepD 0 { stepR .one 0 with begun := true } (some (stepW none))
     let e : Desc := { pegD none with id := 4, work := .peg { pegWait0 with gen := 8, sentAt := some 9 } }
     (withMem [] (st (run1 [e, d]))).b.desc? 5 = some d ∧ barrierHeld (withMem [] (st (run1 [e, d]))).b d (stepW none) = true) ∧
    (let d := stepD 0 { stepR .one 0 with begun := true } none
     (stepping d []).b.desc? 5 = some d) ∧
    (let d := stepD 0 (stepR .wait 0) none
     let e : Desc := { d with id := 4, work := .step { stepR .one 0 with begun := true } none }
     let b := (withMem [] (st (run1 [e, d]))).b
     b.desc? 5 = some d ∧ stepBlocked b d 0 = true) ∧
    (let d := stepD 0 (stepR .barrier 0) (some (stepW none))
     (stepping d []).b.desc? 5 = some d ∧ stepResult (stepR .barrier 0) (some (stepW none)) = none) ∧
    (let d := stepD 0 { stepR .one 0 with begun := true } (some (stepW none))
     (stepping d []).b.desc? 5 = some d ∧ barrierHeld (stepping d []).b d (stepW none) = false) ∧
    (∀ res ∈ [(0, 0, [three64, one64, one64, 0]), (0, 0, [three64, one64, one64, one64]), (2, 0, [])],
     let d := stepD 0 (stepR .barrier 0) (some (stepW (some res)))
     let s := stepping d []
     s.b.desc? 5 = some d ∧ d.stage ≠ .complete ∧ s.b.isParked (.desc 5) = false ∧ stepResult (stepR .barrier 0) (some (stepW (some res))) = some (res.1, res.2.2)) ∧
    ((rd64 0).lt (rd64 one64) = true ∧ (rd64 0).lt (rd64 0) = false) := by
  refine ⟨rfl, ?_⟩
  decide +kernel

theorem meets_StepRow : bTwo.desc? 5 = some (stepD 0 rowTwo none) ∧ rowTwo.pcBad = false ∧
    (let t := rowTwo.cap
     let c := clsOf bTwo 1
     let rq := Rq.slice (ownerSlice bTwo 63)
     match readItem 5 rq c (rowAddr t t.slot 63) t.rowBytes bTwo with
     | (b1, .ok rowD) => (match readItem 5 rq c (t.stateBase + 63 * t.stateStride) t.stateBytes b1 with
       | (b2, .ok stD) =>
         let u := rowUpdate rowTwo.fixed t.dim (rowTwo.grads row63) (meanSq t.accExp (rowTwo.rowSq row63) t.dim) (rowElems t rowD)
           (readState t rowTwo.fixed.c (plain stD))
         allFinite (u.1 ++ u.2.m ++ u.2.v ++ (if t.rowScalar then [u.2.vr] else [])) && (match findMarker rq (.desc 5) c t (globalRow b2 t 0 63) b2 with
           | (b3, .unmarked) =>
             let o := rowOut t (globalRow b2 t 0 63) 3 b3.stamp u.1
             !o.2 && (stateOut t u.2).length == 16 && (wrAll rq (.desc 5) c ((rowAddr t t.slot 63, clean (strideBytes t o.1))
               :: (t.stateBase + 63 * t.stateStride, clean (stateOut t u.2)) :: zeroBucket t row63) { b3 with stamp := b3.stamp + 1 }).2 == .ok
           | (_, _) => false)
       | (_, _) => false)
     | (_, _) => false) = true := by decide +kernel

/-- R185, R186: 1 − 0.5 · (2, −4, 6, 8) is (0, 3, −2, −3); the new momentum is the gradient; the bucket is emptied. -/
theorem test_stepRow : let b := stepAdvance 5 bTwo
    b.mem.bytes (0x200000 + 16 * 63) 16 = toLe 4 0 ++ toLe 4 0x40400000 ++ toLe 4 0xC0000000 ++ toLe 4 0xC0400000 ∧
    b.mem.bytes (0x280000 + 16 * 63) 4 = toLe 4 0x40000000 ∧ b.mem.bytes 0x300000 8 = toLe 8 0 ∧ counter b Ctr.upRowsUpdated 0 = 1 := by decide +kernel

/-- R179: the sum of squares of 2, −4, 6 and 8 is 120; R182: the die arrives with it, 1 row and 1 occurrence; an abort vote makes the STEP TABLE_BUSY. -/
theorem test_stepPhases :
    onNext (exec (.phaseOne 5) (stepping (stepD 0 { stepR .one 0 with todo := [row63] } (some (stepW none))) []))
      (fun b => b.front.descs.map (fun d => d.step?.map (fun r => (r.begun, r.s0, r.n, r.occ))) == [some (true, 0x405E000000000000#64, 1, 1)]) = true ∧
    onNext (exec (.phaseOneEnd 5) (stepping (stepD 0 { stepR .one 0 with begun := true, s0 := 0x405E000000000000#64, n := 1, occ := 1 } (some (stepW none))) []))
      (fun b => b.port.map (·.msg) == [.pegArrive { part := 0, barrier := 2, reduce := 1, count := 4, mismatch := false, abort := false, subtree := 1,
                                                    gen := 9, vals := [0x405E000000000000#64, one64, one64, 0#64], ctx := 1 }]) = true ∧
    onNext (exec (.phaseTwo 5) (stepping (stepD 0 (stepR .barrier 0) (some (stepW (some (0, 0, [three64, one64, one64, one64]))))) []))
      (fun b => b.front.descs.map (fun d => recordStatus d.statuses) == [.tableBusy] && counter b Ctr.upAborts 0 == 1) = true := by decide +kernel

/-- PRECOND (R193) on table 0 with a preconditioner of dimension 4 at 0x5000. -/
def pcTab : Captured := { table := 0, slot := 0, bytes := tabOf (head0 0 4 16 64) [0, 0x3100, 0x5000, 0, 0, 0, 0, 0, 0] }
def pcD : Desc := { dd .handed (dbytes 0x23 0 (bs [0, 0])) with pre := { tabs := [pcTab] } }
/-- C: 4 on the diagonal, or −1. -/
def diag4 (x : Nat) : List Byte := (List.range 16).flatMap (fun i => if i % 5 = 0 then toLe 4 x else toLe 4 0)
def pcState (x : Nat) (more : List Desc) : State := withMem [(0x3100, coefS), (0x5000, bs [4, 0]), (0x5040, diag4 x)] (st (run1 (pcD :: more)))
def stepOther : Desc := { stepD 0 (stepR .one 0) none with id := 6 }

def factors (s : State) (ok : Bool) : Bool :=
  let u := UnitRef.desc 5
  match rd (.pitch 0) u (clsOf s.b 1) 0x5000 64 s.b with
  | (b1, .ok h) => !anyPoison h && field (plain h) 0 2 == 4 && (match rdMeta (.pitch 0) u (clsOf s.b 1) 0x3100 128 b1 with
    | (b2, .ok l) => (match rd (.pitch 0) u (clsOf s.b 1) 0x5040 64 b2 with
      | (b3, .ok m) =>
        let cm := (pieces 4 m).map (fun x => BitVec.ofNat 32 (le (plain x)))
        !anyPoison m && (match factorise 4 cm (pivotFloor 4 cm) 5 1 (parseCoef (plain l)).lambda with
          | some (f, lam, k) => ok && (wrAll (.pitch 0) u (clsOf b3 1) [(0x5002, clean [1]), (0x5004, clean (toLe 4 lam.toNat)),
              (0x500C, clean [BitVec.ofNat 8 k]), (0x5080, clean (f32Bytes f))] b3).2 == .ok
          | none => !ok && (wrAll (.pitch 0) u (clsOf b3 1) [(0x5008, clean (toLe 4 1)), (0x500C, clean [5])] b3).2 == .ok)
      | (_, _) => false)
    | (_, _) => false)
  | (_, _) => false

theorem meets_Precond : handedOf (pcState 0x40800000 []).b 1 [0x23] = some pcD ∧ pcD.stepBusy = false ∧
    arrayYields (pcState 0x40800000 []).b 0 1 = false ∧
    -- the array has a pass of a real-time queue's block to run first
    (let b := (pcState 0x40800000 [{ arrayD .running (.units { total := 1 }) with id := 6, q := 2 }]).b
     arrayYields ({ b with units := [{ block0 with op := 6 }] }.setQ 2 { qd .running with cfg := 0x0100_0000_0200_0606#64 }) 0 1 = true) ∧
    factors (pcState 0x40800000 []) true = true ∧
    factors (pcState 0xBF800000 []) false = true := by decide +kernel

/-- R194: the factor of 4·I is 2·I, at the first attempt with λ 0; −I has none in five; R195. -/
theorem test_precond : onNext (exec (.precond 1) (pcState 0x40800000 [])) (fun b => b.mem.bytes 0x5080 64 == diag4 0x40000000
      && b.mem.bytes 0x5000 13 == bs [4, 0, 1, 0, 0, 0, 0, 0, 0, 0, 0, 0, 1] && b.front.descs.map (fun d => (recordStatus d.statuses, d.aux)) == [(.ok, 9)]) = true ∧
    onNext (exec (.precond 1) (pcState 0xBF800000 [])) (fun b => b.front.descs.map (fun d => (recordStatus d.statuses, d.aux)) == [(.singular, 5)]
      && b.mem.bytes 0x5008 5 == bs [1, 0, 0, 0, 5]) = true := by decide +kernel

/-! ### REFRESH -/

/-- Table 0 of group 3, with a directory of 64 buckets at 0x8000 (R78): REPLICA_BASE 0x380000, 16 replicas. -/
def refTab (group : Nat) : List Byte :=
  splice (splice (splice (tabOf (head0 0 4 16 64) [0, 0, 0, 0, 0, 0, 0, 0, 0]) 22 (toLe 2 group)) 64 (toLe 8 0x8000)) 72 [6]
def capR (group : Nat) : Captured := { table := 0, slot := 0, bytes := refTab group }
/-- The list's one row, or the marked rows, of table 0. -/
def refBody (mode : Nat) : List Byte := bs [0, 0, mode, 0] ++ toLe 4 1 ++ toLe 8 0xB000
def refD (mode group : Nat) (stage : Stage) (w : Work) : Desc := { dd stage (dbytes 0x24 0 (refBody mode)) w with pre := { tabs := [capR group] } }
/-- Row 63's bucket holds its VALID entry with index 2 (R79). -/
def bucket63 : Nat := 0x8080 + 16 * ((mix64 63).toNat % 64)
def refMem : List (Nat × List Byte) :=
  [(0x5000, toLe 2 0), (0x8000, toLe 8 0x380000 ++ toLe 4 16), (bucket63, toLe 8 (63 + 2 ^ 50) ++ toLe 4 2), (0xB000, toLe 8 63), (0x200000 + 16 * 63, toLe 4 0x40000000)]
def listRun : RefreshRun := { cap := capR 3, next := 0 }
def refB (r : RefreshRun) : Blk := (withMem refMem (st (run1 [refD 1 3 .running (.refresh r)]))).b

def refMsg : RefreshB := { ctx := 0, slot := 0, table := 0, tag := 77, row := 63, srcChip := 1, srcDie := 0, data := toLe 16 0x40A00000 }
/-- Segment 1 maps 2^40 on onto chip 5, which no route reaches. -/
def farSeg : Nat × List Byte := (96, toLe 32 (2 ^ 40 + 2 ^ 96 + 2 ^ 98 + 64 * 2 ^ 64 + 2 ^ 128 * (5 * 2 ^ 50)))
/-- The copy comes from another die of this chip: this die is a member. Or from chip 1 by a group without an entry. -/
def rxD : Rx := { rx (.refresh refMsg) with chip := 1, via := .d2d 1 }
def rxR : Rx := { rx (.refresh refMsg) with chip := 1, via := .ridge 0 }
/-- The replicas lie here, or on chip 5. -/
def refreshed (r : Rx) (here : Bool) : State :=
  let s := withMem ((0x100000, refTab 3) :: farSeg :: refMem) (st (fun b => { b with port := [r] }))
  if here then s else { s with b := img [(0x8000, toLe 8 (2 ^ 40))] s.b }
/-- A tree with one branch over the Ridge and rows to be acknowledged. -/
def agg0 (rows count : Nat) : RefreshAgg :=
  { chip := 1, die := 0, tag := 77, via := .d2d 1, rows := rows, acked := 0, since := 0, branches := [{ kind := 2, no := 0, count := count, failed := false }],
    failed := false, op := none, rt := false, stream := 0, part := 0 }
def acked (l : List RefreshAgg) : State :=
  st (fun b => { b with port := [{ rx (.refreshAck 77 5 false) with chip := 1, via := .ridge 0 }], ridge := { b.ridge with agg := l } })
def isRefresh (b : Blk) (r : Rx) : Bool := match r.msg with
  | .refresh m => !(b.isParked (refreshRef m)) && treeRoom b m.srcChip m.srcDie m.tag
  | _ => false
def isRefreshAck (r : Rx) : Bool := match r.msg with
  | .refreshAck .. => true
  | _ => false

theorem meets_Refresh :
    Live (st id) ∧
    (∀ mode ∈ [0, 1], ∀ group ∈ [3, 0xFFFF],
      let s := st (run1 [refD mode group .handed .none])
      handedOf s.b 1 [0x24] = some (refD mode group .handed .none) ∧ (refD mode group .handed .none).stepBusy = false) ∧
    (capR 3).shapeOk = true ∧
    (refreshItems (refD 1 3 .running .none) { listRun with next := 1 } ≤ 1 ∧
      (match refreshItem (refD 1 3 .running (.refresh listRun)) listRun 0 (refB listRun) with
      | (b1, .row row) => row == 63 && (refreshSend (refD 1 3 .running (.refresh listRun)) listRun row b1).2
      | (_, _) => false) = true) ∧
    (oldest (refreshed rxD true).b (isRefresh (refreshed rxD true).b) = some (0, rxD) ∧ isMemberHere (refreshed rxD true).b rxD = true ∧
      (ownRefresh (rxD.cls 0) refMsg (refreshed rxD true).b).2 = .done) ∧
    (let b := (refreshed rxD false).b
     oldest b (isRefresh b) = some (0, rxD) ∧ isMemberHere b rxD = true ∧ (ownRefresh (rxD.cls 0) refMsg b).2 = .failed) ∧
    (oldest (refreshed rxR true).b (isRefresh (refreshed rxR true).b) = some (0, rxR) ∧ isMemberHere (refreshed rxR true).b rxR = false) ∧
    (match readTable (.slice 0) (refreshRef refMsg) (rxD.cls 0) 0 (refreshed rxD true).b with
      | (b1, .ok l) => let t : Captured := { table := 0, bytes := plain l, slot := 0 }
        t.shapeOk && (match probeReplica (.slice 0) (refreshRef refMsg) (rxD.cls 0) t 0 63 b1 with
          | (b2, .hit e, va) => e == 2 && va == 0x380020 && (wr (.slice 0) (refreshRef refMsg) (rxD.cls 0) va (clean (strideBytes t refMsg.data)) b2).2 == .ok
          | (_, _, _) => false)
      | (_, _) => false) = true ∧
    (oldest (acked [agg0 9 0]).b isRefreshAck = some (0, { rx (.refreshAck 77 5 false) with chip := 1, via := .ridge 0 }) ∧
      ackedTree (acked [agg0 9 0]).b 77 (branchOf (.ridge 0)) = some (agg0 9 0) ∧ ackedTree (acked []).b 77 (branchOf (.ridge 0)) = none) := by
  refine ⟨rfl, ?_⟩
  decide +kernel

/-- R197: the replica's bytes are written; R319: the branch rises by 5, and is passed on 2,048 CK_CORE cycles after, not one before. -/
theorem test_refresh : onNext (exec .refresh (refreshed rxD true)) (fun b => b.mem.bytes 0x380020 4 == toLe 4 0x40A00000 && b.port.isEmpty
      && b.ridge.agg.map (fun a => (a.tag, a.rows, a.branches.map (·.count))) == [(77, 1, [1])]) = true ∧
    onNext (exec .refreshAck (acked [agg0 9 0])) (fun b => b.ridge.agg.map (fun a => (a.branches.map (·.count), a.since)) == [([5], 20160)]) = true ∧
    (∀ n ∈ [2047, 2048], let s := st (fun b => { b with ridge := { b.ridge with agg := [agg0 9 5] }, clk := { b.clk with core := n } })
      onNext (exec .refreshAckTimer s) (fun b => b.ridge.agg.map (·.acked) == [if n = 2048 then 5 else 0]) = true) := by decide +kernel

/-! ### TABLE_SWAP, COPY and BIAS_FLIP -/

/-- Table 0 with slot 1 at 4 MiB. -/
def swapTab : Captured := { table := 0, slot := 0, bytes := splice (tabOf (head0 0 4 16 64) [0, 0, 0, 0, 0, 0, 0, 0, 0]) 208 (toLe 8 0x400000) }
def swapD (v : Nat) (stage : Stage) (w : Work) : Desc := { dd stage (dbytes 0x28 0 (bs [0, 0, v])) w with pre := { tabs := [swapTab] } }
def swapping (v : Nat) (ret : List (Nat × Nat × Nat)) : State := withMem [] (st (fun b => { run1 [swapD v .handed .none] b with retiring := ret }))

/-- COPY (R253): 64 elements of 4 bytes from 0x10000 to 0x20000, by engine 2. -/
def copyBody (dst : Nat) : List Byte := bs [1, 2, 0, 2] ++ toLe 4 64 ++ toLe 4 1 ++ toLe 4 1 ++ toLe 4 1 ++ toLe 4 1 ++ toLe 8 0x10000 ++ toLe 8 dst ++ toLe 16 0
def copyR : CopyRun := { inbound := true, engine := 2, tiles := 1 }
def copyD (dst : Nat) (stage : Stage) (w : Work) : Desc := { dd stage (padTo 128 (bs [0x30, 0, 7, 0, 0xFF, 0, 2, 0] ++ copyBody dst)) w with slots := 2 }
def copying (dst : Nat) : State := withMem [farSeg, (0x10000, bs [1, 2, 3, 4])] (st (run1 [copyD dst .running (.copy copyR)]))
def copies (s : State) (dst : Nat) (ok : Bool) : Bool :=
  let d := copyD dst .running (.copy copyR)
  let pcs := copyPieces d.bytes 0
  s.b.desc? 5 == some d && !s.b.isParked (.desc 5) && (match rdParts (.copyIn 2) (.desc 5) (clsOf s.b 1) (pcs.1.flatMap (fun p => partsOf p.1 p.2)) s.b with
    | (b1, .ok l) => (match (wrAll (.copyIn 2) (.desc 5) (clsOf s.b 1) (dealOut pcs.2 (copyArrange d.bytes pcs l)) b1).2 with
      | .ok => ok
      | .fail _ => !ok
      | _ => false)
    | (_, _) => false)

/-- BIAS_FLIP of one granule at 2 MiB, to SHARED or to OWNED. -/
def biasBody (sh : Nat) : List Byte := bs [sh, 0, 0, 0] ++ toLe 4 1 ++ toLe 8 0x200000
def biasD (sh : Nat) (stage : Stage) (w : Work) : Desc := dd stage (dbytes 0x31 0 (biasBody sh)) w
def biasing (sh : Nat) : State := withMem [] (st (run1 [biasD sh .running (.bias {})]))
def flips (sh : Nat) (p : Blk → Bool) : Bool :=
  let s := biasing sh
  s.b.desc? 5 == some (biasD sh .running (.bias {})) && !s.b.isParked (.desc 5) && (match translate .front (.desc 5) (clsOf s.b 1) 0x200000 false false s.b with
    | (b1, .ok pa false _ _ _) => paChip pa == b1.ident.chip && paDie pa == b1.ident.die && paOff pa / 2 ^ 21 == 1 && p b1
    | (_, _) => false)

/-- ACTIVE as the swap reads it (R83), and what its write comes to. -/
def swaps (v : Nat) (act : Nat) (p : List PByte → Bool) (ok : Bool) : Bool :=
  let s := swapping v []
  let b := { s.b with mem := s.b.mem.write (0x100000 + 19) [(BitVec.ofNat 8 act, false)] }
  match rd .front (.desc 5) (clsOf b 1) (0x100000 + 19) 1 b with
  | (b1, .ok a) => p a && ((wr .front (.desc 5) (clsOf b 1) (0x100000 + 19) [(BitVec.ofNat 8 v, false)] b1).2 == .ok) == ok
  | (_, _) => false

theorem meets_Swap : Live (swapping 0 []) ∧ handedOf (swapping 0 []).b 1 [0x28] = some (swapD 0 .handed .none) ∧
    (ctxHdr (swapping 0 []).b 0).tableDir = 0x100000 ∧ (swapD 1 .handed .none).stepBusy = false ∧
    swaps 1 0 (fun a => !anyPoison a && byteAt (plain a) 0 % 4 == 0) true = true ∧
    swaps 1 1 (fun a => !anyPoison a && byteAt (plain a) 0 % 4 == 1) true = true ∧
    (swapTab.rowBase 2 = 0 ∧ swapTab.rowBase 1 ≠ 0) ∧ (swapping 1 [(0, 0, 1)]).b.retiring.contains (0, 0, 1) = true ∧
    (let s := swapping 1 []
     let b := { s.b with mem := s.b.mem.write (0x100000 + 19) [(0, true)] }
     match rd .front (.desc 5) (clsOf b 1) (0x100000 + 19) 1 b with
     | (_, .ok a) => anyPoison a
     | (_, _) => false) = true ∧
    (let s := st (run1 [swapD 1 .running (.swap swapTab 0)])
     s.b.desc? 5 = some (swapD 1 .running (.swap swapTab 0)) ∧ slotHeld s.b 5 0 0 0 = false ∧ slotAsked s.b 0 0 0 = false) ∧
    (let s := st (fun b => (run1 [swapD 1 .running (.swap swapTab 0)] b).setSlice 63 { inbox := [smsg0 true] })
     slotAsked s.b 0 0 0 = true) := by
  refine ⟨rfl, ?_⟩
  decide +kernel

theorem meets_CopyBias :
    handedOf (withMem [] (st (run1 [copyD 0x20000 .handed .none]))).b 1 [0x30] = some (copyD 0x20000 .handed .none) ∧
    copies (copying 0x20000) 0x20000 true = true ∧ copies (copying (2 ^ 40)) (2 ^ 40) false = true ∧
    -- a tile whose bytes are on their way
    (let d := copyD 0x20000 .running (.copy { copyR with writing := some 256 })
     let b := (withMem [] (st (run1 [d]))).b
     b.desc? 5 = some d ∧ b.writesDone (.desc 5) = true ∧
     { b with gs := { b.gs with writes := [(0, 0x20000, clean [1], .desc 5)] } }.writesDone (.desc 5) = false) ∧
    handedOf (st (run1 [biasD 1 .handed .none])).b 1 [0x31] = some (biasD 1 .handed .none) ∧
    flips 0 (fun b => b.host.owned.get false 1 == false && b.host.flipping.isNone && granLines b 1 == []) = true ∧
    flips 1 (fun b => b.host.owned.get false 1 == false) = true ∧
    (∀ l ∈ [[], [(0, 1, 0, true)]], let b := { State.reset.b with host := { State.reset.b.host with override := l } }
      (b.straps.lead && b.host.state == 2) = false ∧ b.host.override.length < 256) := by decide +kernel

/-- R83: ACTIVE is written, and the old slot retires; R84: nothing uses it any more, and the record carries its tag. -/
theorem test_swap : onNext (exec (.tableSwap 1) (swapping 1 [])) (fun b => b.mem.byte (0x100000 + 19) == 1 && b.retiring == [(0, 0, 0)]) = true ∧
    onNext (exec (.tableSwap 1) (swapping 1 [(0, 0, 1)])) (fun b => b.front.descs.map (fun d => recordStatus d.statuses) == [.tableBusy]) = true ∧
    onNext (exec (.slotRetired 5) (st (fun b => { run1 [swapD 1 .running (.swap swapTab 0)] b with retiring := [(0, 0, 0)] })))
      (fun b => b.retiring.isEmpty && b.front.descs.map (fun d => recordStatus d.statuses) == [.ok]) = true := by decide +kernel

/-- R255, R256: the tile's 256 bytes are copied and counted; R253: an explicit engine takes it. -/
theorem test_copy : onNext (exec (.copyTile 5) (copying 0x20000)) (fun b => b.mem.bytes 0x20000 4 == bs [1, 2, 3, 4]
      && b.front.descs.map (fun d => (recordStatus d.statuses, d.aux)) == [(.ok, 1)] && counter b Ctr.cpTiles 1 == 1) = true ∧
    onNext (exec (.copy 1) (withMem [] (st (run1 [copyD 0x20000 .handed .none])))) (fun b => b.front.descs.map (·.work) == [.copy copyR]) = true := by decide +kernel

/-- R248: a SHARED granule becomes OWNED, and one that is SHARED already is passed over. -/
theorem test_biasFlip : onNext (exec (.biasFlipGranule 5) (biasing 0)) (fun b => b.host.owned.get false 1 && b.front.descs.map (·.aux) == [1]) = true ∧
    onNext (exec (.biasFlipGranule 5) (biasing 1)) (fun b => !(b.host.owned.get false 1) && b.front.descs.map (·.aux) == [0]) = true := by decide +kernel

/-! ### Memory, translation and caches -/

/-- A unit of the LOOKUP waits for its index tile. -/
def tile0 : Machine.Unit := { bag0 0 with have_ := [], need := [(0x7100, 4)] }
def tiling : State := looking tile0 []
/-- A bag of 300 indices, of which the pitch's detector has seen three lines at stride 1, up to the line of 0x7100. -/
def ahead : State :=
  let s := withMem [] (st (fun b => { run1 [lookupD .running (.units { lookupRun with lens := [300, 1] })] b with units := [bag0 0], nextUid := 30 }))
  { s with b := s.b.setPitch 0 { det := [(0, { last := 226, stride := 1, seen := 3 })] } }
/-- A queue's fetch has seen three lines of its ring, in which 20 slots are to be fetched. -/
def ringAhead : State :=
  st (fun b => ((img ctxImg b).setObj Obj.descEn 1).setQ 1 { qd .running with fetch := 5, tail := 20, det := { last := 0x6100 / 128, stride := 1, seen := 3 } })
/-- Pitch 0 waits for the line of memory 0x1000. -/
def filling : State := st (fun b => b.setPitch 0 { b.pitch 0 with mdc := { (b.pitch 0).mdc with misses := [(b.selfPa 0x1000, 0, false)] } })
def hinted (dirty : Bool) : State :=
  st (fun b => { b with xlat := { b.xlat with hints := [{ addr := b.selfPa 0x2000, data := [(7, false)], dirty := dirty }] } })
/-- Two writes at the port: tag 3 overlaps tag 2 behind it. -/
def portWrites : State := st (fun b => { b with gs := { b.gs with writes := [(2, 0x2000, [(1, false), (2, false)], .log 0 0), (3, 0x2001, [(9, false)], .log 0 0)] } })

theorem meets_Tiles : Live tiling ∧
    (unitOf tiling.b 20 = some (tile0, lookupD .running (.units lookupRun)) ∧ tiling.b.isParked (.unit 20) = false ∧
      (rd (.pitch 0) (.unit 20) (clsOf tiling.b 1) 0x7100 4 tiling.b).2 = .ok (List.replicate 4 (0, false))) ∧
    ((filling.b.pitch 0).mdc.misses = [(filling.b.selfPa 0x1000, 0, false)] ∧
      (readPhys (.mdc 0) { ctx := 0 } (filling.b.selfPa 0x1000 % 2 ^ 63) 128 (decide (2 ^ 63 ≤ filling.b.selfPa 0x1000)) filling.b).2 = .ok (List.replicate 128 (0, false))) ∧
    (hinted true).b.xlat.hints.length = 1 ∧
    (let d := lookupD .running (.units { lookupRun with lens := [300, 1] })
     unitOf ahead.b 20 = some (bag0 0, d) ∧ 0 < prefetchDepth ahead.b ∧ ahead.b.isParked (.unit 20) = false ∧
     (unitAhead ahead.b (bag0 0) d (prefetchDepth ahead.b)).head? = some (0x7180, 128) ∧ d.streamAt 0x7180 = some (0, 0x7100, 1204)) ∧
    (ringAhead.b.obj Obj.descEn 0 ≠ 0 ∧ fetching ringAhead.b 1 = true ∧ (ringAhead.b.q 1).fetch < (ringAhead.b.q 1).tailSlots ∧
     ((ringAhead.b.q 1).det.next (prefetchDepth ringAhead.b)).head? = some (0x6180 / 128) ∧
     (match translate .front (.fetch 1) (clsOf ringAhead.b 1) 0x6180 false false ringAhead.b with
      | (b1, .ok pa host _ _ sh) => b1.xlat.desc.find (lineKey pa host) == none
          && (match (readPhys (.fetch 1) ((clsOf ringAhead.b 1).biased host sh) pa 128 host b1).2 with
              | .ok _ => true
              | _ => false)
      | (_, _) => false) = true) ∧
    (portWrites.b.gs.writes.find? (fun w => w.1 = 2) = some (2, 0x2000, [(1, false), (2, false)], .log 0 0) ∧
      writeBlocked portWrites.b.gs.writes (2, 0x2000, [(1, false), (2, false)], .log 0 0) = false ∧ 0x2000 + 2 ≤ portWrites.b.installed ∧ snoopLines portWrites.b 0x2000 2 = [] ∧ portWrites.b.xlat.parked = []) := by
  refine ⟨rfl, ⟨?_, ?_, ?_⟩, ⟨?_, ?_⟩, ?_, ⟨?_, ?_, ?_, ?_, ?_⟩, ⟨?_, ?_, ?_, ?_, ?_⟩, ⟨?_, ?_, ?_, ?_, ?_⟩⟩
  all_goals decide +kernel

/-- R221, R350: the tile joins the input, one sector is counted; R229: the line is installed; R403: a declined dirty hint is written, with its
record; R236: the lines ahead wait in the pitch's sack, or in the descriptor cache; R401: the older write makes its bytes visible, the younger overlapping one waits. -/
theorem test_tiles : onNext (exec (.tileCommit 20) tiling) (fun b => b.units.map (fun u => (u.need, u.have_.map (·.1))) == [([], [0x7100])]
      && counter b Ctr.pwPitchSectors 0 == 1) = true ∧
    onNext (exec (.mdcFill 0) filling) (fun b => (b.pitch 0).mdc.misses.isEmpty && ((b.pitch 0).mdc.find (b.selfPa 0x1000)).isSome) = true ∧
    onNext (exec .hintDecline (hinted true)) (fun b => b.mem.byte 0x2000 == 7 && b.err.staging.map (fun e => e.1.cause) == [0x10]) = true ∧
    onNext (exec .hintDecline (hinted false)) (fun b => b.mem.byte 0x2000 == 0 && counter b Ctr.mdHintDeclined 0 == 1) = true ∧
    onNext (exec (.prefetch (.unit 20)) ahead) (fun b => (b.pitch 0).ahead.head?.map (fun h => (h.1, h.2.1, h.2.2.length)) == some (5, 0x7180, 128)) = true ∧
    onNext (exec (.prefetch (.fetch 1)) ringAhead) (fun b => (b.xlat.desc.find (b.selfPa 0x6180)).isSome) = true ∧
    onNext (exec (.gsWdone 2) portWrites) (fun b => b.mem.bytes 0x2000 2 == bs [1, 2] && b.gs.writes.length == 1) = true ∧
    onNext (exec (.gsWdone 3) portWrites) (fun b => b.mem.byte 0x2001 == 0 && b.gs.writes.length == 2) = true := by decide +kernel

/-! ### Faults -/

def fault0 : FaultRec := { ctx := 0, cause := 2, access := 0, seg := 1, gran := 5, mask := 4, count := 1, first := 77, entered := 0 }
/-- A fault record is 16,384 CK_HALF cycles old, less `n`. -/
def faulted (n : Nat) : State :=
  withMem [] (st (fun b => { run1 [dd .held (dbytes 0x01 0 [])] b with xlat := { b.xlat with staging := [fault0] }, clk := { b.clk with half := 16384 - n } }))
/-- A COPY of queue 1 is parked at a virtual address. -/
def parkedAt (va : Nat) : Parked := { unit := .desc 5, ctx := 0, rq := .copyIn 2, va := va, len := 64, write := false, cause := 1 }
def parkedS (va : Nat) : State :=
  withMem [] (st (fun b => { run1 [copyD 0x20000 .running (.copy copyR)] b with xlat := { b.xlat with parked := [parkedAt va] } }))

theorem meets_Faults : Live (faulted 0) ∧ batchDue (faulted 0).b = true ∧
    (ctxHdr State.reset.b 0).ringOk = false ∧
    ((ctxHdr (faulted 0).b 0).ringOk = true ∧ ringRoom (faulted 0).b 0 = true ∧ (faulted 0).b.xlat.outstanding.length < 256) ∧
    (let b := { (faulted 0).b with xlat := { (faulted 0).b.xlat with written := [(0, 64)] } }
     (ctxHdr b 0).ringOk = true ∧ ringRoom b 0 = false) ∧
    ((faulted 0).b.ident.die < 4 ∧ hostReaches (faulted 0).b = true ∧ (faulted 0).b.xlat.staging.any (fun r => r.held && r.ctx = 63) = false) ∧
    ((0x000#64).toNat.testBit 8 = false ∧ (0x13F#64).toNat.testBit 8 = true ∧ bitsOf (0x13F#64).toNat 5 0 = 63) ∧
    ((parkedS 0x7000).b.isParked (.desc 5) = true ∧ (recheckParts (parkedAt 0x7000) { ctx := 0 } (partsOf 0x7000 64) (parkedS 0x7000).b).2 = .clear) ∧
    ((parkedS (2 ^ 45)).b.isParked (.desc 5) = true ∧ (match recheckParts (parkedAt (2 ^ 45)) { ctx := 0 } (partsOf (2 ^ 45) 64) (parkedS (2 ^ 45)).b with
      | (b1, .fault _ _ _) => abortable b1 (.desc 5)
      | (_, _) => false) = true) ∧
    -- the host holds the line of the context's header: the recheck waits for it
    (let s := parkedS 0x7000
     let b := { s.b with host := { s.b.host with filter := [0] } }
     (recheckParts (parkedAt 0x7000) { ctx := 0 } (partsOf 0x7000 64) b).2 = .wait ∧
     b.xlat.parked.any (fun q => q.unit = .desc 5 && q.va = 0x7000 && q.write = false) = true ∧ b.xlat.parked.filter (fun p => p.ctx = 0) = [parkedAt 0x7000]) ∧
    ((faulted 0).b.diePresent 1 = false ∧ (st twoDies).b.diePresent 1 = true) := by
  refine ⟨rfl, ?_⟩
  decide +kernel

/-- R215, R213: at 16,384 CK_HALF cycles the record is written, its context and die first, then the tail word; not one cycle before. -/
theorem test_faultBatch : onNext (exec .faultBatchTimer (faulted 0)) (fun b => b.mem.bytes 0x4000 8 == bs [0, 2, 0, 1, 5, 0, 0, 0] && b.xlat.staging.isEmpty
      && b.mem.bytes 0x3F00 4 == bs [1, 0, 0, 0] && b.xlat.outstanding.length == 1) = true ∧
    onNext (exec .faultBatchTimer (faulted 1)) (fun b => b.xlat.staging.length == 1) = true := by decide +kernel

/-- R218: the COPY goes on once its address translates; R219: ABORT ends one whose fault stands, with CANCELLED. -/
theorem test_resume : onNext (exec (.resume 0 0) (parkedS 0x7000)) (fun b => b.xlat.parked.isEmpty && counter b Ctr.ftResumes 0 == 1) = true ∧
    onNext (exec (.resume 0 0) (parkedS (2 ^ 45))) (fun b => b.xlat.parked.length == 1) = true ∧
    onNext (exec (.resumeAbort 0 0x100) (parkedS (2 ^ 45))) (fun b => b.xlat.parked.isEmpty && counter b Ctr.ftAborted 0 == 1
      && b.front.descs.map (fun d => recordStatus d.statuses) == [.cancelled]) = true ∧
    onNext (exec (.faultHeadWrite 0 0 63 7) (faulted 0)) (fun b => b.xlat.head == [(63, 7)]) = true := by decide +kernel

/-! ### Invalidations -/

def inval0 : Inval := { fn := 0, word := 0x0007000000000003#64, mine := [.port 4], waiting := [] }
def invalidating : State := st (fun b => { b with xlat := { b.xlat with invals := [inval0], ackAddr := [(0, 0x9001#64)] } })
/-- The fault unit holds the line of context 0's header. -/
def headLine (b : Blk) : Line := { addr := b.selfPa 0, data := List.replicate 128 (0, false), dirty := false, ctx := 0 }
def cached : State := withMem [] (st (fun b => { b with xlat := { b.xlat with fault := { b.xlat.fault with lines := [(0, headLine b)] } } }))

theorem meets_Invalidations : Live State.reset ∧ hostReaches State.reset.b = true ∧
    (∀ op ∈ [1, 2, 3, 4], bitsOf (BitVec.ofNat 64 op : W64).toNat 3 0 = op) ∧ ownsCtx State.reset.b 1 0 = false ∧
    State.reset.b.xlat.invals.length < 64 ∧ 64 ≤ (List.replicate 64 inval0).length ∧
    (invRuns cached.b 3).any (fun r => decide ((headLine cached.b).addr < cached.b.selfPa r.1 + r.2 ∧ cached.b.selfPa r.1 < (headLine cached.b).addr + 128)) = true ∧
    (invalidating.b.xlat.reports = [] ∧ inval0.waiting = [] ∧ finished invalidating.b inval0.mine = true) ∧
    ((Tbl.get 0 State.reset.b.xlat.ackAddr 0).toNat.testBit 0 = false ∧ (Tbl.get 0 invalidating.b.xlat.ackAddr 0).toNat.testBit 0 = true ∧
      (Tbl.get 0 invalidating.b.xlat.ackAddr 0).toNat.testBit 63 = false) ∧
    -- a report for die 1 that is complete here, and one that is not; whether die 1 can be reached
    (finished State.reset.b [] = true ∧
     finished { State.reset.b with gs := { State.reset.b.gs with writes := [(4, 0, [], .block)] } } [.port 4] = false ∧
     reachFail (st twoDies).b 0 0 1 = none ∧ reachFail State.reset.b 0 0 1 ≠ none) := by
  refine ⟨rfl, ?_⟩
  decide +kernel

/-- R226: the line is dropped; R242: the acknowledgement word is the TOKEN and the function's count; R241: a VF that does not own the context. -/
theorem test_invalidate : onNext (exec (.invalidateContext 0 3) cached) (fun b => b.xlat.fault.lines.isEmpty && b.xlat.invals.length == 1) = true ∧
    onNext (exec .invalidationDone invalidating) (fun b => b.mem.bytes 0x9000 8 == bs [7, 0, 1, 0, 0, 0, 0, 0] && b.xlat.invals.isEmpty) = true ∧
    onNext (exec (.invalidateContext 1 3) cached) (fun b => b.xlat.fault.lines.length == 1 && counter b Ctr.hsForeignWrites 0 == 1) = true := by decide +kernel

/-! ### The host -/

def snooped : State := st (fun b => { b with host := { b.host with snooping := [3], filter := [3, 5] } })

theorem meets_HostAccesses : Live State.reset ∧ hostReaches State.reset.b = true ∧
    (State.reset.b.host.held = [] ∧ (0 : Nat) / 2 ^ 41 % 4 = State.reset.b.ident.die ∧ snoopLines State.reset.b 0 4096 = [] ∧ 0 + 4096 ≤ State.reset.b.installed ∧
      State.reset.b.host.filter.length + (newLines State.reset.b
        { id := 1, peer := false, write := false, caching := true, off := 0, len := 4096, data := [] }).length ≤ filterRoom) ∧
    snooped.b.host.snooping.contains 3 = true ∧ State.reset.b.host.en = false ∧ bitsOf (0x4001000000200000#64).toNat 61 48 ≠ State.reset.b.ident.chip := by
  refine ⟨rfl, ?_⟩
  decide +kernel

/-- R243, R244: a read for caching enters its line; R244: the line comes back with its data; R251: another chip's base is not taken;
R252: a window that is not enabled reads as ones. -/
theorem test_hostMem : onNext (exec (.hostMemAccess false false true 64 64 []) State.reset) (fun b => b.host.filter == [1] && b.out.length == 1) = true ∧
    onNext (exec (.hostMemAccess false true false 64 0 (bs [5])) State.reset) (fun b => b.mem.byte 64 == 5) = true ∧
    onNext (exec (.bisnpResponse 3 (List.replicate 64 9)) snooped) (fun b => b.host.filter == [5] && b.host.snooping == [] && b.mem.byte 255 == 9) = true ∧
    onNext (exec (.bivouacBaseWrite 0x0001000000200000#64) State.reset) (fun b => b.host.base == 0) = true ∧
    onNext (exec (.bivouacBaseWrite 0x0000000000200000#64) State.reset) (fun b => b.host.base == 0x200000#64) = true ∧
    onNext (exec (.bivouacWindowAccess false 0 1 []) State.reset) (fun b => b.out == [.hostCpl [(0xFF, false)]]) = true := by decide +kernel

/-- Line 1 is the host's; an access runs past the installed memory; an access of die 1 with the link up, in training, or absent. -/
theorem meets_HdmCases : let b := State.reset.b
    let far : HdmAcc := { peer := false, write := false, caching := false, off := 2 ^ 41, len := 64, data := [] }
    snoopLines { b with host := { b.host with filter := [1] } } 64 64 ≠ [] ∧ b.installed < b.installed - 63 + 64 ∧
    snoopLines b (b.installed - 63) 64 = [] ∧ hdmDie far.off = 1 ∧ hdmDie far.off ≠ b.ident.die ∧
    (b.diePresent 1 = false ∧ (st twoDies).b.diePresent 1 = true ∧ (st twoDies).b.linkUp 1 = true ∧ ((st twoDies).b.link 1).state ≠ .training) ∧
    (let t := { (st twoDies).b with d2d := { links := [(1, { state := .training })] } }
     t.diePresent 1 = true ∧ (t.link 1).state = .training) := by decide +kernel
theorem meets_HdmFull : filterRoom < (List.replicate filterRoom 7).length + 1 := by simp

def lostHost (st_ : Nat) (active : Bool) (b : Blk) : Blk := { b with host := { b.host with state := st_, active := active } }
def aonAt (n : Nat) (b : Blk) : Blk := { b with clk := { b.clk with aon := n } }

theorem meets_HostLoss : Live State.reset ∧ (State.reset.b.straps.lead = true ∧ State.reset.b.host.active = true ∧ State.reset.b.host.state = 0) ∧
    (let b := aonAt 199999 (lostHost 1 false State.reset.b); b.host.state = 1 ∧ b.clk.aon < b.host.downAt + 200000) ∧
    (let b := aonAt 200000 (lostHost 1 false State.reset.b); b.host.state = 1 ∧ b.host.downAt + 200000 ≤ b.clk.aon) ∧
    (lostHost 2 true State.reset.b).host.state = 2 ∧ (lostHost 2 true State.reset.b).host.active = true ∧
    (match attachHost (lostHost 2 true State.reset.b) with
      | .ok _ => true
      | .error _ => false) = true ∧
    ((lostHost 2 false State.reset.b).host.state ≠ 1 ∧ (lostHost 2 false State.reset.b).host.active = false) := by
  refine ⟨rfl, ?_⟩
  decide +kernel

theorem meets_HostStateWritten (v : Nat) (h : v ∈ [0, 2]) : Written (sackOf (wreq Obj.hostState 1 1 v) State.reset.b) Obj.hostState 1 (wreq Obj.hostState 1 1 v) ∧
    (wreq Obj.hostState 1 1 v).value = v := by
  simp only [List.mem_cons, List.not_mem_nil, or_false] at h
  obtain rfl | rfl := h <;> exact ⟨isWritten_written _ _ _ _ (by decide +kernel), by decide +kernel⟩

/-- A held write that the host takes, and one that a switch refuses, of another die; a queue whose ring is in host memory (segment 1), and one whose ring is not. -/
theorem meets_HeldWrites : let w : HeldWrite := { no := 0, ctx := some 0, addr := 0x1000, data := clean [7], ask := some (rx (.fwdReport 7)) }
    hostRefuses State.reset.b w.addr w.data.length = false ∧
    hostRefuses { State.reset.b with host := { State.reset.b.host with refused := [(0x1000, 64)] } } w.addr w.data.length = true ∧
    (let s := withMem [(96, toLe 32 (2 ^ 40 + 2 ^ 96 + 2 ^ 97 + 2 ^ 98 + 64 * 2 ^ 64))] (st (fun b => b.setQ 1 { qd .running with ringBase := 2 ^ 40 }))
     (s.b.q 1).st ∈ [QState.stopped, .running, .stalledEarly] ∧ hostRings s.b 1 = true) ∧
    hostRings (withMem [] (st (fun b => b.setQ 1 (qd .running)))).b 1 = false ∧
    (let b := (lostHost 2 true State.reset.b).setQ 1 (qd .detached)
     b.host.state = 2 ∧ b.host.active = true ∧ (b.q 1).st = .detached ∧ b.inflight 1 = 0) := by decide +kernel

/-- R259: the link goes down, held from then on; R260, R261: at 199,999 CK_AON cycles it may retrain, at 200,000 the host is lost; R263. -/
theorem test_hostLoss : onNext (exec .hostLinkDown State.reset) (fun b => b.host.state == 1 && !b.host.active) = true ∧
    onNext (exec .linkRetrained (st (fun b => aonAt 199999 (lostHost 1 false b)))) (fun b => b.host.state == 0) = true ∧
    onNext (exec .linkRetrained (st (fun b => aonAt 200000 (lostHost 1 false b)))) (fun b => b.host.state == 1) = true ∧
    onNext (exec (.hostLost false 3) (st (fun b => aonAt 200000 (lostHost 1 false b)))) (fun b => b.host.state == 2 && counter b Ctr.hsWritesDiscarded 0 == 3) = true ∧
    onNext (exec .hostReattached (st (fun b => sackOf (wreq Obj.hostState 1 1 0) (lostHost 2 true b)))) (fun b => b.host.state == 0) = true := by decide +kernel

/-- VF 1 owns queue 8 and context 3, and was disabled by management firmware at CK_HALF 0. -/
def vf1 (l : List Desc) (n : Nat) : State :=
  st (fun b =>
    let b := ((b.setObj (Obj.fnQueueFirst + 1) 8).setObj (Obj.fnQueueCount + 1) 1).setObj (Obj.fnCtxMask + 1) 8
    { b with front := { b.front with queues := [(1, qd .running), (8, qd .draining)], descs := l, pegs := [(3 * 64, 5), (4 * 64, 6)] },
             host := { b.host with fns := [(1, { trigger := some (4, 0) })] }, clk := { b.clk with half := n } })
def copy8 : Desc := { copyD 0x20000 .running (.copy copyR) with q := 8, started := true }

theorem meets_Functions : Live State.reset ∧ hostReaches State.reset.b = true ∧
    (((vf1 [] 0).b.fn 1).trigger = some (4, 0) ∧ ((vf1 [] 0).b.fn 0).trigger = none) ∧
    (((vf1 [copy8] 180000).b.fn 1).drained = false ∧ ((vf1 [copy8] 180000).b.fn 1).graceOver = false ∧ 0 + 180000 ≤ (vf1 [copy8] 180000).b.clk.half) ∧
    ((vf1 [] 0).b.front.descs.any (fun d => (fnQueues (vf1 [] 0).b 1).contains d.q) = false ∧ owns (vf1 [] 0).b 1 8 = true ∧ owns (vf1 [] 0).b 1 1 = false) := by
  refine ⟨rfl, ?_⟩
  decide +kernel

/-- A function to drain whose queue another die serves; one that nothing disables any more; a queue with one descriptor: complete, unstarted, or a KINDLE. -/
theorem meets_FunctionCases : let a : Blk := { (vf1 [] 0).b with front := { (vf1 [] 0).b.front with queueDie := [(8, 1)] } }
    a.front.queueDie.any (fun e => (fnQueues a 1).contains e.1) = true ∧ ((vf1 [] 0).b.front.queueDie.any (fun e => (fnQueues a 1).contains e.1)) = false ∧
    (let b := { State.reset.b with host := { State.reset.b.host with vfEnable := true, fns := [(1, { trigger := some (1, 0), drained := true })] } }
     (b.fn 1).drained = true ∧ (b.fn 1).busMasterOff = false ∧ b.host.vfEnable = true ∧ b.obj (Obj.fnDisable + 1) 0 = 0) ∧
    (∀ d ∈ [{ nop5 with stage := .complete }, { nop5 with stage := .held }, dd .running (dbytes 0x05 0 []) (.kindle 9)], let b := (st (run1 [d])).b
      servedBy b 1 = b.ident.die ∧ b.descsOf 1 = [d] ∧ b.desc? 5 = some d) ∧
    ({ nop5 with stage := .held }.hasStarted = false ∧ (dd .running (dbytes 0x05 0 []) (.kindle 9)).hasStarted = true) ∧
    (∀ d ∈ [copy8, biasD 1 .running (.bias {}), refD 1 3 .running (.refresh listRun)], let b := (st (run1 [d])).b
      b.desc? d.id = some d ∧ d.stage ≠ .complete) ∧ tileStop copy8.opcode = true := by decide +kernel

theorem meets_FnDisableWritten (v : Nat) (h : v ∈ [0, 1]) : Written (sackOf (wreq (Obj.fnDisable + 63) 7 1 v) State.reset.b) Obj.fnDisable 64 (wreq (Obj.fnDisable + 63) 7 1 v) := by
  simp only [List.mem_cons, List.not_mem_nil, or_false] at h
  obtain rfl | rfl := h <;> exact isWritten_written _ _ _ _ (by decide +kernel)

/-- R265: a function that is disabled drains its queue; R266: at 180,000 CK_HALF cycles the COPY is ended, CANCELLED, not before; R267. -/
theorem test_functions : onNext (exec (.flr 1) (st (fun b => { (vf1 [] 0).b with host := b.host }))) (fun b => (b.q 8).st == .draining && (b.fn 1).trigger.map (·.1) == some 1) = true ∧
    onNext (exec (.graceExpiry 1) (vf1 [copy8] 180000)) (fun b => counter b Ctr.fnAborted 0 == 1 && b.front.descs.map (fun d => recordStatus d.statuses) == [.cancelled]) = true ∧
    onNext (exec (.graceExpiry 1) (vf1 [copy8] 179999)) (fun b => counter b Ctr.fnAborted 0 == 0 && b.front.descs.map (·.stage) == [.running]) = true ∧
    onNext (exec (.functionDrained 1) (vf1 [] 0)) (fun b => b.q 8 == {} && (b.q 1).st == .running && b.peg 3 0 == 0 && b.peg 4 0 == 6) = true := by decide +kernel

/-! ### The die-to-die link -/

/-- Die 1's link as this die has it. -/
def linkS (f : Link → Link) : State := st (fun b => let b := twoDies b; b.setLink 1 (f (b.link 1)))
def withLink (x : Link) (s : State) : State := { s with b := s.b.setLink 1 x }
def dataFlit (seq : Nat) : List Byte :=
  let e := encMsg (.fwdReport 7)
  d2dFlitBytes seq 0 4095 false 0 0 0 (d2dPktBytes 1 0 { ptype := e.1, vc := d2dVc e.1, body := e.2 })
def nakFlit (ack : Nat) : List Byte := d2dFlitBytes 0 1 ack true 0 0 15 []
/-- Two credits of channel 3 come back. -/
def idleFlit : List Byte := d2dFlitBytes 0 1 4095 false 3 2 15 []
def flit9 : FlitR := { seq := 9, first := 0, slots := [] }
def broken (l : List Byte) : List Byte := splice l 2 [0xAB]
def pumped (p : Nat) (bytes : List Byte) (b : Blk) : Blk :=
  let b0 := takeCredit p (field bytes 6 2) (takeCredit p (field bytes 4 2) (ackTo p (field bytes 2 2 % 4096) b))
  d2dPump p ((b0.link p).wait.length + 1) b0

theorem meets_D2dFlits : Live (linkS id) ∧ (dataFlit 0).length = 256 ∧ idleFlit.length = 256 ∧ State.reset.b.linkUp 1 = false ∧ (linkS id).b.linkUp 1 = true ∧
    field (broken (dataFlit 0)) 14 2 ≠ crc16 ((broken (dataFlit 0)).take 14) ∧
    (∀ l ∈ [dataFlit 0, dataFlit 1, idleFlit], field l 14 2 = crc16 (l.take 14) ∧ bitsOf (field l 0 2) 13 12 < 2 ∧ (field l 2 2).testBit 12 = false) ∧
    (bitsOf (field idleFlit 0 2) 13 12 = 1 ∧ (field idleFlit 4 2).testBit 3 = true) ∧
    (bitsOf (field (dataFlit 0) 0 2) 13 12 = 0 ∧ (pumped 1 (dataFlit 0) (linkS id).b).linkUp 1 = true ∧
      field (dataFlit 0) 0 2 % 4096 = ((pumped 1 (dataFlit 0) (linkS id).b).link 1).rxNext ∧
      field (dataFlit 1) 0 2 % 4096 ≠ ((pumped 1 (dataFlit 1) (linkS id).b).link 1).rxNext) := by
  refine ⟨rfl, ?_⟩
  decide +kernel

/-- An acknowledgement of the first of two flits in the replay buffer, and one of neither; slots that hold a whole packet, and slots that do not. -/
theorem meets_D2dParts : let l := [flit9, { flit9 with seq := 10 }]
    (((linkS (fun x => { x with replay := l })).b.link 1).replay = l ∧ (9 + 4096 - 9) % 4096 + 1 ≤ 2 ∧ 2 < (11 + 4096 - 9) % 4096 + 1) ∧
    ((0x0B : Nat).testBit 3 = true ∧ (0x03 : Nat).testBit 3 = false) ∧
    (match walkSlots true 0 0 (pieces 16 ((dataFlit 0).drop 16)) [] (0, 0) [] with
     | .ok _ _ ks => ks.length == 1
     | .bad _ _ => false) = true ∧
    (match walkSlots true 0 0 (pieces 16 ((splice (dataFlit 0) 40 [0x55]).drop 16)) [] (0, 0) [] with
     | .ok _ _ _ => false
     | .bad _ _ => true) = true := by decide +kernel

/-- R281: the flit in order delivers its packet; one out of order is counted and answered with a NAK; R280: two credits come back. -/
theorem test_d2dFlit : onNext (exec (.d2dFlit 1 (dataFlit 0)) (linkS id)) (fun b => b.port.map (fun r => (r.msg, r.die)) == [(.fwdReport 7, 1)] && (b.link 1).rxNext == 1) = true ∧
    onNext (exec (.d2dFlit 1 (dataFlit 1)) (linkS id)) (fun b => b.port.isEmpty && (b.link 1).rxNext == 0 && counter b Ctr.ddCrcErrors 1 == 1
      && b.out == [.d2dFlit 1 (d2dFlitBytes 0 1 4095 true 0 0 15 [])]) = true ∧
    onNext (exec (.d2dFlit 1 (broken (dataFlit 0))) (linkS id)) (fun b => b.port.isEmpty && counter b Ctr.ddNaks 1 == 1) = true ∧
    onNext (exec (.d2dFlit 1 idleFlit) (linkS id)) (fun b => (b.link 1).credits == [63, 63, 63, 65, 63, 63, 63, 63]) = true := by decide +kernel


theorem meets_EightNaks : (let l := (linkS (fun l => { l with nakSeq := 8, nakCount := 7 })).b.link 1
     l.nakSeq = 8 ∧ l.nakSeq ≠ 9 ∧ l.nakCount = 7 ∧ l.nakRetrained = false) ∧
    ((linkS (fun l => { l with nakSeq := 8, nakCount := 6 })).b.link 1).nakCount < 7 ∧
    ((linkS (fun l => { l with nakSeq := 8, nakCount := 7, nakRetrained := true })).b.link 1).nakRetrained = true ∧
    (((linkS (fun l => { l with replay := [flit9] })).b.link 1).replay = [flit9] ∧ (9 + 4096 - flit9.seq) % 4096 + 1 ≤ [flit9].length) ∧
    (Live (linkS id) ∧ (nakFlit 8).length = 256 ∧ (linkS id).b.linkUp 1 = true ∧ field (nakFlit 8) 14 2 = crc16 ((nakFlit 8).take 14) ∧
      bitsOf (field (nakFlit 8) 0 2) 13 12 = 1 ∧ (field (nakFlit 8) 2 2).testBit 12 = true) := by
  refine ⟨?_, ?_, ?_, ?_, rfl, ?_⟩
  all_goals decide +kernel

/-- R282: the eighth NAK of one ACK_SEQ retrains the link; the eighth after that retrain resets the link layer; the seventh does neither. -/
theorem test_eightNaks : onNext (exec (.d2dFlit 1 (nakFlit 8)) (linkS (fun l => { l with nakSeq := 8, nakCount := 7 })))
      (fun b => (b.link 1).state == .training && (b.link 1).keep && b.out == [.sideband 1 1#64]) = true ∧
    onNext (exec (.d2dFlit 1 (nakFlit 8)) (linkS (fun l => { l with nakSeq := 8, nakCount := 6 }))) (fun b => b.linkUp 1 && (b.link 1).nakCount == 7) = true ∧
    onNext (exec (.d2dFlit 1 (nakFlit 8)) (linkS (fun l => { l with nakSeq := 8, nakCount := 7, nakRetrained := true })))
      (fun b => (b.link 1).state == .training && !(b.link 1).keep && counter b Ctr.ddLinkResets 1 == 1) = true := by decide +kernel

/-- A link in its first attempt, at the whole vector, from CK_AON 0. -/
def attempt1 (l : Link) : Link := { l with state := .training, attempts := 1, vector := 0xFFFFFF, proposed := true, keep := false }
/-- A capability message of die 1 of this chip: REVISION 3.2.0. -/
def cap1 (minor : Nat) : CapB :=
  { major := 1, minor := minor, die := 1, lead := false, chip := 0, features := 0xFFFFFFFF, chipFeatures := 0xFFFFFFFF, credits := cppCredits, rxNext := 0,
    rxValid := false, revision := revision }
def capFlit : List Byte :=
  d2dFlitBytes 0 2 4095 false 0 0 15 (bs [1, 3, 1, 0] ++ toLe 2 0 ++ toLe 2 0 ++ toLe 4 0x3F ++ toLe 4 State.reset.b.features ++ cppCredits.flatMap (toLe 2)
    ++ toLe 2 0 ++ toLe 2 0 ++ toLe 4 revision)

theorem meets_D2dTrain : Live (linkS id) ∧ ((linkS id).b.link 1).state = .up ∧
    ((List.range 4).find? (fun q => ((linkS id).b.moduleMap q).testBit 11 && (linkS id).b.linkUp q) = some 1) ∧
    (let l := (linkS (fun l => { l with state := .training })).b.link 1; l.state = .training ∧ l.attempts = 0) ∧
    (let s := linkS attempt1
     attempting (s.b.link 1) = true ∧ (s.b.link 1).mine = none ∧ (s.b.link 1).theirs = none ∧ (s.b.link 1).attempts < 4 ∧
      (s.b.link 1).began + 20000 ≤ (aonAt 20000 s.b).clk.aon) ∧
    (let l := (linkS (fun l => { attempt1 l with mine := some 3, theirs := some 3 })).b.link 1; l.mine = some 3 ∧ l.theirs = some 3) ∧
    (let l := capFlit; l.length = 256 ∧ field l 14 2 = crc16 (l.take 14) ∧ bitsOf (field l 0 2) 13 12 = 2) ∧
    (∀ sent ∈ [true, false], ((linkS (fun l => { attempt1 l with capSent := sent })).b.link 1).capSent = sent) ∧
    (capCause (linkS id).b (cap1 3) = 0 ∧ capCause (linkS id).b (cap1 1) ≠ 0 ∧ ((linkS attempt1).b.link 1).keep = false) ∧
    ((linkS (fun l => { l with state := .down })).b.link 1).state = .down := by
  refine ⟨rfl, ?_⟩
  decide +kernel

/-- A link that was never up, to a die with modules or without; one that comes back with its state; a peer that has fewer features. -/
theorem meets_D2dStates :
    ((State.reset.b.link 1).state = .absent ∧ State.reset.b.moduleMap 1 = 0 ∧ 1 ≠ State.reset.b.ident.die ∧ ((st twoDies).b.moduleMap 1) ≠ 0) ∧
    (let l := (linkS (fun l => { attempt1 l with keep := true, txSeq := 11, replay := [{ flit9 with seq := 10 }] })).b.link 1
     l.keep = true ∧ (cap1 3).rxValid = false ∧ inReplay l.replay l.txSeq 10 = true ∧ inReplay l.replay l.txSeq 9 = false) ∧
    (let b := (linkS id).b
     let b1 (m : Nat) : Blk := { b with d2d := { b.d2d with features := b.d2d.features &&& m } }
     (b1 0xFFFFFFFF).features = b.features ∧ (b1 0).features ≠ b.features) ∧
    ((linkS (fun l => { attempt1 l with mine := some 1, theirs := some 2 })).b.link 1).theirs = some 2 ∧
    (linkS (fun l => { attempt1 l with mine := none })).b.link 1 = { attempt1 ((st twoDies).b.link 1) with mine := none } := by decide +kernel

theorem meets_D2dWritten : (∀ r, r = wreq (Obj.d2dRetrain + 1) 7 1 1 → Written (sackOf r (linkS id).b) Obj.d2dRetrain 4 r ∧ r.value = 1 ∧
      (sackOf r (linkS id).b).linkUp r.sub = true) ∧
    ∀ r, r = wreq (Obj.d2dLinkReset + 1) 7 1 1 → Written (sackOf r (linkS id).b) Obj.d2dLinkReset 4 r ∧ r.value = 1 ∧
      ((sackOf r (linkS id).b).link r.sub).state ≠ .absent := by
  constructor
  all_goals
    rintro r rfl
    exact ⟨isWritten_written _ _ _ _ (by decide +kernel), by decide +kernel, by decide +kernel⟩

/-- R285: equal vectors agree, and CAP goes out; unequal ones give the second attempt at their common halves; no RESULT 20,000 CK_AON cycles
after the attempt began counts as zero, and the link is held DOWN; R287: CAP brings the link UP with the peer's credits. -/
theorem test_d2dTrain : onNext (exec (.result 1 1 0xFFFFFF) (linkS (fun l => { attempt1 l with mine := some 0xFFFFFF }))) (fun b => (b.link 1).capSent) = true ∧
    onNext (exec (.result 1 1 0x0000FF) (linkS (fun l => { attempt1 l with mine := some 0xFFFF0F })))
      (fun b => (b.link 1).attempts == 2 && (b.link 1).vector == 0x00000F && !(b.link 1).capSent) = true ∧
    onNext (exec (.trainingTimeout 1) { linkS attempt1 with b := aonAt 20000 (linkS attempt1).b }) (fun b => (b.link 1).state == .down) = true ∧
    onNext (exec (.trainingTimeout 1) { linkS attempt1 with b := aonAt 19999 (linkS attempt1).b }) (fun b => (b.link 1).state == .training) = true ∧
    onNext (exec (.cap 1 capFlit) (linkS (fun l => { attempt1 l with capSent := true }))) (fun b => b.linkUp 1 && (b.link 1).credits == cppCredits && (b.link 1).proto == 3) = true ∧
    onNext (exec (.d2dHalfFail 11 true) (linkS id)) (fun b => (b.link 1).state == .training && b.d2d.bad.get false 23) = true := by decide +kernel

/-! ### Forwarded items and memory packets -/

/-- A packet from die 1 in the port sack; `lead` says that die 1 is the lead die, as its CAP told. -/
def rx9 (m : Msg) : Rx := { rx m with die := 1, via := .d2d 1 }
def fromDie1 (lead : Bool) (m : Msg) (f : Blk → Blk := id) : State :=
  let s := linkS (fun l => { l with peerLead := lead })
  { s with b := f { s.b with port := [rx9 m], front := { s.b.front with queueDie := [], queues := [(1, qd .running)] } } }
def fwd0 (kind off : Nat) (v : W64) : FwdB := { kind := kind, fn := 0, queue := 1, off := off, value := v }
def seg0 (id seg : Nat) (last : Bool) (n : Nat) : DictSegB := { msgId := id, seg := seg, last := last, data := List.replicate n 0 }
def isFwdW (r : Rx) : Bool := match r.msg with
  | .fwdWrite _ => true
  | _ => false
def isFwdR (r : Rx) : Bool := match r.msg with
  | .fwdRead _ => true
  | _ => false
def isFwdD (r : Rx) : Bool := match r.msg with
  | .fwdData _ => true
  | _ => false
def isFwdRep (r : Rx) : Bool := match r.msg with
  | .fwdReport _ => true
  | _ => false
def isDict (r : Rx) : Bool := match r.msg with
  | .dict _ => true
  | _ => false
def asmOf (l : List (Nat × Nat × Nat × List Byte)) (b : Blk) : Blk := { b with d2d := { b.d2d with asm := l.map (fun e => (e.1, (e.2.1, e.2.2.1, e.2.2.2))) } }

theorem meets_Forwarded : Live (fromDie1 true (.fwdReport 7)) ∧
    (∀ lead ∈ [true, false], oldest (fromDie1 lead (.fwdWrite (fwd0 3 8 1))).b isFwdW = some (0, rx9 (.fwdWrite (fwd0 3 8 1))) ∧
      fromLead (fromDie1 lead (.fwdWrite (fwd0 3 8 1))).b (rx9 (.fwdWrite (fwd0 3 8 1))) = lead) ∧
    oldest (fromDie1 true (.fwdRead (fwd0 3 8 0))).b isFwdR = some (0, rx9 (.fwdRead (fwd0 3 8 0))) ∧
    oldest (fromDie1 true (.fwdData (fwd0 3 8 5))).b isFwdD = some (0, rx9 (.fwdData (fwd0 3 8 5))) ∧
    oldest (fromDie1 true (.fwdReport 7)).b isFwdRep = some (0, rx9 (.fwdReport 7)) ∧
    (bitsOf inval0.word.toNat 63 48 = 7 ∧ 1 ∈ [1] ∧ (1 : Nat) ∉ inval0.waiting) ∧
    (∀ m ∈ [seg0 4 0 true 9, seg0 4 0 false 9], oldest (fromDie1 true (.dict m)).b isDict = some (0, rx9 (.dict m)) ∧ m.seg = 0 ∧ m.data.length ≤ 4097) ∧
    (∀ m ∈ [seg0 4 1 true 2, seg0 5 1 true 1, seg0 4 2 true 1], let s := fromDie1 true (.dict m) (asmOf [(1, 4, 1, List.replicate 9 0)])
      oldest s.b isDict = some (0, rx9 (.dict m)) ∧ m.seg ≠ 0 ∧ (takeRx 0 (rx9 (.dict m)) s.b).d2d.asm.find? (fun e => e.1 = 1) = some (1, (4, 1, List.replicate 9 0))) ∧
    (takeRx 0 (rx9 (.dict (seg0 4 1 true 1))) (fromDie1 true (.dict (seg0 4 1 true 1))).b).d2d.asm.find? (fun e => e.1 = 1) = none ∧
    (let b := { sackOf (req 1 0x7000 0 []) State.reset.b with mg := { (sackOf (req 1 0x7000 0 []) State.reset.b).mg with fwd := some (0, 3, 1) } }
     b.mg.fwd = some (0, 3, 1) ∧ b.mg.sack.head? = some (req 1 0x7000 0 []) ∧ 0 ≤ b.clk.mgmt) := by
  refine ⟨rfl, ?_, ?_, ?_, ?_, ?_, ?_, ?_, ?_, ?_⟩
  all_goals decide +kernel

/-- A QCFG waits for the state of queue 1 on die 1, which tells that it is stopped, or running; a queue that die 1 serves has been unbound. -/
theorem meets_StateTold :
    (let b := (linkS (fun l => l)).b
     let b1 := { b with d2d := { b.d2d with moves := [(1, 0, 1, 5)] } }
     b1.d2d.moves.find? (fun m => m.1 = 1 && m.2.2.1 = 1) = some (1, 0, 1, 5) ∧ (1#64).toNat % 16 ∈ [0, 1, 6] ∧ (2#64).toNat % 16 ∉ [0, 1, 6] ∧
     b.d2d.moves.find? (fun m => m.1 = 1 && m.2.2.1 = 1) = none ∧ servedBy b 1 = 1) ∧
    (∀ m ∈ [seg0 4 1 true 2], m.last = true) ∧ (seg0 4 1 false 2).last = false ∧
    (fwd0 3 8 1).kind ∈ [1, 2, 3] ∧ (fwd0 4 8 1).kind ∉ [1, 2, 3] := by decide +kernel

theorem meets_DictLong : 4097 < (List.replicate 9 (0 : Byte) ++ (seg0 4 1 true 4089).data).length ∧
    (List.replicate 9 (0 : Byte) ++ (seg0 4 1 true 4088).data).length ≤ 4097 := by
  simp only [seg0, List.length_append, List.length_replicate]; omega

/-- R277: the lead die's write enables the window, another die's does nothing; R227: the report is taken from the invalidation of its token. -/
theorem test_forwarded : onNext (exec .fwdWrite (fromDie1 true (.fwdWrite (fwd0 3 8 1)))) (fun b => b.host.en && b.port.isEmpty) = true ∧
    onNext (exec .fwdWrite (fromDie1 false (.fwdWrite (fwd0 3 8 1)))) (fun b => !b.host.en && b.port.isEmpty) = true ∧
    onNext (exec .fwdData (fromDie1 true (.fwdData (fwd0 3 8 5)))) (fun b => b.out.contains (.regData 5)) = true ∧
    onNext (exec .fwdReport (fromDie1 true (.fwdReport 7) (fun b => { b with xlat := { b.xlat with invals := [{ inval0 with waiting := [1, 2], mine := [] }] } })))
      (fun b => b.xlat.invals.map (·.waiting) == [[2]]) = true ∧
    onNext (exec .dict (fromDie1 true (.dict (seg0 4 0 false 9)))) (fun b => b.d2d.asm == [(1, (4, 1, List.replicate 9 0))]) = true ∧
    onNext (exec .dict (fromDie1 true (.dict (seg0 4 2 true 9)) (asmOf [(1, 4, 1, List.replicate 9 0)]))) (fun b => b.d2d.asm.isEmpty) = true := by decide +kernel

def mem0 (host : Bool) (data : List Byte) : MemB := { addr := 0x1000, bytes := 4, tag := 11, host := host, poison := false, data := data }
def isMem (k : Nat) (r : Rx) : Bool := match r.msg with
  | .memRead _ => k == 0
  | .memWrite _ => k == 1
  | .memData _ => k == 2
  | .memDone _ => k == 3
  | _ => false
def rread0 : RRead := { unit := .desc 5, tag := 11, addr := 0x1000, host := false, n := 4, chip := 0, die := 1 }
def rwrite0 : RWrite := { unit := .desc 5, tag := 11, chip := 0, die := 1 }
def hostState (n : Nat) (b : Blk) : Blk := { b with host := { b.host with state := n } }
def remote (b : Blk) : Blk := { b with xlat := { b.xlat with rreads := [rread0], rwrites := [rwrite0] } }

theorem meets_MemPackets : Live (fromDie1 false (.memRead (mem0 false []))) ∧
    (∀ host ∈ [true, false], ∀ n ∈ [0, 1], let s := fromDie1 false (.memRead (mem0 host [])) (hostState n)
      s.b.port.findIdx? (isMem 0) = some 0 ∧ mustWait s.b none (paOff 0x1000) 4 = none ∧ s.b.host.state = n) ∧
    (∀ host ∈ [true, false], ∀ n ∈ [0, 1], let m := mem0 host (bs [1, 2, 3, 4]); let s := fromDie1 false (.memWrite m) (hostState n)
      s.b.port.findIdx? (isMem 1) = some 0 ∧ mustWait s.b none (paOff m.addr) m.bytes = none) ∧
    (let s := fromDie1 false (.memData (mem0 false (bs [1, 2, 3, 4]))) remote
     s.b.port.findIdx? (isMem 2) = some 0 ∧ s.b.d2d.proxies = [] ∧ s.b.xlat.rreads.all (fun q => match q.unit with
      | .hostAcc _ => false
      | _ => true) = true) ∧
    (fromDie1 false (.memDone (mem0 false [])) remote).b.d2d.proxies = [] := by
  refine ⟨rfl, ?_⟩
  decide +kernel

/-- The host holds a line of the memory asked for; what answers this die's own request, an access of the host, or one that it passed on: whole, or in part. -/
theorem meets_MemCases : let m := mem0 false (bs [1, 2, 3, 4])
    let b := (fromDie1 false (.memData m)).b
    let x (n : Nat) : Proxy := { tag := 11, die := 1, orig := { h := {ptype := 0, vc := 0, len := 0, dst := 0, src := 0}, body := [] }, left := n }
    (mustWait { b with host := { b.host with filter := [64] } } none (paOff 0x1000) 4).isSome = true ∧
    (∀ n ∈ [4, 5], { b with d2d := { b.d2d with proxies := [x n] } }.d2d.proxies.find? (fun x => x.tag = m.tag && (rx9 (.memData m)).via = Via.d2d x.die) = some (x n)) ∧
    (x 4).left ≤ m.bytes ∧ m.bytes < (x 5).left ∧ b.host.state = 0 ∧ hostRefuses b m.addr m.bytes = false ∧
    hostRefuses { b with host := { b.host with refused := [(0x1000, 64)] } } m.addr m.bytes = true ∧ (hostState 2 b).host.state = 2 := by decide +kernel

theorem meets_MemPacketsOldest : oldest (fromDie1 false (.memRead (mem0 true []))).b (fun r => match r.msg with
        | .memRead _ => true
        | _ => false) = some (0, rx9 (.memRead (mem0 true []))) ∧
    oldest (fromDie1 false (.memWrite (mem0 true (bs [1, 2, 3, 4])))).b (fun r => match r.msg with
        | .memWrite _ => true
        | _ => false) = some (0, rx9 (.memWrite (mem0 true (bs [1, 2, 3, 4])))) ∧
    oldest (fromDie1 false (.memData (mem0 false (bs [1, 2, 3, 4]))) remote).b (fun r => match r.msg with
        | .memData _ => true
        | _ => false) = some (0, rx9 (.memData (mem0 false (bs [1, 2, 3, 4])))) ∧
    oldest (fromDie1 false (.memDone (mem0 false [])) remote).b (fun r => match r.msg with
        | .memDone _ => true
        | _ => false) = some (0, rx9 (.memDone (mem0 false []))) := by decide +kernel

/-- R276: memory of the die and of the host takes what is written; while the link is down the write is held; data join their read. -/
theorem test_memPackets : onNext (exec .memWrite (fromDie1 false (.memWrite (mem0 false (bs [1, 2, 3, 4]))))) (fun b => b.mem.bytes 0x1000 4 == bs [1, 2, 3, 4] && b.out.length == 2) = true ∧
    onNext (exec .memWrite (fromDie1 false (.memWrite (mem0 true (bs [1, 2, 3, 4]))))) (fun b => b.hostMem.bytes 0x1000 4 == bs [1, 2, 3, 4] && b.mem.byte 0x1000 == 0) = true ∧
    onNext (exec .memWrite (fromDie1 false (.memWrite (mem0 true (bs [1, 2, 3, 4]))) (hostState 1))) (fun b => b.hostMem.byte 0x1000 == 0 && b.host.heldWrites.length == 1) = true ∧
    onNext (exec .memData (fromDie1 false (.memData (mem0 false (bs [1, 2, 3, 4]))) remote)) (fun b => b.xlat.rreads.map (fun q => plain q.got) == [bs [1, 2, 3, 4]]) = true ∧
    onNext (exec .memDone (fromDie1 false (.memDone (mem0 false [])) remote)) (fun b => b.xlat.rwrites.isEmpty) = true := by decide +kernel

/-! ### The Ridge -/

/-- Sub-port `sp` of the block. -/
def portS (sp : Nat) (x : SubPort) (f : Blk → Blk := id) : State := st (fun b => f (b.setPort sp x))
def upPort : SubPort := { state := .up, halves := 3, credits := List.replicate 12 100, revision := 3, chip := 1, rxValid := true }
/-- ECHO from chip 1 to a chip (R315). -/
def echoPkt (dst hops : Nat) : RPkt := { h := { ptype := 0x38, vc := 5, len := (pad16 (encMsg (.echo 5)).2).length / 16, dst := dst, src := 1, hops := hops }, body := (encMsg (.echo 5)).2 }
def ridgeDataFlit : List Byte := ridgeFlitBytes 0 0 4095 false 0 0 0 0 (encHdr (echoPkt 0 3).h ++ pad16 (echoPkt 0 3).body)
/-- Two credits of REQ, SUB 0, come back. -/
def ridgeIdleFlit : List Byte := ridgeFlitBytes 0 1 4095 false 0 0 2 15 []
/-- Packets wait for routing; chip 1's entry names sub-port 0, and chip 2's names none. -/
def routing (k : RPkt) (x : SubPort) : State :=
  portS 0 x (fun b => { b with ridge := { b.ridge with txq := [k], route := [(1, 0), (2, 127)] } })
def drops (s : State) (c : Nat) : Bool := pickRoute s.b s.b.ridge.txq == some (0, .drop c)

theorem test_echoType : encMsg (.echo 5) = (0x38, padTo 16 [5]) := by decide +kernel

theorem meets_RidgePackets : Live (portS 0 upPort) ∧ ridgeDataFlit.length = 256 ∧ ridgeIdleFlit.length = 256 ∧
    (State.reset.b.port_ 0).state ≠ .up ∧ ((portS 0 upPort).b.port_ 0).state = .up ∧
    field (broken ridgeDataFlit) 252 4 ≠ crc32 ((broken ridgeDataFlit).take 252) ∧
    (∀ l ∈ [ridgeDataFlit, ridgeIdleFlit], field l 252 4 = crc32 (l.take 252) ∧ bitsOf (field l 0 2) 13 12 < 2 ∧ (field l 2 2).testBit 12 = false) ∧
    (bitsOf (field ridgeIdleFlit 0 2) 13 12 = 1 ∧ bitsOf (field ridgeDataFlit 0 2) 13 12 = 0 ∧ field ridgeDataFlit 0 2 % 4096 = upPort.rxNext) ∧
    pickRoute State.reset.b State.reset.b.ridge.txq = none ∧
    (drops (routing (echoPkt 1 64) upPort) 1 = true ∧ drops (routing (echoPkt 2 0) upPort) 0 = true ∧ drops (routing (echoPkt 1 0) { upPort with state := .down }) 3 = true) ∧
    (let s := routing (echoPkt 0 0) upPort
     pickRoute s.b s.b.ridge.txq = some (0, .deliver) ∧ decMsg (echoPkt 0 0).h.ptype (echoPkt 0 0).body = some (.echo 5)) ∧
    (let s := routing (echoPkt 1 63) upPort; pickRoute s.b s.b.ridge.txq = some (0, .send 0 true)) ∧
    ((echoPkt 1 64).port = none ∧ (echoPkt 1 64).h.dst % 16384 ≠ State.reset.b.ident.chip ∧ State.reset.b.obj Obj.hopLimit 64 ≤ 64 ∧ 63 < State.reset.b.obj Obj.hopLimit 64) ∧
    (entryPorts 127 = [] ∧ entryPorts 0 = [0]) ∧
    (let k : RPkt := { h := { ptype := 0x10, vc := 0, len := 0, dst := 0, src := 1, part := 7 }, body := [], via := .ridge 0 }
     k.via ≠ .local ∧ partRefuses State.reset.b k.h (.echo 5) = true) ∧
    partRefuses State.reset.b (echoPkt 0 0).h (.echo 5) = false := by
  refine ⟨rfl, ?_⟩
  decide +kernel

/-- A NAK of a good flit; the slots of a packet; a credit word with its valid bit and one without. -/
theorem meets_RidgeParts : let l := ridgeFlitBytes 0 1 4095 true 0 0 0 15 []
    (l.length = 256 ∧ field l 252 4 = crc32 (l.take 252) ∧ bitsOf (field l 0 2) 13 12 = 1 ∧ (field l 2 2).testBit 12 = true) ∧
    (match walkSlots false 0 0 (pieces 16 ((ridgeDataFlit.drop 12).take 240)) [] (0, 0) [] with
     | .ok _ _ ks => ks.length == 1
     | .bad _ _ => false) = true ∧
    Nat.testBit 0x10 4 = true ∧ Nat.testBit 0x0F 4 = false ∧ ((upPort.nakSeq, upPort.nakCount) = (4096, 0)) := by decide +kernel

/-- R300, R315: the flit in order delivers the ECHO of chip 1; a marked one is answered with NAK; R308: at HOP_LIMIT the packet is dropped;
one hop below, it leaves on its port with 64 hops. -/
theorem test_ridge : onNext (exec (.ridgeFlit 0 ridgeDataFlit false) (portS 0 upPort)) (fun b => b.port.map (fun r => (r.msg, r.chip)) == [(.echo 5, 1)]
      && (b.port_ 0).rxNext == 1) = true ∧
    onNext (exec (.ridgeFlit 0 ridgeDataFlit true) (portS 0 upPort)) (fun b => b.port.isEmpty && counter b Ctr.rgFecUncorrectable 0 == 1
      && b.out.length == 1 && (b.port_ 0).nakOut) = true ∧
    onNext (exec (.ridgeFlit 0 ridgeIdleFlit false) (portS 0 upPort)) (fun b => (b.port_ 0).credits.take 2 == [102, 100]) = true ∧
    onNext (exec .packetRoute (routing (echoPkt 1 64) upPort)) (fun b => b.out.isEmpty && counter b Ctr.rgUnreachSent 0 == 1) = true ∧
    onNext (exec .packetRoute (routing (echoPkt 1 63) upPort)) (fun b => b.ridge.txq.isEmpty && (b.port_ 0).inFlight.map (fun e => e.2.h.hops) == [64]
      && counter b Ctr.rgFlitsTx 0 == 1) = true := by decide +kernel

/-! ### Reachability -/

def fromChip1 (m : Msg) : State := st (fun b => { b with port := [rx1 m] })
def unreach0 (cause : Nat) : Msg := .unreach (echoPkt 1 0).h cause (List.replicate 32 0)
/-- Chip 1 is watched since CK_AON 0; a read is out to it, or nothing. -/
def watching (e : Reach) (out : Bool) : State :=
  st (fun b => { run1 [nop5] b with
    ridge := { b.ridge with reach := [(1, e)] }, clk := { b.clk with aon := 100000 },
    xlat := { b.xlat with rreads := if out then [{ rread0 with chip := 1, die := 0 }] else [] } })
def declared1 : State := st (fun b => { b with ridge := { b.ridge with declared := [(1, 0)] }, clk := { b.clk with aon := 100000 } })

theorem meets_SilentChips : Live declared1 ∧
    (∀ c ∈ [4, 0], oldest (fromChip1 (unreach0 c)).b (fun r => match r.msg with
        | .unreach .. => true
        | _ => false) = some (0, rx1 (unreach0 c))) ∧
    oldest (fromChip1 (.echo 5)).b (fun r => match r.msg with
        | .echo _ => true
        | _ => false) = some (0, rx1 (.echo 5)) ∧
    oldest (fromChip1 (.echoReply 5)).b (fun r => match r.msg with
        | .echoReply _ => true
        | _ => false) = some (0, rx1 (.echoReply 5)) ∧
    (∀ out ∈ [true, false], let s := watching { last := 0 } out
      s.b.ridge.reach.find? (fun e => e.1 = 1) = some (1, { last := 0 }) ∧ 0 + s.b.obj Obj.reachIdle 100000 ≤ s.b.clk.aon ∧ awaited s.b 1 = out) ∧
    (∀ out ∈ [true, false], let s := watching { last := 0, echoAt := some 0 } out
      s.b.ridge.reach.find? (fun e => e.1 = 1) = some (1, { last := 0, echoAt := some 0 }) ∧ 0 + s.b.obj Obj.reachWait 100000 ≤ s.b.clk.aon ∧ awaited s.b 1 = out) ∧
    (declared1.b.ridge.declared.find? (fun e => e.1 = 1) = some (1, 0) ∧ 0 + declared1.b.obj Obj.reachWait 100000 ≤ declared1.b.clk.aon) := by
  refine ⟨rfl, ?_⟩
  decide +kernel

/-- R314, R316: UNREACH declares its chip, but for DIE_DOWN; R315: ECHO goes out where something is awaited, and one from which nothing is leaves. -/
theorem test_reach : onNext (exec .unreach (fromChip1 (unreach0 0))) (fun b => b.ridge.declared.map (·.1) == [1]) = true ∧
    onNext (exec .unreach (fromChip1 (unreach0 4))) (fun b => b.ridge.declared.isEmpty) = true ∧
    onNext (exec (.reachIdleExpiry 1) (watching { last := 0 } true)) (fun b => b.ridge.txq.map (fun k => (k.h.ptype, k.h.dst)) == [(0x38, 1)]) = true ∧
    onNext (exec (.reachIdleExpiry 1) (watching { last := 1 } true)) (fun b => b.ridge.txq.isEmpty && b.ridge.reach.length == 1) = true ∧
    onNext (exec (.reachIdleExpiry 1) (watching { last := 0 } false)) (fun b => b.ridge.reach.isEmpty) = true ∧
    onNext (exec (.reachWaitExpiry 1) (watching { last := 0, echoAt := some 0 } true)) (fun b => b.ridge.declared.map (·.1) == [1]) = true ∧
    onNext (exec (.declaredEcho 1) declared1) (fun b => b.ridge.txq.length == 1 && b.ridge.declared == [(1, 100000)]) = true := by decide +kernel

/-! ### Ports -/

def peerNeg (f : NegB → NegB) : NegB :=
  f { revision := 3, maxRate := 0, fec := 0, split := false, halves := 3, subport := 5, chip := 1, die := 0, credits := List.replicate 12 300, rxNext := 0, rxValid := false }
def trainPort (step : NegStep) (e : Option NegB) : SubPort := { state := .training, step := step, early := e }
/-- NEG of sub-port 0 of chip 1 (R297): revision 3, every lane half. -/
def negFlit : List Byte :=
  ridgeFlitBytes 0 2 4095 false 0 0 0 15 (bs [3, 0, 3, 5] ++ toLe 2 1 ++ toLe 2 0 ++ (List.replicate 12 (toLe 2 300)).flatten ++ toLe 2 0)

theorem meets_RidgePorts : Live (portS 63 (trainPort .lock none)) ∧ ((portS 63 (trainPort .lock none)).b.port_ 63).step = .lock ∧
    (negFlit.length = 256 ∧ field negFlit 252 4 = crc32 (negFlit.take 252) ∧ bitsOf (field negFlit 0 2) 13 12 = 2 ∧ parseNeg negFlit = peerNeg id) ∧
    (∀ e ∈ [NegStep.lock, .ability, .train, .last], let x := (portS 63 (trainPort e none)).b.port_ 63; x.state = .training ∧ x.step = e ∧ x.early = none ∧ x.rate < 2) ∧
    (trainPort .train (some (peerNeg id))).early = some (peerNeg id) ∧ 2 ≤ ({ trainPort .train none with rate := 2 } : SubPort).rate ∧
    (0 = 2 * (7 / 8) + (if portSplit State.reset.b (7 / 8) ∧ 4 ≤ 7 % 8 then 1 else 0)) ∧
    (let b := State.reset.b.setObj (Obj.portCfg + 31) 3; 63 = 2 * (255 / 8) + (if portSplit b (255 / 8) ∧ 4 ≤ 255 % 8 then 1 else 0)) ∧
    abilityCause State.reset.b 0 (peerNeg id) = 0 ∧ abilityCause State.reset.b 0 (peerNeg (fun n => { n with halves := 0 })) ≠ 0 ∧
    (∀ i ∈ List.range 12, ridgeLargest.getD (i / 2) 0 ≤ (peerNeg id).credits.getD i 0) ∧ (trainPort .last none).retraining = false := by
  refine ⟨rfl, ?_⟩
  decide +kernel

/-- A port that comes back with its state, whose partner has what is in replay, or has not; a partner with too few credits. -/
theorem meets_PortBack : let x : SubPort := { trainPort .last none with retraining := true, txSeq := 5, replay := [{ flit9 with seq := 4 }] }
    let b := (portS 0 x).b
    (b.port_ 0).retraining = true ∧ inReplay (b.port_ 0).replay (b.port_ 0).txSeq 4 = true ∧ inReplay (b.port_ 0).replay (b.port_ 0).txSeq 3 = false ∧
    (peerNeg id).rxValid = false ∧ (peerNeg (fun n => { n with credits := [] })).credits.getD 11 0 < ridgeLargest.getD (11 / 2) 0 := by decide +kernel

theorem meets_PortWritten : (∀ r, r = wreq Obj.portRetrain 7 1 1 → ∀ x ∈ [upPort, { upPort with state := .down }],
      Written (sackOf r (portS 0 x).b) Obj.portRetrain 64 r ∧ r.value = 1 ∧ r.sub = 0) ∧
    ∀ r, r = wreq (Obj.resetPort + 63) 7 1 1 → Written (sackOf r (portS 63 upPort).b) Obj.resetPort 64 r ∧ r.value = 1 ∧ r.sub = 63 := by
  constructor
  · rintro r rfl x hx
    simp only [List.mem_cons, List.not_mem_nil, or_false] at hx
    obtain rfl | rfl := hx <;> exact ⟨isWritten_written _ _ _ _ (by decide +kernel), by decide +kernel, by decide +kernel⟩
  · rintro r rfl
    exact ⟨isWritten_written _ _ _ _ (by decide +kernel), by decide +kernel, by decide +kernel⟩

/-- R297: the partner's message settles the mode; no lane half in common holds the port DOWN; training that fails goes on at the next rate, the
last to DOWN; the partner's credits bring it UP; R298: a failed half retrains it. -/
theorem test_ridgePorts : onNext (exec (.neg 0 negFlit) (portS 0 (trainPort .ability none))) (fun b => (b.port_ 0).step == .train && (b.port_ 0).width8
      && (b.port_ 0).rate == 0 && (b.port_ 0).revision == 3) = true ∧
    onNext (exec (.neg 0 negFlit) (portS 0 { trainPort .ability none with badLo := true, badHi := true })) (fun b => (b.port_ 0).state == .down && (b.port_ 0).cause == 1) = true ∧
    onNext (exec (.portTrainingEnd 0 false) (portS 0 { trainPort .train none with rate := 1 })) (fun b => (b.port_ 0).rate == 2 && (b.port_ 0).state == .training) = true ∧
    onNext (exec (.portTrainingEnd 0 false) (portS 0 { trainPort .train none with rate := 2 })) (fun b => (b.port_ 0).state == .down) = true ∧
    onNext (exec (.neg 0 negFlit) (portS 0 (trainPort .last none))) (fun b => (b.port_ 0).state == .up && (b.port_ 0).credits == List.replicate 12 300) = true ∧
    onNext (exec (.laneFail 7) (portS 0 upPort)) (fun b => (b.port_ 0).state == .training && (b.port_ 0).badHi && !(b.port_ 0).badLo && (b.port_ 0).retraining) = true := by
  decide +kernel

/-! ### Tables -/

def rload (key ty n v : Nat) : Req := wreq key ty n v
def slotS (n : Nat) (x : PartSlot) (rwc : List (Nat × Nat)) : State :=
  st (fun b => { b with ridge := { b.ridge with slots := [(n, x)] }, mg := { b.mg with rwc := rwc } })

theorem meets_RidgeTables : Live State.reset ∧ State.reset.b.ridge.loading = none ∧
    (loadable State.reset.b 0 65536 = true ∧ loadable State.reset.b (2 ^ 40) 65536 = false ∧ loadable State.reset.b 0 2176 = true ∧ loadable State.reset.b (2 ^ 40) 2176 = false) ∧
    (partMoves State.reset.b 15 = [] ∧ slotQuiet State.reset.b 15 = true ∧ State.reset.b.mg.rwc.find? (fun e => e.1 = Obj.partId + 15) = none) ∧
    (let s := slotS 15 { loaded := some [1] } []
     partMoves s.b 15 = [] ∧ slotQuiet s.b 15 = true ∧ (Tbl.get {} s.b.ridge.slots 15).loaded = some [1]) ∧
    (let s := slotS 15 {} [(Obj.partId + 15, 7)]
     partMoves s.b 15 = [] ∧ slotQuiet s.b 15 = true ∧ s.b.mg.rwc.find? (fun e => e.1 = Obj.partId + 15) = some (Obj.partId + 15, 7)) ∧
    (let b : Blk := { (remote State.reset.b) with front := (run1 [dd .running (dbytes 0x30 0 [])] State.reset.b).front,
                                                  xlat := { State.reset.b.xlat with rreads := [{ rread0 with chip := 1 }] } }
     let b := b.setObj Obj.ctxPart 15
     slotQuiet b 15 = false ∧ partMoves b 15 = []) := by
  refine ⟨rfl, ?_⟩
  decide +kernel

theorem meets_TablesWritten : (∀ v ∈ [0, 2 ^ 40], let r := wreq Obj.routeLoad 4 8 v; Written (sackOf r State.reset.b) Obj.routeLoad 1 r ∧ r.value = v) ∧
    (∀ v ∈ [0, 2 ^ 40], let r := wreq Obj.mcastLoad 4 8 v; Written (sackOf r State.reset.b) Obj.mcastLoad 1 r ∧ r.value = v) ∧
    (∀ v ∈ [0, 2 ^ 40], let r := wreq (Obj.partLoad + 15) 4 8 v; Written (sackOf r State.reset.b) Obj.partLoad 16 r ∧ r.value = v) := by
  refine ⟨?_, ?_, ?_⟩
  all_goals
    intro v hv
    simp only [List.mem_cons, List.not_mem_nil, or_false] at hv
    obtain rfl | rfl := hv <;> exact ⟨isWritten_written _ _ _ _ (by decide +kernel), by decide +kernel⟩

/-- R307: a load begins, and an offset past the memory is RANGE; R311: the record is put in force at the quiescent point. -/
theorem test_tables : onNext (exec .routeLoad (st (sackOf (wreq Obj.routeLoad 4 8 0)))) (fun b => b.ridge.loading == some 0) = true ∧
    onNext (exec .routeLoad (st (sackOf (wreq Obj.routeLoad 4 8 (2 ^ 40))))) (fun b => b.ridge.loading == none && b.mg.sack.isEmpty) = true ∧
    onNext (exec (.partitionCommit 15) (slotS 15 { loaded := some [1] } [])) (fun b => Tbl.get {} b.ridge.slots 15 == { record := [1] }) = true ∧
    onNext (exec (.partitionCommit 15) (slotS 15 {} [(Obj.partId + 15, 7)])) (fun b => b.obj (Obj.partId + 15) 0xFFFF == 7 && b.mg.rwc.isEmpty) = true := by decide +kernel

/-! ### Reset -/

def phaseS (f : Power → Power) (core aon mgmt : Nat) : State :=
  st (fun b => { b with pw := f b.pw, clk := { b.clk with core := core, aon := aon, mgmt := mgmt } })
def topStraps : Straps := { State.reset.b.straps with i3cAddr := 127, pitchLimit := 3 }
def topIdent : Ident := { State.reset.b.ident with chip := 16383, die := 3, serial := 2 ^ 64 - 1, licensee := 2 ^ 32 - 1 }

theorem meets_Resets : strapsOk topStraps topIdent = true ∧ (phaseS (fun p => { p with phase := .cold }) 0 0 0).b.pw.phase = .cold ∧
    (phaseS (fun p => { p with phase := .lock }) 0 0 0).b.pw.phase = .lock ∧
    (let s := phaseS (fun p => { p with phase := .dividers }) 32 0 0; s.b.pw.phase = .dividers ∧ 32 ≤ s.b.clk.core) ∧
    (let s := phaseS (fun p => { p with phase := .initialise }) 20160 0 0; s.b.pw.phase = .initialise ∧ 20160 ≤ s.b.clk.core) ∧
    (phaseS (fun p => { p with phase := .warm, warmByPin := true }) 0 0 0).b.pw.warmByPin = true ∧
    (let s := phaseS (fun p => { p with phase := .warm, warmByPin := false, since := 0 }) 0 64 0; s.b.pw.warmByPin = false ∧ s.b.pw.since + 64 ≤ s.b.clk.aon) ∧
    (State.reset.b.pw.phase = .ready ∧ State.reset.b.pw.warmAt = none) ∧
    (let s := phaseS (fun p => { p with warmAt := some 0 }) 0 0 1024; s.b.pw.warmAt = some 0 ∧ 0 + 1024 ≤ s.b.clk.mgmt) ∧
    (let s := phaseS (fun p => { p with warmAt := some 0 }) 0 0 1023; s.b.clk.mgmt < 0 + 1024) := by decide +kernel

theorem meets_ResetWarmWritten : ∀ r, r = wreq Obj.resetWarm 7 1 1 → Written (sackOf r State.reset.b) Obj.resetWarm 1 r ∧ r.value = 1 := by
  rintro r rfl
  exact ⟨isWritten_written _ _ _ _ (by decide +kernel), by decide +kernel⟩

/-- R335: reset ends 32 CK_CORE cycles after the first edge and READY rises at 20,160, not one before; R337: 1,024 CK_MGMT cycles after RESET_WARM the
warm reset begins, and one that the pin did not begin restarts 64 CK_AON cycles later; R336: what it keeps. -/
theorem test_resets : onNext (exec .resetEnd (phaseS (fun p => { p with phase := .dividers, oe := false, freqAck := true }) 32 0 0))
      (fun b => b.pw.phase == .initialise && b.pw.oe && !b.pw.freqAck && (b.pitch 31).arr.startAt == some (32 + 8 * 31)) = true ∧
    onNext (exec .resetEnd (phaseS (fun p => { p with phase := .dividers }) 31 0 0)) (fun b => b.pw.phase == .dividers) = true ∧
    onNext (exec .ready (phaseS (fun p => { p with phase := .initialise }) 20160 0 0)) (fun b => b.pw.phase == .ready && b.pw.readyPin) = true ∧
    onNext (exec .ready (phaseS (fun p => { p with phase := .initialise }) 20159 0 0)) (fun b => b.pw.phase == .initialise) = true ∧
    onNext (exec (.warmResetTrigger false) (phaseS (fun p => { p with warmAt := some 0 }) 0 0 1024)) (fun b => b.pw.phase == .warm && b.pw.cause == 2 && b.front == {}
      && b.straps == State.reset.b.straps) = true ∧
    onNext (exec .warmResetRestart (phaseS (fun p => { p with phase := .warm, warmByPin := false, since := 0 }) 0 64 0)) (fun b => b.pw.phase == .lock) = true ∧
    onNext (exec .warmResetRestart (phaseS (fun p => { p with phase := .warm, warmByPin := false, since := 0 }) 0 63 0)) (fun b => b.pw.phase == .warm) = true := by decide +kernel

/-! ### Power -/

theorem meets_PowerInputs : afterReset State.reset.b = true ∧ afterReset (phaseS (fun p => { p with phase := .warm }) 0 0 0).b = false ∧
    (State.reset.b.pw.droop = false ∧ State.reset.b.pw.freqReq = false) ∧
    (let p := (phaseS (fun p => { p with droop := true }) 0 0 0).b.pw; p.droop = true) ∧
    (∀ n ∈ [256, 255], let s := phaseS (fun p => { p with stretching := true, droopFell := some 0 }) n 0 0
      s.b.pw.droopFell = some 0 ∧ s.b.pw.stretching = true ∧ s.b.pw.droop = false ∧ s.b.clk.core = n) ∧
    freqHold (phaseS (fun p => { p with stretching := true }) 0 0 0).b = true ∧ freqHold State.reset.b = false ∧
    freqHold (phaseS (fun p => { p with released := some 0 }) 1799 0 0).b = true ∧
    (let s := phaseS (fun p => { p with released := some 0, freqReq := true, freqHeld := true }) 1800 0 0
     s.b.pw.freqReq = true ∧ s.b.pw.freqHeld = true ∧ freqHold s.b = false) := by decide +kernel

/-- R343: stretching ends 256 CK_CORE cycles after the fall; R345, R346: a request is granted at once, or 1,800 cycles after the release; R347. -/
theorem test_power : onNext (exec .droopWarnRise State.reset) (fun b => b.pw.stretching && counter b Ctr.pwDroops 0 == 1) = true ∧
    onNext (exec .stretchRelease (phaseS (fun p => { p with stretching := true, droopFell := some 0 }) 256 0 0)) (fun b => !b.pw.stretching && b.pw.released == some 256) = true ∧
    onNext (exec .stretchRelease (phaseS (fun p => { p with stretching := true, droopFell := some 0 }) 255 0 0)) (fun b => b.pw.stretching) = true ∧
    onNext (exec .freqReqRise State.reset) (fun b => b.pw.freqAck) = true ∧
    onNext (exec .freqReqRise (phaseS (fun p => { p with stretching := true }) 0 0 0)) (fun b => !b.pw.freqAck && b.pw.freqHeld) = true ∧
    onNext (exec .freqHoldEnd (phaseS (fun p => { p with released := some 0, freqReq := true, freqHeld := true }) 1800 0 0)) (fun b => b.pw.freqAck && !b.pw.freqHeld) = true ∧
    onNext (exec .freqHoldEnd (phaseS (fun p => { p with released := some 0, freqReq := true, freqHeld := true }) 1799 0 0)) (fun b => !b.pw.freqAck) = true ∧
    onNext (exec .throttleReqRise State.reset) (fun b => b.pw.throttleAck && dutyOf b 0 == 2) = true := by decide +kernel

def ramping (x : ArraySt) : State := st (fun b => b.setPitch 31 { b.pitch 31 with arr := x })
/-- A pass is due: context 3 has 2 of event 0, and 999,999,999 fJ left over. -/
def passing : State :=
  st (fun b => { b with clk := { b.clk with qtr := 32 }, lan := { b.lan with lastPass := 0, evCtx := [(3, 2)], remCtx := [(3, 999999999)] } })

theorem meets_Ramps : afterReset State.reset.b = true ∧
    (let b := (ramping { ramp := .full, rampAt := 0, startAt := some 20160 }).b; (b.pitch 31).arr.startAt = some 20160 ∧ 20160 ≤ b.clk.core) ∧
    (let b := (ramping { ramp := .quarter, rampAt := 0, startAt := none }).b; (b.pitch 31).arr.ramp = .quarter ∧ (b.pitch 31).arr.rampAt + 64 ≤ b.clk.pitch) ∧
    (let b := (ramping { ramp := .half, rampAt := 0, startAt := none }).b; (b.pitch 31).arr.ramp = .half ∧ (b.pitch 31).arr.rampAt + 128 ≤ b.clk.pitch) ∧
    (31 < State.reset.b.pitchCount ∧ (State.reset.b.pitch 31).arr.ramp = .full ∧ (State.reset.b.pitch 31).arr.startAt = none) ∧
    (let b := passing.b; b.lan.lastPass + 32 ≤ b.clk.qtr ∧ b.lan.remCtx.get 0 3 < 10 ^ 9 ∧ b.lan.ujCtx.get 0 3 < 2 ^ 64) ∧
    (let b : Blk := { passing.b with clk := { passing.b.clk with qtr := 31 } }; b.clk.qtr < b.lan.lastPass + 32) ∧
    (let b : Blk := { passing.b with mg := { passing.b.mg with rwc := [(Obj.energyCoef + 13, 7)] } }; b.mg.rwc = [(Obj.energyCoef + 13, 7)] ∧ 13 < 14) ∧
    (let s := phaseS (fun p => { p with khzAon := 0, khzCore := 5 }) 1800005 100000 0; s.b.pw.khzAon + 100000 ≤ s.b.clk.aon) := by decide +kernel

/-- R341: the ramp starts at 25 %; R350: 2 × 1,064,960 fJ and 999,999,999 fJ are 1 µJ and 2,129,919 fJ; R333: 1,800,000 cycles in the window. -/
theorem test_ramps : onNext (exec (.rampStart 31) (ramping { ramp := .full, rampAt := 0, startAt := some 20160 })) (fun b => dutyOf b 31 == 1 && (b.pitch 31).arr.startAt == none) = true ∧
    onNext (exec (.rampStart 31) (ramping { ramp := .full, rampAt := 0, startAt := some 20161 })) (fun b => dutyOf b 31 == 4) = true ∧
    onNext (exec .energyPass passing) (fun b => b.lan.ujCtx.get 0 3 == 1 && b.lan.remCtx.get 0 3 == 2129919 && b.lan.evCtx.isEmpty) = true ∧
    onNext (exec .coreKhzWindow (phaseS (fun p => { p with khzAon := 0, khzCore := 5 }) 1800005 100000 0)) (fun b => b.obj Obj.coreKhz 0 == 1800000) = true := by decide +kernel

def stretchS (on : Bool) (rwc : List (Nat × Nat)) : State :=
  st (fun b => { b with pw := { b.pw with stretching := on }, mg := { b.mg with rwc := rwc } })

theorem meets_StretchMode : Live (stretchS true []) ∧ (stretchS true []).pending = [] ∧ (stretchS true []).b.pw.stretching = true ∧ (stretchS true []).b.obj Obj.stretchMode 0 = 0 ∧
    (∀ m ∈ [1, 2], ((stretchS true []).b.setObj Obj.stretchMode m).obj Obj.stretchMode 0 = m) ∧
    ∀ on ∈ [true, false], let s := stretchS on [(Obj.stretchMode, 2)]
      s.b.mg.rwc.find? (fun e => e.1 = Obj.stretchMode) = some (Obj.stretchMode, 2) ∧ s.b.pw.stretching = on := by
  refine ⟨rfl, ?_⟩
  decide +kernel

/-- R344: of the CK_CORE edges 0 to 3, mode 2 delivers three. -/
theorem test_stretch : (List.range 4).map (delivered ((stretchS true []).b.setObj Obj.stretchMode 2)) = [true, true, true, false] ∧
    onNext (exec (.rwcCommit 0x8020 0) (stretchS true [(Obj.stretchMode, 2)])) (fun b => b.obj Obj.stretchMode 0 == 0) = true ∧
    onNext (exec (.rwcCommit 0x8020 0) (stretchS false [(Obj.stretchMode, 2)])) (fun b => b.obj Obj.stretchMode 0 == 2) = true := by decide +kernel

/-! ### Management -/

def vendorBytes (n : Nat) : List Byte := (relrokBytes []).drop 1 ++ List.replicate n 0

theorem meets_Bindings : Live State.reset ∧ State.reset.b.straps.lead = true ∧ State.reset.b.mg.dynAddr = none ∧ State.reset.b.straps.i3cAddr < 128 ∧
    State.reset.b.mg.dynAddr.getD State.reset.b.straps.i3cAddr = State.reset.b.straps.i3cAddr ∧ State.reset.b.mg.responses = [] ∧
    (∀ bi ∈ [Binding.i3c, .inBand], bound bi State.reset.b = true) ∧ State.reset.b.mg.sack.length < 16 ∧
    16 ≤ ({ State.reset.b with mg := { State.reset.b.mg with sack := List.replicate 16 (req 1 0x1002 0 []) } } : Blk).mg.sack.length := by
  refine ⟨rfl, ?_⟩
  decide +kernel

theorem meets_RelrokGood : (vendorBytes 16).length = 20 ∧ (vendorBytes 16).length ≤ 4096 ∧ (vendorBytes 16).take 4 = (relrokBytes []).drop 1 := ⟨rfl, by decide, rfl⟩

/-- R356: the dynamic address is taken, and a read with nothing waiting is not acknowledged; R355: the endpoint ID is kept, and 0 is not taken; R357: a
message that failed its integrity check is dropped and counted. -/
theorem test_bindings : onNext (exec (.setdasa State.reset.b.straps.i3cAddr 9) State.reset) (fun b => b.mg.dynAddr == some 9) = true ∧
    onNext (exec (.i3cPrivateRead State.reset.b.straps.i3cAddr) State.reset) (fun b => b.out == [.i3cNack]) = true ∧
    onNext (exec (.setEndpointId .i3c 254) State.reset) (fun b => b.mg.eidI3c == 254 && b.mg.eidInBand == 0) = true ∧
    onNext (exec (.setEndpointId .i3c 0) State.reset) (fun b => b.mg.eidI3c == 0 && b.out == [.mctpControl .i3c [2]]) = true ∧
    onNext (exec (.relrokMessage .i3c 9 0 false []) State.reset) (fun b => b.obj Obj.mgmtDropped 0 == 1 && b.mg.sack.isEmpty) = true := by decide +kernel

theorem test_relrok : onNext (exec (.relrokMessage .i3c 9 0 true (vendorBytes 16)) State.reset) (fun b => b.mg.sack.map (·.body) == [List.replicate 16 0]) = true := by
  have h : (vendorBytes 16).take 4 = (relrokBytes []).drop 1 := rfl
  have hb : bound .i3c State.reset.b = true := rfl
  have hn : State.reset.b.mg.sack = [] := rfl
  have hf : State.reset.b.mg.fwd = none := rfl
  have hl : (vendorBytes 16).length = 20 := rfl
  have hd : (vendorBytes 16).drop 4 = List.replicate 16 0 := rfl
  have hp : State.reset.b.pw.phase = .ready := rfl
  simp [exec, execRelrokMessage, fireReady, fire, onNext, effRelrokMessage, enterSack, Blk.settle, hp, hb, h, hl, hd, hn, hf]

/-! ### Requests -/

def asking (r : Req) (f : Blk → Blk := id) : State := st (fun b => sackOf r (f b))
def checks (r : Req) (f : Blk → Blk := id) : Bool :=
  let b := (asking r f).b
  headReq b == some r && execHere b r && (match checkReq b r with
    | .ok _ => true
    | .error _ => false)
/-- BLOCK_STATE is HELD: every RWS object may be written (R369). -/
def heldB (b : Blk) : Blk := { b with mg := { b.mg with released := false } }
def waits (k v : Nat) (b : Blk) : Blk := { b with mg := { b.mg with rwc := [(k, v)] } }
/-- PITCHES (0x1002), SKETCH 0 of pitch 0 (BLOB), and a STRETCH_MODE that waits. -/
def readPitches : Req := req 1 0x1002 0 []
def readBlob : Req := { readPitches with body := bs [0x81, 1, 0x80, 0] ++ toLe 2 0x9A00 ++ bs [0, 0, 0, 0, 0, 0] ++ toLe 2 4064 ++ bs [0, 0] }
def readMode : Req := req 1 0x8020 0 []

theorem meets_Reads : Live (asking readPitches) ∧ readPitches.op = 1 ∧ readPitches.key ≠ Obj.peekData ∧ checks readPitches = true ∧
    checks readMode (waits Obj.stretchMode 2) = true ∧ readMode.key = Obj.stretchMode ∧ (asking readMode (waits Obj.stretchMode 2)).b.mg.rwc.find? (fun e => e.1 = readMode.key) = some (readMode.key, 2) ∧
    checks readBlob = true ∧ isBlob 9 = true ∧ (dictRows.find? (fun r => r.i0 = 0x9A00)).map (·.ty) = some 9 ∧
    (∀ r ∈ [req 1 0xFFFF 0 [], req 2 0xFFFF 0 []], headReq (asking r).b = some r ∧ execHere (asking r).b r = true ∧ ownRow r = false ∧
      (match checkReq (asking r).b r with
        | .ok _ => false
        | .error _ => true) = true) ∧
    (let r : Req := { readPitches with body := bs [0x81, 1, 1, 0] ++ readPitches.body.drop 4 }; headReq (asking r).b = some r ∧ execHere (asking r).b r = false ∧ r.op = 1) := by
  refine ⟨rfl, ?_⟩
  decide +kernel

/-- DISCOVER from the first index, and from the last: nothing is there. -/
theorem meets_Discover : (let r := req 3 0 0 []
     headReq (asking r).b = some r ∧ r.op = 3 ∧ execHere (asking r).b r = true ∧ reqOk r = true ∧ (nextObj (asking r).b r.key).map (·.1) = some (256 * 0x1000) ∧ r.ty = 0) := by
  decide +kernel

theorem meets_Writes :
    (let r := wreq Obj.stretchMode 1 1 2
     checks r = true ∧ r.op = 2 ∧ ownRow r = false ∧ valueOkLow (asking r).b r.index r.sub r.value = true ∧ valueOkHigh (asking r).b r.index r.sub r.value = true ∧
      (objRow (asking r).b r.index r.sub).map (·.acc) = some .rwc) ∧
    (let r := wreq Obj.diagEnable 7 1 1
     checks r heldB = true ∧ r.op = 2 ∧ ownRow r = false ∧ valueOkLow (asking r).b r.index r.sub r.value = true ∧ valueOkHigh (asking r).b r.index r.sub r.value = true ∧
      (objRow (asking r).b r.index r.sub).map (·.acc) ≠ some .rwc) ∧
    (State.reset.b.mg.rwc = [] ∧ hostReaches State.reset.b = true) ∧
    (let b := waits (256 * 0x8020 + 2) 3 State.reset.b; b.mg.rwc.find? (fun e => e.1 = 256 * 0x8020 + 2) = some (256 * 0x8020 + 2, 3) ∧ commits b 0x8020 2 3 = true) ∧
    (let b := { waits (256 * 0x8020) 2 State.reset.b with pw := { State.reset.b.pw with stretching := true } }; commits b 0x8020 0 2 = false) ∧
    ringFits State.reset.b 4096 6 = true ∧ ringFits State.reset.b 0 16 = true ∧ diagOn (State.reset.b.setObj Obj.diagEnable 1) = true := by decide +kernel

theorem meets_Actions :
    (∀ r, r = wreq Obj.bootRelease 7 1 1 → Written (sackOf r (heldB State.reset.b)) Obj.bootRelease 1 r ∧ r.value = 1) ∧
    (∀ r, r = wreq Obj.alertStatus 3 4 1 → Written (sackOf r State.reset.b) Obj.alertStatus 1 r) ∧
    (∀ r, r = wreq Obj.counterClear 1 1 9 → Written (sackOf r State.reset.b) Obj.counterClear 1 r ∧ r.value < 10) ∧
    (∀ r, r = wreq Obj.sketchClear 7 1 1 → Written (sackOf r State.reset.b) Obj.sketchClear 1 r ∧ r.value = 1) ∧
    (∀ r, r = wreq Obj.errLogClear 7 1 1 → Written (sackOf r State.reset.b) Obj.errLogClear 1 r ∧ r.value = 1) ∧
    (∀ r, r = wreq Obj.errRingBase 4 8 4096 → Written (sackOf r (heldB State.reset.b)) Obj.errRingBase 2 r ∧ r.sub = 0 ∧ r.value = 4096) ∧
    (∀ r, r = wreq (Obj.errRingBase + 1) 1 1 16 → Written (sackOf r (heldB State.reset.b)) Obj.errRingBase 2 r ∧ r.sub = 1 ∧ r.value = 16) ∧
    (∀ r, r = wreq Obj.cacheInvalidate 1 1 6 → Written (sackOf r State.reset.b) Obj.cacheInvalidate 1 r ∧ r.value = 6) ∧
    (∀ r, r = wreq Obj.cacheInvalidate 1 1 1 → Written (sackOf r State.reset.b) Obj.cacheInvalidate 1 r ∧ r.value = 1) ∧
    (∀ r, r = wreq Obj.peekData 4 8 77 → Written (sackOf r (State.reset.b.setObj Obj.diagEnable 1)) Obj.peekData 1 r) ∧
    (∀ r, r = wreq Obj.eccInject 3 4 0x26 → Written (sackOf r (State.reset.b.setObj Obj.diagEnable 1)) Obj.eccInject 1 r ∧ r.value % 16 = 6 ∧ r.value / 16 = 2) := by
  refine ⟨?_, ?_, ?_, ?_, ?_, ?_, ?_, ?_, ?_, ?_, ?_⟩
  all_goals rintro r rfl
  all_goals first
    | exact isWritten_written _ _ _ _ (by decide +kernel)
    | exact ⟨isWritten_written _ _ _ _ (by decide +kernel), by decide +kernel⟩

/-- R363, R367: a READ gives the value that waits, with PENDING; R362, R369: a WRITE of STRETCH_MODE waits; of DIAG_ENABLE it takes effect; R380: 0 clears the log;
R381: the memory is written through PEEK_DATA. -/
theorem test_requests : onNext (exec .read (asking readMode (waits Obj.stretchMode 2))) (fun b => b.mg.responses.map (fun l => l.drop 5) ==
        [bs [1, 1, 0, 0] ++ toLe 2 0x8020 ++ bs [0, 1] ++ toLe 4 0 ++ toLe 2 1 ++ bs [1, 0, 2]] && b.mg.sack.isEmpty && b.obj Obj.mgmtRequests 0 == 1) = true ∧
    onNext (exec (.registerWrite .dict) (asking (wreq Obj.stretchMode 1 1 2))) (fun b => b.mg.rwc == [(Obj.stretchMode, 2)] && b.obj Obj.stretchMode 0 == 0) = true ∧
    onNext (exec (.registerWrite .dict) (asking (wreq Obj.stretchMode 1 1 3))) (fun b => b.mg.rwc.isEmpty && b.mg.responses.map (fun l => l.getD 8 0) == [6]) = true ∧
    onNext (exec (.registerWrite .dict) (asking (wreq Obj.diagEnable 7 1 1) heldB)) (fun b => b.obj Obj.diagEnable 0 == 1) = true ∧
    onNext (exec .peekDataWrite (asking (wreq Obj.peekData 4 8 77) (fun b => (b.setObj Obj.diagEnable 1).setObj Obj.peekAddr 64))) (fun b => b.mem.byte 64 == 77) = true ∧
    onNext (exec .cacheInvalidate (asking (wreq Obj.cacheInvalidate 1 1 4) (fun b => { b with xlat := { b.xlat with fault := { b.xlat.fault with lines := [(0, headLine b)] } } })))
      (fun b => b.xlat.fault.lines.isEmpty && b.xlat.fault.fresh) = true := by decide +kernel

/-! ### Integrity -/

/-- An error record in staging, entered at CK_HALF 0. -/
def erring (half : Nat) (last : Option Nat) (f : Blk → Blk := id) : State :=
  st (fun b => f { b with clk := { b.clk with half := half }, err := { b.err with staging := [({ cause := 7, unit := 3 }, 0)], lastCopy := last } })

theorem meets_Sacks : Live (erring 16 (some 0)) ∧ (looking (bag0 63) []).b.unit? 20 = some (bag0 63) ∧
    inside State.reset.b 31 = [] ∧ (erring 16 (some 0)).b.err.staging = [({ cause := 7, unit := 3 }, 0)] ∧ copyDue (erring 16 (some 0)).b 0 = true ∧
    copyDue (erring 15 (some 0)).b 0 = false ∧
    (let b := (erring 16 none (fun b => b.setObj Obj.errRingBase 4096)).b
     b.obj Obj.errRingBase 0 ≠ 0 ∧ (b.err.ringWritten + 2 ^ 64 - b.obj Obj.errRingHead 0) % 2 ^ 64 < 2 ^ b.obj Obj.errRingLog2 6) ∧
    (let b := (erring 16 none (fun b => { b.setObj Obj.errRingBase 4096 with err := { b.err with ringWritten := 64 } })).b
     2 ^ b.obj Obj.errRingLog2 6 ≤ (b.err.ringWritten + 2 ^ 64 - b.obj Obj.errRingHead 0) % 2 ^ 64) := by
  refine ⟨rfl, ?_⟩
  decide +kernel

/-- R391, R392: at 16 CK_HALF cycles the record is copied to the log and to the ring, its cause first; not one before; R387: the staged record is lost. -/
theorem test_errors : onNext (exec .errorRecordCopy (erring 16 (some 0) (fun b => b.setObj Obj.errRingBase 4096)))
      (fun b => b.err.staging.isEmpty && b.err.log.map (·.cause) == [7] && b.mem.bytes 4096 8 == toLe 8 1 && b.mem.byte (4096 + 64) == 7
        && b.obj Obj.alertStatus 0 == 1) = true ∧
    onNext (exec .errorRecordCopy (erring 15 (some 0))) (fun b => b.err.staging.length == 1) = true ∧
    onNext (exec (.sackMismatch .error) (erring 16 none)) (fun b => counter b Ctr.sackItemsLost 0 == 1 && b.err.errLost == 1
      && b.err.staging.map (fun e => (e.1.cause, e.1.detail)) == [(0x13, 3)]) = true ∧
    onNext (exec (.sackMismatch (.read 20)) (looking (bag0 63) [])) (fun b => b.units.map (fun u => (u.have_.length, u.need)) == [(0, [(0x7100, 4)])]) = true := by decide +kernel

end Sys2Proof.Tests
end

section
/-! SUPPORT. Bit fields and little-endian fields (R7): the value of a list of bytes as a sum over its bytes, and the low bytes of a value read back. -/
namespace Sys2Proof.Machine

@[simp] theorem length_toLe : ∀ n v, (toLe n v).length = n
  | 0, _ => rfl
  | n + 1, v => congrArg Nat.succ (length_toLe n (v / 256))

/-- Encoding a value in `n` bytes keeps its low `8 * n` bits. -/
theorem le_toLe : ∀ n v, le (toLe n v) = v % 256 ^ n
  | 0, v => by simp [toLe, le, Nat.mod_one]
  | n + 1, v =>
    calc le (toLe (n + 1) v) = v % 256 + 256 * le (toLe n (v / 256)) := by simp [toLe, le]
      _ = v % 256 + 256 * (v / 256 % 256 ^ n) := by rw [le_toLe n]
      _ = v % 256 ^ (n + 1) := by rw [Nat.pow_succ', Nat.mod_mul]

@[simp] theorem byteAt_cons_zero (x : Byte) (l : List Byte) : byteAt (x :: l) 0 = x.toNat := rfl

@[simp] theorem byteAt_cons_succ (x : Byte) (l : List Byte) (i : Nat) : byteAt (x :: l) (i + 1) = byteAt l i := rfl

/-- Byte `i` of a list weighs `256 ^ i`: the byte at the lowest address is the least significant. -/
theorem le_eq_sum : ∀ l : List Byte, le l = ((List.range l.length).map (fun i => byteAt l i * 256 ^ i)).sum
  | [] => rfl
  | x :: t => by
    have hTail : ((List.range t.length).map (fun i => byteAt t i * 256 ^ (i + 1))).sum = 256 * le t := by
      rw [le_eq_sum t, ← List.sum_map_mul_left]
      exact congrArg List.sum (List.map_congr_left fun i _ => by ring)
    simp [le, List.range_succ_eq_map, Function.comp_def, hTail]

/-- Byte `i` of a slice is byte `off + i` of the whole. -/
theorem byteAt_slice (l : List Byte) (off : Nat) {n i : Nat} (h : i < n) :
    byteAt ((l.drop off).take n) i = byteAt l (off + i) := by
  simp [byteAt, List.getD_eq_getElem?_getD, h]

theorem field_eq_sum {l : List Byte} {off n : Nat} (h : off + n ≤ l.length) :
    field l off n = ((List.range n).map (fun i => byteAt l (off + i) * 256 ^ i)).sum := by
  have hLen : ((l.drop off).take n).length = n := by
    simp only [List.length_take, List.length_drop]
    omega
  rw [field, le_eq_sum, hLen]
  exact congrArg List.sum (List.map_congr_left fun i hi => by rw [byteAt_slice l off (List.mem_range.mp hi)])

/-- Both ends of [hi:lo] belong to the field, which is `hi - lo + 1` bits wide. -/
theorem bitsOf_eq_shiftRight_mod {v hi lo : Nat} (h : lo ≤ hi) : bitsOf v hi lo = (v >>> lo) % 2 ^ (hi - lo + 1) := by
  rw [bitsOf, Nat.shiftRight_eq_div_pow, Nat.sub_add_comm h]

/-- Settles O8: the low bytes by induction on their number, a field as the sum over its bytes. -/
theorem fieldsAreLittleEndian : Obligations.FieldsAreLittleEndian :=
  ⟨fun _ _ _ => bitsOf_eq_shiftRight_mod, fun v n => ⟨length_toLe n v, le_toLe n v⟩, fun _ _ _ => field_eq_sum⟩

end Sys2Proof.Machine
end

section
/-! SUPPORT. The stretcher (R343, R344): the share of the CK_CORE edges that each STRETCH_MODE delivers, the clocks after one cycle of CK_ROOT, and
the commit of a waiting object. -/
namespace Sys2Proof.Machine

/-! ### Edges delivered while the stretcher is active -/

theorem delivered_of_mode_zero {b : Blk} (hs : b.pw.stretching = true) (hm : b.obj Obj.stretchMode 0 = 0) (core : Nat) :
    delivered b core = (core % 2 == 0) := by simp [delivered, hs, hm]

theorem delivered_of_mode_one {b : Blk} (hs : b.pw.stretching = true) (hm : b.obj Obj.stretchMode 0 = 1) (core : Nat) :
    delivered b core = (core % 4 == 0) := by simp [delivered, hs, hm]

theorem delivered_of_mode_two {b : Blk} (hs : b.pw.stretching = true) (hm : b.obj Obj.stretchMode 0 = 2) (core : Nat) :
    delivered b core = (core % 4 != 3) := by simp [delivered, hs, hm]

/-- A pattern with a period that divides four delivers as many of any four edges from a multiple of four as of the first four. -/
theorem length_filter_delivered {b : Blk} {p : Nat → Bool} (hd : ∀ core, delivered b core = p core) (hp : ∀ n i, p (4 * n + i) = p i) (n : Nat) :
    ((List.range 4).filter (fun i => delivered b (4 * n + i))).length = ((List.range 4).filter p).length := by
  simp only [hd, hp]

theorem delivered_succ_ne_of_mode_zero {b : Blk} (hs : b.pw.stretching = true) (hm : b.obj Obj.stretchMode 0 = 0) (i : Nat) :
    delivered b (i + 1) ≠ delivered b i := by
  rw [delivered_of_mode_zero hs hm, delivered_of_mode_zero hs hm]
  rcases Nat.mod_two_eq_zero_or_one i with h | h <;> simp [Nat.add_mod, h]

/-! ### One cycle of CK_ROOT -/

@[simp] theorem coreCycle_clk (b : Blk) : (coreCycle b).clk = b.clk := by
  have hOne : ∀ (c : Nat) (on : Bool) (x : Blk), (if on then bump c 0 1 x else x).clk = x.clk := fun c on x => by cases on <;> rfl
  simp only [coreCycle, foldl_keeps Blk.clk _ fun x sp => bump_clk x _ sp 1, hOne]

@[simp] theorem halfCycle_clk (b : Blk) : (halfCycle b).clk = b.clk := foldl_keeps Blk.clk _ (fun x c => bump_clk x _ c 1) _ b

@[simp] theorem d2dCycle_clk (b : Blk) : (d2dCycle b).clk = b.clk := foldl_keeps Blk.clk _ (fun x p => bump_clk x _ p 1) _ b

/-- The counts kept per cycle leave the clocks alone. -/
@[simp] theorem counted_clk (b : Blk) : (counted b).clk = nextClocks b := by
  simp only [counted, apply_ite Blk.clk, d2dCycle_clk, halfCycle_clk, coreCycle_clk, ite_self]

theorem dividing_of_live {s : State} (hl : Live s) : dividing s.b = true := by
  have hp : s.b.pw.phase = .ready := hl
  simp [dividing, hp]

/-- Past READY the pitch clock counts each CK_CORE edge that is delivered (R329, R344). -/
theorem nextClocks_pitch_of_live {s : State} (hl : Live s) : (nextClocks s.b).pitch =
    s.b.clk.pitch + (if (s.b.clk.root + 1) % 4 = 0 ∧ delivered s.b (s.b.clk.core + 1) = true then 1 else 0) := by
  by_cases he : (s.b.clk.root + 1) % 4 = 0 <;> simp [nextClocks, dividing_of_live hl, he]

theorem step_of_idle {s : State} (hl : Live s) (hp : s.pending = []) :
    step s = .next (s.after (pruneReach (effFaultBatchTimer (recheckAgain (counted s.b))))) := by
  have hr : s.b.pw.phase = .ready := hl
  simp [step, hp, tick, hr, State.after]

/-! ### The commit of a waiting object (R370) -/

@[simp] theorem cacheSet_mg (n v : Nat) (b : Blk) : (cacheSet n v b).mg = b.mg := by
  unfold cacheSet
  split
  · rfl
  · split <;> rfl

@[simp] theorem commitNow_mg (i n v : Nat) (b : Blk) :
    (commitNow i n v b).mg = { b.mg with val := b.mg.val.set (256 * i + n) v, rwc := b.mg.rwc.del (256 * i + n) } := by
  unfold commitNow
  split <;> simp [Blk.setObj]

theorem obj_commitNow (i n v d : Nat) (b : Blk) : (commitNow i n v b).obj (256 * i + n) d = v := by simp [Blk.obj]

theorem find_rwc_commitNow (i n v : Nat) (b : Blk) : (commitNow i n v b).mg.rwc.find? (fun e => e.1 = 256 * i + n) = none := by
  simp [Tbl.del]

/-- STRETCH_MODE commits exactly while the stretcher is inactive (R344). -/
theorem effRwcCommit_stretchMode {b : Blk} {v : Nat} (hw : b.mg.rwc.find? (fun e => e.1 = Obj.stretchMode) = some (Obj.stretchMode, v)) :
    effRwcCommit 0x8020 0 b = if b.pw.stretching = true then b else commitNow 0x8020 0 v b := by
  have hk : (256 * 0x8020 + 0 : Nat) = Obj.stretchMode := rfl
  rw [effRwcCommit, hk, hw]
  cases hs : b.pw.stretching <;> simp [commits, hs]

theorem exec_rwcCommit_of_live {s : State} (hl : Live s) {i n : Nat} (hi : i < 65536) (hn : n < 256) :
    exec (.rwcCommit i n) s = .next (s.after (effRwcCommit i n s.b)) :=
  fireReady_live hl (by simp [hi, hn])

/-- Settles O57: the edges by the residue modulo four that each mode delivers, the pitch clock from the clocks after one cycle of CK_ROOT, and the
commit by whether the stretcher is active. -/
theorem stretchModeDividesEdges : Obligations.StretchModeDividesEdges := by
  refine ⟨fun b n hs => ⟨fun hm => ⟨?_, delivered_succ_ne_of_mode_zero hs hm⟩, fun hm => ?_, fun hm => ?_⟩,
    fun s hl hp => ⟨step_of_idle hl hp, ?_⟩, fun s v hl hw => ⟨fun hs => ?_, fun hs => ?_⟩⟩
  · exact length_filter_delivered (delivered_of_mode_zero hs hm) (fun k i => by congr 1; omega) n
  · exact length_filter_delivered (delivered_of_mode_one hs hm) (fun k i => by congr 1; omega) n
  · exact length_filter_delivered (delivered_of_mode_two hs hm) (fun k i => by congr 1; omega) n
  · rw [counted_clk, nextClocks_pitch_of_live hl]
  · rw [exec_rwcCommit_of_live hl (by decide) (by decide), effRwcCommit_stretchMode hw, if_pos hs]
  · refine ⟨_, exec_rwcCommit_of_live hl (by decide) (by decide), ?_⟩
    rw [effRwcCommit_stretchMode hw, if_neg (by simp [hs]), after_b, obj_settle, settle_mg]
    exact ⟨obj_commitNow 0x8020 0 v 0 s.b, find_rwc_commitNow 0x8020 0 v s.b⟩

end Sys2Proof.Machine
end

section
/-! SUPPORT. Every command as an effect on the block behind the check of its operands, and what `settle` does with a block that has settled: the
statements about all commands and about every step. -/
namespace Sys2Proof.Machine

/-! ### The operand checks of the arms -/

theorem fireReady_of_check {ok ok' : Bool} {f : Blk → Blk} (h : ok = ok') :
    ∃ g : Blk → Blk, ∀ s : State, fireReady ok f s = fireReady ok' g s := ⟨f, fun _ => by rw [h]⟩

theorem fire_of_check {ok ok' : Bool} {f : Blk → Blk} (h : ok = ok') :
    ∃ g : Blk → Blk, ∀ s : State, fire ok f s = fire ok' g s := ⟨f, fun _ => by rw [h]⟩

theorem regWriteOk_eq_okReg (t : RegWrite) : regWriteOk t = okReg t := by cases t <;> rfl

theorem sackOk_eq_okSack (k : SackId) : sackOk k = okSack k := by cases k <;> rfl

theorem strapsOk_eq_okPins (st : Straps) (id : Ident) : strapsOk st id = okPins st id := rfl

/-- The lowest bits of a value. -/
theorem bitsOf_lo_zero (v hi : Nat) : bitsOf v hi 0 = v % 2 ^ (hi + 1) := by simp [bitsOf]

/-! ### The two families of commands -/

/-- A command that a block meets only past READY acts on a live block, behind the check of its operands. -/
theorem exec_eq_fireReady {c : Instr} (h : MetInReset c = false) :
    ∃ f : Blk → Blk, ∀ s : State, exec c s = fireReady (WellFormed c) f s := by
  cases c <;> simp only [MetInReset, reduceCtorEq] at h <;> simp only [exec] <;> refine fireReady_of_check ?_
  all_goals
    simp [WellFormed, okFnQ, okInv, okFlit, okHalves, okAccess, regWriteOk_eq_okReg, sackOk_eq_okSack, bitsOf_lo_zero, Bool.and_assoc,
      beq_eq_decide]

/-- A command that a block meets in reset too acts on any block, behind the check of its operands. -/
theorem exec_eq_fire_of_metInReset {c : Instr} (h : MetInReset c = true) :
    ∃ f : Blk → Blk, ∀ s : State, exec c s = fire (WellFormed c) f s := by
  cases c <;> simp only [MetInReset, reduceCtorEq] at h <;>
    simp only [exec, execDroopWarnRise, execDroopWarnFall, execStretchRelease, execFreqReqRise, execFreqHoldEnd, execFreqReqFall,
      execThrottleReqRise, execThrottleReqFall, execEnergyPass, execCoreKhzWindow, fireLive, firePin] <;>
    exact fire_of_check rfl

/-- Every command is an effect on the block, behind the check of its operands. -/
theorem exec_eq_fire (c : Instr) : ∃ f : Blk → Blk, ∀ s : State, exec c s = fire (WellFormed c) f s := by
  cases h : MetInReset c
  · obtain ⟨f, hf⟩ := exec_eq_fireReady h
    exact ⟨_, fun s => (hf s).trans rfl⟩
  · exact exec_eq_fire_of_metInReset h

/-- What a command leaves is a settled block. -/
theorem exec_next {c : Instr} {s t : State} (h : exec c s = .next t) : ∃ b, t = s.after b := by
  obtain ⟨f, hf⟩ := exec_eq_fire c
  exact ⟨f s.b, (fire_next.mp (hf s ▸ h)).2⟩

theorem exec_of_wellFormed {c : Instr} (h : WellFormed c = true) (s : State) : ∃ b, exec c s = .next (s.after b) := by
  obtain ⟨f, hf⟩ := exec_eq_fire c
  exact ⟨f s.b, by rw [hf, h, fire_true]⟩

theorem exec_of_not_wellFormed {c : Instr} (h : WellFormed c = false) (s : State) : exec c s = .fault .operand := by
  obtain ⟨f, hf⟩ := exec_eq_fire c
  rw [hf, h]
  rfl

/-- Before READY a command of the running block leaves the block as it is. -/
theorem exec_of_not_ready {c : Instr} {s : State} (hw : WellFormed c = true) (hm : MetInReset c = false) (hp : s.b.pw.phase ≠ .ready) :
    exec c s = .next (s.after s.b) := by
  obtain ⟨f, hf⟩ := exec_eq_fireReady hm
  rw [hf, hw, fireReady, fire_true, if_neg hp]

/-! ### A settled block -/

theorem settleQueue_of_settled {descs : List Desc} {n : Nat} {x : Queue} (h : QueueSettled descs n x) : settleQueue descs n x = x := by
  unfold settleQueue
  rcases h with hi | ⟨hs, hr⟩
  · simp [hi]
  · rw [if_neg (by simp at hs ⊢; tauto), if_neg (by simp at hr ⊢; tauto)]

theorem settleQueues_of_settled {descs : List Desc} {qs : Tbl Queue} (h : ∀ e ∈ qs, QueueSettled descs e.1 e.2) :
    settleQueues descs qs = qs := by
  rw [settleQueues]
  exact (List.map_congr_left fun e he => congrArg (Prod.mk e.1) (settleQueue_of_settled (h e he))).trans (List.map_id _)

/-- A settled block has nothing left to follow from an event. -/
theorem settle_of_settled {b : Blk} (h : b.Settled) : b.settle = b := by
  have hAlert : alertLevel b = b.pw.alertN := by
    rw [Bool.eq_iff_iff, h.alertN]
    simp [alertLevel]
  have hHeavy : heavyLevel b = b.pw.heavyAhead := by
    rw [Bool.eq_iff_iff, h.heavyAhead]
    simp [heavyLevel]
  rw [Blk.settle, Mem.norm_of_wf h.mem, Mem.norm_of_wf h.hostMem, settleQueues_of_settled h.queues, hAlert, hHeavy]

theorem after_of_inv {s : State} (h : Inv s) : s.after s.b = s := by
  rw [State.after, settle_of_settled h]

theorem inv_after (s : State) (b : Blk) : Inv (s.after b) := settle_settled b

/-! ### The statements -/

/-- Settles O3: every command is an effect behind the check of its operands. -/
theorem nextExactlyWhenOperandsExist : Obligations.NextExactlyWhenOperandsExist := by
  refine fun c s => ⟨fun h => ?_, fun h => exec_of_not_wellFormed h s⟩
  obtain ⟨b, hb⟩ := exec_of_wellFormed h s
  exact ⟨_, hb, rfl⟩

/-- Settles O4: the commands of the running block wait for READY, and a settled block does not change when it settles again. -/
theorem nothingElseActsOutsideReady : Obligations.NothingElseActsOutsideReady :=
  ⟨fun _ _ hw hm hp => exec_of_not_ready hw hm hp, fun _ => after_of_inv⟩

/-- Settles O5: whatever a step does to the block, the block settles after it. -/
theorem everyStepKeepsInvariant : Obligations.EveryStepKeepsInvariant := by
  intro s t _ h
  unfold step at h
  split at h
  · obtain rfl := (Host.Outcome.next.inj h).symm
    exact inv_after s (tick s.b)
  · obtain ⟨b, rfl⟩ := exec_next h
    exact inv_after _ b

/-- Settles O1: the definition of a step on a queue that holds a command. -/
theorem stepRunsFrontCommand : Obligations.StepRunsFrontCommand := fun _ _ => rfl

end Sys2Proof.Machine
end

section
/-! SUPPORT. The state after reset, the bit steps of CHECK, a memory after a write, and the precedence of statuses. -/
namespace Sys2Proof.Machine

/-! ### The state after reset -/

theorem reset_settled : State.reset.b.Settled where
  mem := rfl
  hostMem := rfl
  alertN := by decide
  heavyAhead := by decide
  queues := fun _ he => absurd he List.not_mem_nil

/-- Settles O6: at reset no queue is listed, both memories are empty, and no cause and no class stands. -/
theorem invariantAtReset : Obligations.InvariantAtReset := reset_settled

/-- Settles O7: each register is read off the reset state. -/
theorem registersAtReset : Obligations.RegistersAtReset := by
  refine ⟨fun n => ?_, fun _ _ => rfl, rfl, rfl, fun _ => rfl, rfl, rfl, rfl, fun _ => rfl, by decide⟩
  have hq : State.reset.b.q n = {} := rfl
  have hInflight : State.reset.b.inflight n = 0 := rfl
  have hPhase : ({} : Queue).phase = true := by decide
  have hPersistent : ({} : Queue).persistent = false := by decide
  rw [hq]
  refine ⟨rfl, by decide, by decide, by decide, by decide, by decide, by decide, hPersistent, by decide, rfl, rfl, rfl, hPhase, hInflight, ?_, ?_⟩ <;>
    simp only [pageRead, hq, hInflight, hPhase, hPersistent, QState.code, boolNat, Bool.false_eq_true, if_false] <;> decide

/-! ### CHECK -/

/-- One bit step of R32's program, on a value of any width. -/
theorem crcBit_eq_shift (crc : Nat) :
    crcBit 8 0x2F crc = if crc &&& 0x80 ≠ 0 then ((crc <<< 1) ^^^ 0x2F) &&& 0xFF else (crc <<< 1) &&& 0xFF := by
  have hBit : (crc &&& 0x80 ≠ 0) ↔ crc / 2 ^ (8 - 1) % 2 = 1 := by
    rw [show (0x80 : Nat) = 2 ^ 7 from rfl, Nat.and_two_pow]
    cases h : crc.testBit 7 <;> simpa [Nat.testBit_eq_decide_div_mod_eq] using h
  have hMask (x : Nat) : x &&& 0xFF = x % 2 ^ 8 := by simpa using Nat.and_two_pow_sub_one_eq_mod x 8
  simp only [crcBit, hBit, hMask, Nat.shiftLeft_eq, pow_one]

/-- Settles O9: bit for bit the program of R32, and its check value. -/
theorem checkIsCrc8OfR32 : Obligations.CheckIsCrc8OfR32 := by
  refine ⟨fun l => ?_, by decide +kernel⟩
  simp only [crc8, crcMsb, crcBits, crcBit_eq_shift, Nat.sub_self, pow_zero, mul_one]

/-! ### Memory -/

/-- A carved address lies in no undefined range any more. -/
theorem find?_carve_of_mem {lo n x : Nat} (h : lo ≤ x ∧ x < lo + n) :
    ∀ l : List Undef, (carve lo n l).find? (fun u => u.lo ≤ x ∧ x < u.lo + u.len) = none
  | [] => rfl
  | u :: t => by
    have ih := find?_carve_of_mem h t
    simp only [carve]
    split
    · rw [List.find?_cons_of_neg (by simp; omega), ih]
    · rw [List.find?_append, List.find?_append, ih]
      split <;> split <;> simp <;> omega

/-- Carving makes no address undefined. -/
theorem find?_carve_of_none {lo n x : Nat} :
    ∀ l : List Undef, l.find? (fun u => u.lo ≤ x ∧ x < u.lo + u.len) = none → (carve lo n l).find? (fun u => u.lo ≤ x ∧ x < u.lo + u.len) = none
  | [], _ => rfl
  | u :: t, h => by
    have hu : ¬(u.lo ≤ x ∧ x < u.lo + u.len) := by simpa using List.find?_eq_none.mp h u (by simp)
    have ih := find?_carve_of_none (lo := lo) (n := n) t (List.find?_eq_none.mpr fun v hv => List.find?_eq_none.mp h v (by simp [hv]))
    simp only [carve]
    split
    · rw [List.find?_cons_of_neg (by simpa using hu), ih]
    · rw [List.find?_append, List.find?_append, ih]
      split <;> split <;> simp <;> omega

theorem byte_write_inside {m : Mem} (h : m.wf = true) {a i : Nat} {d : List PByte} (hi : i < d.length) :
    (m.write a d).byte (a + i) = (d.getD i (0, false)).1 := by
  have hUndef : (m.write a d).undefAt (a + i) = none := find?_carve_of_mem ⟨by omega, by omega⟩ m.undef
  have hLook := Mem.look_putAll (b := a + i) (d := d.map (·.1)) (a := a) h
  rw [if_pos ⟨by omega, by simpa using hi⟩] at hLook
  rw [Mem.byte, hUndef]
  simpa [Mem.write, hi] using hLook

theorem byte_write_outside {m : Mem} (h : m.wf = true) {a x : Nat} {d : List PByte} (hx : x < a ∨ a + d.length ≤ x)
    (hu : m.undefAt x = none) : (m.write a d).byte x = m.byte x := by
  have hUndef : (m.write a d).undefAt x = none := find?_carve_of_none m.undef hu
  have hLook := Mem.look_putAll (b := x) (d := d.map (·.1)) (a := a) h
  rw [if_neg (by simp; omega)] at hLook
  rw [Mem.byte, Mem.byte, hUndef, hu]
  exact hLook

/-- A sector is poisoned by a poisoned byte written into it, and otherwise stays so unless it is written whole. -/
theorem poisoned_write (m : Mem) (a : Nat) (d : List PByte) (k : Nat) :
    (m.write a d).poisoned.contains k = true ↔
      (∃ i, i < d.length ∧ (d.getD i (0, false)).2 = true ∧ sectorOf (a + i) = k) ∨
      (m.poisoned.contains k = true ∧ ¬(a ≤ 64 * k ∧ 64 * k + 64 ≤ a + d.length)) := by
  have hBad : k ∈ ((List.range d.length).filter (fun i => (d.getD i (0, false)).2)).map (fun i => sectorOf (a + i)) ↔
      ∃ i, i < d.length ∧ (d.getD i (0, false)).2 = true ∧ sectorOf (a + i) = k := by simp [and_assoc]
  rw [← hBad]
  simp only [Mem.write, List.contains_iff_mem, List.mem_append, List.mem_filter, List.mem_eraseDups, Bool.or_eq_true, Bool.not_eq_true',
    ← Bool.not_eq_true, decide_eq_true_eq]
  tauto

/-- Settles O10. -/
theorem memoryReadsWhatWasWritten : Obligations.MemoryReadsWhatWasWritten :=
  fun m a d h => ⟨Mem.write_wf h a d, fun _ hi => byte_write_inside h hi, fun _ hx hu => byte_write_outside h hx hu, poisoned_write m a d⟩

/-! ### Statuses -/

/-- Settles O11: the status is the first of the precedence that the list holds. -/
theorem recordStatusFollowsPrecedence : Obligations.RecordStatusFollowsPrecedence := by
  refine ⟨rfl, rfl, fun l => ⟨fun k s hk hs hFirst => ?_, fun hNone => ?_⟩⟩
  · obtain ⟨hlt, rfl⟩ := List.getElem?_eq_some_iff.mp hk
    have hFind : precedence.find? (fun t => l.contains t) = some precedence[k] :=
      List.find?_eq_some_iff_getElem.mpr ⟨by simpa using hs, k, hlt, rfl, fun j hj => by
        simpa using hFirst j _ hj (List.getElem?_eq_getElem (hj.trans hlt))⟩
    rw [recordStatus, hFind, Option.getD_some]
  · have hFind : precedence.find? (fun t => l.contains t) = none := List.find?_eq_none.mpr fun s hs => by simpa using hNone s hs
    rw [recordStatus, hFind, Option.getD_none]

end Sys2Proof.Machine
end

section
/-! SUPPORT. Counters, raised error records, executed requests, and one cycle of CK_ROOT. -/
namespace Sys2Proof.Machine

/-! ### Counters -/

/-- Keys of counters are apart where either the counter or the subindex differs. -/
theorem counterKey_inj {c k c' k' : Nat} (hk : k < 256) (hk' : k' < 256) : 256 * c' + k' = 256 * c + k ↔ c' = c ∧ k' = k := by omega

theorem counter_bump (b : Blk) {c k c' k' : Nat} (n : Nat) (hk : k < 256) (hk' : k' < 256) :
    counter (bump c k n b) c' k' = if c' = c ∧ k' = k then (counter b c k + n) % 2 ^ 64 else counter b c' k' := by
  simp only [counter, bump, Tbl.get_set, counterKey_inj hk hk']

/-- A counter with a lower number is not the one that a subindex, however high, reaches. -/
theorem counter_bump_of_lt (b : Blk) {c k c' k' : Nat} (n : Nat) (h : c' < c) (hk' : k' < 256) :
    counter (bump c k n b) c' k' = counter b c' k' := by
  simp only [counter, bump, Tbl.get_set, if_neg (by omega : ¬256 * c' + k' = 256 * c + k)]

/-- Settles O13: one entry of the sparse table of counters is set. -/
theorem counterAddsModulo64 : Obligations.CounterAddsModulo64 :=
  fun b _ _ n _ _ hk hk' => ⟨counter_bump b n hk hk', rfl⟩

/-! ### Error records -/

/-- What a raised record does to the error records, and that it changes the counters alone beside them. -/
theorem raise_err (r : ErrRec) (b : Blk) : (raise r b).err = { b.err with
    staging := (if 64 ≤ b.err.staging.length then b.err.staging.drop 1 else b.err.staging)
      ++ [({ r with aon := b.clk.aon % 2 ^ 64, die := b.ident.die }, b.clk.half)]
    errLost := b.err.errLost + (if 64 ≤ b.err.staging.length then 1 else 0) } := by
  simp only [raise, decide_eq_true_eq]
  split <;> split <;> split <;> rfl

@[simp] theorem counter_withErr (b : Blk) (e : Errs) (c k : Nat) : counter { b with err := e } c k = counter b c k := rfl

/-- Every raised record counts for the block. -/
theorem counter_raise_errRecords (r : ErrRec) (b : Blk) :
    counter (raise r b) Ctr.errRecords 0 = (counter b Ctr.errRecords 0 + 1) % 2 ^ 64 := by
  simp only [raise]
  split <;> split <;> split <;>
    simp [counter_bump_of_lt, counter_bump, Ctr.errRecords, Ctr.errStagingLost, Ctr.errCtxRecords, Ctr.errShared]

/-- A record that finds the sack full counts the one that it pushes out. -/
theorem counter_raise_errStagingLost (r : ErrRec) {b : Blk} (h : 64 ≤ b.err.staging.length) :
    counter (raise r b) Ctr.errStagingLost 0 = (counter b Ctr.errStagingLost 0 + 1) % 2 ^ 64 := by
  simp only [raise, decide_eq_true h, if_true]
  split <;> split <;>
    simp [counter_bump_of_lt, counter_bump, Ctr.errRecords, Ctr.errStagingLost, Ctr.errCtxRecords, Ctr.errShared]

/-- A record that names a context counts for it. -/
theorem counter_raise_errCtxRecords {r : ErrRec} (b : Blk) {x : Nat} (hr : r.ctx = some x) (hx : x < 256) :
    counter (raise r b) Ctr.errCtxRecords x = (counter b Ctr.errCtxRecords x + 1) % 2 ^ 64 := by
  simp only [raise, hr]
  split <;> split <;> simp [counter_bump, hx, Ctr.errRecords, Ctr.errStagingLost, Ctr.errCtxRecords, Ctr.errShared]

theorem raise_eq (r : ErrRec) (b : Blk) : raise r b = { b with err := (raise r b).err, lan := (raise r b).lan } := by
  simp only [raise]
  split <;> split <;> split <;> rfl

/-- Settles O14. -/
theorem errorRecordEntersStaging : Obligations.ErrorRecordEntersStaging :=
  fun b r => ⟨by rw [raise_err], by rw [raise_err], by rw [raise_err], counter_raise_errRecords r b, counter_raise_errStagingLost r,
    fun _ => counter_raise_errCtxRecords b, raise_eq r b⟩

/-! ### Requests -/

/-- The block after the head request has left the sack, counted, with its source noted as `src`. -/
def Blk.tookHead (b : Blk) (src : Nat) : Blk :=
  (countObj Obj.mgmtRequests { b with mg := { b.mg with sack := b.mg.sack.drop 1, fwd := none } }).setObj Obj.mgmtLastSource src

theorem obj_tookHead_requests (b : Blk) (src : Nat) :
    (b.tookHead src).obj Obj.mgmtRequests 0 = (b.obj Obj.mgmtRequests 0 + 1) % 2 ^ 64 := by
  have hKey : Obj.mgmtRequests ≠ Obj.mgmtLastSource := by decide
  simp [Blk.tookHead, countObj, hKey]
  rfl

theorem obj_tookHead_source (b : Blk) (src : Nat) : (b.tookHead src).obj Obj.mgmtLastSource 0 = src := by simp [Blk.tookHead]

theorem finishReq_i3c {r : Req} (body : List Byte) (b : Blk) (hf : r.fwd = none) (hb : r.bi = .i3c) : finishReq r body b =
    { b.tookHead r.eid with mg := { (b.tookHead r.eid).mg with responses := b.mg.responses ++ [relrokBytes body] } } := by
  simp only [finishReq, reply, hf, hb]
  rfl

theorem finishReq_inBand {r : Req} (body : List Byte) (b : Blk) (hf : r.fwd = none) (hb : r.bi = .inBand) : finishReq r body b =
    { b.tookHead (r.eid + 256) with out := if b.host.state = 0 then b.out ++ [.mctpMessage .inBand r.eid (relrokBytes body)] else b.out } := by
  by_cases h : b.host.state = 0 <;> simp only [finishReq, reply, hf, hb] <;> simp [h, Blk.tookHead, countObj] <;> rfl

/-- Settles O15, by the binding that the request came by. -/
theorem requestIsCountedAndAnswered : Obligations.RequestIsCountedAndAnswered := by
  intro b r body hf
  cases hb : r.bi with
  | i3c =>
    rw [finishReq_i3c body b hf hb]
    exact ⟨rfl, rfl, obj_tookHead_requests b _, fun _ => ⟨obj_tookHead_source b _, rfl, rfl⟩, nofun, rfl⟩
  | inBand =>
    rw [finishReq_inBand body b hf hb]
    exact ⟨rfl, rfl, obj_tookHead_requests b _, nofun, fun _ => ⟨obj_tookHead_source b _, rfl, rfl⟩, rfl⟩

/-! ### One cycle of CK_ROOT -/

/-- The block but for its counters. -/
def Blk.withoutLan (b : Blk) : Blk := { b with lan := {} }

theorem eq_of_withoutLan {b c : Blk} (h : c.withoutLan = b.withoutLan) : c = { b with lan := c.lan } := by
  cases b
  cases c
  simpa [Blk.withoutLan] using h

theorem withoutLan_ite_bump (on : Bool) (c : Nat) (b : Blk) : (if on then bump c 0 1 b else b).withoutLan = b.withoutLan := by
  cases on <;> rfl

theorem withoutLan_foldl_bump (c : Nat) (l : List Nat) (b : Blk) :
    (l.foldl (fun x k => bump c k 1 x) b).withoutLan = b.withoutLan := foldl_keeps Blk.withoutLan (fun x k => bump c k 1 x) (fun _ _ => rfl) l b

theorem withoutLan_coreCycle (b : Blk) : (coreCycle b).withoutLan = b.withoutLan := by
  simp only [coreCycle, withoutLan_foldl_bump, withoutLan_ite_bump]

theorem withoutLan_halfCycle (b : Blk) : (halfCycle b).withoutLan = b.withoutLan := withoutLan_foldl_bump _ _ b

theorem withoutLan_d2dCycle (b : Blk) : (d2dCycle b).withoutLan = b.withoutLan := withoutLan_foldl_bump _ _ b

/-- The counts kept per cycle, the clocks and the stamp are all that a cycle changes before the rechecks. -/
theorem counted_eq (b : Blk) : counted b = { b with clk := nextClocks b, stamp := b.stamp + 1, lan := (counted b).lan } := by
  refine eq_of_withoutLan (b := { b with clk := nextClocks b, stamp := b.stamp + 1 }) ?_
  simp only [counted, apply_ite Blk.withoutLan, withoutLan_d2dCycle, withoutLan_halfCycle, withoutLan_coreCycle, ite_self]

theorem recheckAgain_of_none {b : Blk} (h : ∀ p ∈ b.xlat.parked, p.again = none) : recheckAgain b = b := by
  have hFold : ∀ l : List Parked, (∀ p ∈ l, p.again = none) → l.foldl (fun b p => match p.again with
      | some abort => recheck abort p b
      | none => b) b = b := by
    intro l hl
    induction l with
    | nil => rfl
    | cons p t ih =>
      rw [List.foldl_cons, hl p (by simp)]
      exact ih fun q hq => hl q (by simp [hq])
  exact hFold _ h

theorem effFaultBatchTimer_of_empty {b : Blk} (h : b.xlat.staging = []) : effFaultBatchTimer b = b := by
  simp [effFaultBatchTimer, batchDue, h]

theorem nextClocks_of_live {s : State} (hl : Live s) :
    (nextClocks s.b).root = s.b.clk.root + 1 ∧
    (nextClocks s.b).core = s.b.clk.core + (if (s.b.clk.root + 1) % 4 = 0 then 1 else 0) ∧
    (nextClocks s.b).half = s.b.clk.half + (if (s.b.clk.root + 1) % 8 = 0 then 1 else 0) ∧
    (nextClocks s.b).qtr = s.b.clk.qtr + (if (s.b.clk.root + 1) % 16 = 0 then 1 else 0) ∧
    (nextClocks s.b).mgmt = s.b.clk.mgmt + (if (s.b.clk.root + 1) % 72 = 0 then 1 else 0) := by
  simp [nextClocks, dividing_of_live hl]

/-- An idle cycle without a recheck or a fault batch. -/
theorem idleCycle_eq {b : Blk} (hs : b.xlat.staging = []) (hq : ∀ p ∈ b.xlat.parked, p.again = none) :
    pruneReach (effFaultBatchTimer (recheckAgain (counted b))) = { b with
      clk := nextClocks b, stamp := b.stamp + 1, lan := (counted b).lan
      ridge := { b.ridge with reach := b.ridge.reach.filter (fun e => awaited (counted b) e.1) } } := by
  have hx : (counted b).xlat = b.xlat := by rw [counted_eq]
  have hr : (counted b).ridge = b.ridge := by rw [counted_eq]
  rw [recheckAgain_of_none (by rwa [hx]), effFaultBatchTimer_of_empty (by rwa [hx]), pruneReach, hr]
  exact congrArg (fun c : Blk => { c with ridge := { b.ridge with reach := b.ridge.reach.filter (fun e => awaited (counted b) e.1) } }) (counted_eq b)

/-- Settles O2: the clocks by their dividers, and the rest from what a cycle without rechecks and batches changes. -/
theorem idleStepIsOneRootCycle : Obligations.IdleStepIsOneRootCycle := by
  intro s hl hp
  obtain ⟨hRoot, hCore, hHalf, hQtr, hMgmt⟩ := nextClocks_of_live hl
  refine ⟨step_of_idle hl hp, ?_⟩
  simp only [counted_clk]
  refine ⟨hRoot, hCore, hHalf, hQtr, hMgmt, counted_eq s.b, fun hs hq => ⟨_, step_of_idle hl hp, ?_⟩⟩
  rw [idleCycle_eq hs hq]
  exact ⟨hp, rfl, rfl, rfl, rfl, rfl, rfl, rfl, rfl, rfl, rfl⟩

end Sys2Proof.Machine
end

section
/-! SUPPORT. Descriptors by number, and what completing one does to the front end (R39, R42, R52, R55). -/
namespace Sys2Proof.Machine

/-! ### Descriptors by number -/

theorem desc?_id {b : Blk} {id : Nat} {d : Desc} (h : b.desc? id = some d) : d.id = id := by
  simpa using List.find?_some h

theorem desc?_mem {b : Blk} {id : Nat} {d : Desc} (h : b.desc? id = some d) : d ∈ b.front.descs := List.mem_of_find?_eq_some h

/-- A change of descriptors that leaves their numbers alone. -/
theorem find?_id_map {g : Desc → Desc} (hg : ∀ e, (g e).id = e.id) (i : Nat) (l : List Desc) :
    (l.map g).find? (fun d => d.id = i) = (l.find? (fun d => d.id = i)).map g := by
  rw [List.find?_map]
  congr 2
  funext e
  simp [hg]

theorem desc?_of_map {b c : Blk} {g : Desc → Desc} (hg : ∀ e, (g e).id = e.id) (h : c.front.descs = b.front.descs.map g) (i : Nat) :
    c.desc? i = (b.desc? i).map g := by
  rw [Blk.desc?, h, find?_id_map hg]
  rfl

theorem desc?_of_descs {b c : Blk} (h : c.front.descs = b.front.descs) (i : Nat) : c.desc? i = b.desc? i := by rw [Blk.desc?, h]; rfl

theorem desc?_modDesc {id : Nat} {f : Desc → Desc} (hf : ∀ e, e.id = id → (f e).id = id) (b : Blk) (i : Nat) :
    (b.modDesc id f).desc? i = (b.desc? i).map (fun e => if e.id = id then f e else e) := by
  refine desc?_of_map (fun e => ?_) rfl i
  by_cases h : e.id = id <;> simp [h, hf]

theorem desc?_modDesc_same {id : Nat} {f : Desc → Desc} (hf : ∀ e, e.id = id → (f e).id = id) {b : Blk} {d : Desc} (h : b.desc? id = some d) :
    (b.modDesc id f).desc? id = some (f d) := by
  rw [desc?_modDesc hf, h, Option.map_some, if_pos (desc?_id h)]

theorem desc?_modDesc_ne {id : Nat} {f : Desc → Desc} (hf : ∀ e, e.id = id → (f e).id = id) (b : Blk) {i : Nat} (hi : i ≠ id) :
    (b.modDesc id f).desc? i = b.desc? i := by
  rw [desc?_modDesc hf]
  cases h : b.desc? i with
  | none => rfl
  | some e => rw [Option.map_some, if_neg (by rw [desc?_id h]; exact hi)]

/-! ### Completion -/

@[simp] theorem slackRecord_front (d : Desc) (b : Blk) : (slackRecord d b).front = b.front := rfl

@[simp] theorem countUpdate_front (d : Desc) (b : Blk) : (countUpdate d b).front = b.front := by
  unfold countUpdate
  repeat' split
  all_goals rfl

theorem noteInstance_front (d : Desc) (b : Blk) : ∃ bar, (noteInstance d b).front = { b.front with barDone := bar } := by
  unfold noteInstance
  split
  · exact ⟨_, rfl⟩
  · exact ⟨b.front.barDone, rfl⟩

/-- A descriptor as it stands once it is complete (R52). -/
def Desc.ended (d : Desc) : Desc :=
  { d with stage := .complete, work := .none, aux := if d.opcode = 0x03 ∧ recordStatus d.applying ≠ .ok then 0xFFFFFFFF else d.aux }

/-- Put the descriptor `d` in the place of the one with its number. -/
def putDesc (d : Desc) (l : List Desc) : List Desc := l.map (fun e => if e.id = d.id then d else e)

theorem find?_putDesc (d : Desc) (l : List Desc) (i : Nat) :
    (putDesc d l).find? (fun e => e.id = i) = (l.find? (fun e => e.id = i)).map (fun e => if e.id = d.id then d else e) :=
  find?_id_map (fun e => by by_cases h : e.id = d.id <;> simp [h]) i l

/-- Completing a descriptor ends it and queues its record; of the front end nothing else changes but what it notes of a barrier. -/
theorem complete1_front {b : Blk} {id : Nat} {d : Desc} (h : b.desc? id = some d) (hs : d.stage ≠ .complete) :
    ∃ bar, (complete1 id b).front = { b.front with
      descs := putDesc d.ended b.front.descs
      queues := b.front.queues.set d.q { b.q d.q with recq := (b.q d.q).recq ++ [.desc id] }
      barDone := bar } := by
  obtain rfl := desc?_id h
  rw [complete1, h]
  simp only [if_neg hs]
  generalize hd : (if d.opcode = 0x03 ∧ recordStatus d.applying ≠ .ok then { d with aux := 0xFFFFFFFF } else d) = e
  have hEnded : d.ended = { e with stage := .complete, work := .none } := by
    rw [← hd, Desc.ended]
    split <;> rfl
  have hId : e.id = d.id := by rw [← hd]; split <;> rfl
  have hQ : e.q = d.q := by rw [← hd]; split <;> rfl
  obtain ⟨bar, hBar⟩ := noteInstance_front e
    ((if e.opcode = 0x03 then slackRecord e (b.modDesc d.id (fun _ => e)) else b.modDesc d.id (fun _ => e)).modDesc d.id
      (fun d => { d with stage := .complete, work := .none }))
  refine ⟨bar, ?_⟩
  have hFront : ∀ x : Blk, (countUpdate d (if e.opcode = 0x02 ∨ e.opcode = 0x03 then pegRamp x else x)).front = x.front := fun x => by
    rw [countUpdate_front]
    split <;> simp
  have hDescs : (b.front.descs.map (fun x => if x.id = d.id then e else x)).map
      (fun x => if x.id = d.id then { x with stage := Stage.complete, work := Work.none } else x) = putDesc d.ended b.front.descs := by
    rw [putDesc, List.map_map]
    refine List.map_congr_left fun x _ => ?_
    by_cases hx : x.id = d.id <;> simp [hx, hId, hEnded]
  simp only [modQ_front, hFront, hBar, hQ, Blk.q]
  split <;> simp [hDescs]

theorem desc?_complete1 {b : Blk} {id : Nat} {d : Desc} (h : b.desc? id = some d) (hs : d.stage ≠ .complete) (i : Nat) :
    (complete1 id b).desc? i = (b.desc? i).map (fun e => if e.id = id then d.ended else e) := by
  obtain ⟨bar, hf⟩ := complete1_front h hs
  obtain rfl := desc?_id h
  rw [Blk.desc?, hf]
  exact find?_putDesc d.ended b.front.descs i

theorem q_complete1 {b : Blk} {id : Nat} {d : Desc} (h : b.desc? id = some d) (hs : d.stage ≠ .complete) (n : Nat) :
    (complete1 id b).q n = if n = d.q then { b.q d.q with recq := (b.q d.q).recq ++ [.desc id] } else b.q n := by
  obtain ⟨bar, hf⟩ := complete1_front h hs
  rw [Blk.q, hf]
  exact Tbl.get_set ..

/-- A descriptor behind which no other waits completes alone. -/
theorem complete_of_alone {b : Blk} {id : Nat} (h : ∀ e ∈ b.front.descs, e.behind ≠ some id) : complete id b = complete1 id b := by
  have hLate : b.front.descs.filter (fun d => d.behind = some id) = [] := List.filter_eq_nil_iff.mpr fun e he => by simpa using h e he
  simp only [complete, hLate, List.map_nil, List.foldl_nil]

/-- A descriptor with its status, AUX and DROPPED noted. -/
def Desc.noted (st : Status) (aux dropped : Nat) (d : Desc) : Desc :=
  { d with aux := aux, dropped := dropped, statuses := if d.statuses.contains st then d.statuses else d.statuses ++ [st] }

/-- What `completeWith` completes. -/
theorem noteWith_descs (id : Nat) (st : Status) (aux dropped : Nat) (b : Blk) :
    ((addStatus id st b).modDesc id (fun d => { d with aux := aux, dropped := dropped })).front =
      { b.front with descs := b.front.descs.map (fun e => if e.id = id then e.noted st aux dropped else e) } := by
  simp only [addStatus, modDesc_front, List.map_map]
  congr 1
  refine List.map_congr_left fun e _ => ?_
  by_cases he : e.id = id <;> by_cases hc : st ∈ e.statuses <;> simp [he, hc, Desc.noted]

theorem completeWith_of_alone {b : Blk} {id : Nat} (st : Status) (aux dropped : Nat) (h : ∀ e ∈ b.front.descs, e.behind ≠ some id) :
    completeWith id st aux dropped b =
      complete1 id ((addStatus id st b).modDesc id (fun d => { d with aux := aux, dropped := dropped })) := by
  refine complete_of_alone fun e he => ?_
  rw [noteWith_descs] at he
  obtain ⟨x, hx, rfl⟩ := List.mem_map.mp he
  have := h x hx
  by_cases hi : x.id = id <;> simpa [hi, Desc.noted] using this

theorem desc?_noteWith {b : Blk} {id : Nat} {d : Desc} (st : Status) (aux dropped : Nat) (h : b.desc? id = some d) :
    ((addStatus id st b).modDesc id (fun d => { d with aux := aux, dropped := dropped })).desc? id = some (d.noted st aux dropped) := by
  rw [desc?_of_map (b := b) (g := fun e => if e.id = id then e.noted st aux dropped else e) (fun e => ?_) (by rw [noteWith_descs]), h,
    Option.map_some, if_pos (desc?_id h)]
  by_cases he : e.id = id <;> simp [he, Desc.noted]

/-- Completing with a status a descriptor that no other waits behind: what changes of the front end. -/
theorem completeWith_front {b : Blk} {id : Nat} {d : Desc} (st : Status) (aux dropped : Nat) (h : b.desc? id = some d)
    (hs : d.stage ≠ .complete) (ha : ∀ e ∈ b.front.descs, e.behind ≠ some id) :
    ∃ bar, (completeWith id st aux dropped b).front = { b.front with
      descs := putDesc (d.noted st aux dropped).ended b.front.descs
      queues := b.front.queues.set d.q { b.q d.q with recq := (b.q d.q).recq ++ [.desc id] }
      barDone := bar } := by
  obtain ⟨bar, hf⟩ := complete1_front (desc?_noteWith st aux dropped h) hs
  obtain rfl := desc?_id h
  have hDescs : putDesc (d.noted st aux dropped).ended (b.front.descs.map (fun e => if e.id = d.id then e.noted st aux dropped else e)) =
      putDesc (d.noted st aux dropped).ended b.front.descs := by
    rw [putDesc, putDesc, List.map_map]
    refine List.map_congr_left fun e _ => ?_
    by_cases he : e.id = d.id <;> simp [he, Desc.noted, Desc.ended]
  refine ⟨bar, ?_⟩
  rw [completeWith_of_alone st aux dropped ha, hf]
  simp only [Blk.q, noteWith_descs, hDescs]
  rfl

theorem q_completeWith {b : Blk} {id : Nat} {d : Desc} (st : Status) (aux dropped : Nat) (h : b.desc? id = some d)
    (hs : d.stage ≠ .complete) (ha : ∀ e ∈ b.front.descs, e.behind ≠ some id) (n : Nat) :
    (completeWith id st aux dropped b).q n = if n = d.q then { b.q d.q with recq := (b.q d.q).recq ++ [.desc id] } else b.q n := by
  obtain ⟨bar, hf⟩ := completeWith_front st aux dropped h hs ha
  rw [Blk.q, hf]
  exact Tbl.get_set ..

theorem desc?_completeWith {b : Blk} {id : Nat} {d : Desc} (st : Status) (aux dropped : Nat) (h : b.desc? id = some d)
    (hs : d.stage ≠ .complete) (ha : ∀ e ∈ b.front.descs, e.behind ≠ some id) (i : Nat) :
    (completeWith id st aux dropped b).desc? i = (b.desc? i).map (fun e => if e.id = id then (d.noted st aux dropped).ended else e) := by
  obtain ⟨bar, hf⟩ := completeWith_front st aux dropped h hs ha
  obtain rfl := desc?_id h
  rw [Blk.desc?, hf]
  exact find?_putDesc _ b.front.descs i

theorem desc?_completeWith_same {b : Blk} {id : Nat} {d : Desc} (st : Status) (aux dropped : Nat) (h : b.desc? id = some d)
    (hs : d.stage ≠ .complete) (ha : ∀ e ∈ b.front.descs, e.behind ≠ some id) :
    (completeWith id st aux dropped b).desc? id = some (d.noted st aux dropped).ended := by
  rw [desc?_completeWith st aux dropped h hs ha, h, Option.map_some, if_pos (desc?_id h)]

theorem desc?_completeWith_ne {b : Blk} {id : Nat} {d : Desc} (st : Status) (aux dropped : Nat) (h : b.desc? id = some d)
    (hs : d.stage ≠ .complete) (ha : ∀ e ∈ b.front.descs, e.behind ≠ some id) {i : Nat} (hi : i ≠ id) :
    (completeWith id st aux dropped b).desc? i = b.desc? i := by
  rw [desc?_completeWith st aux dropped h hs ha]
  cases he : b.desc? i with
  | none => rfl
  | some e => rw [Option.map_some, if_neg (by rw [desc?_id he]; exact hi)]

/-- Settles O12: the front end from what completing one descriptor changes, the rest from what a completion leaves alone. -/
theorem completionQueuesOneRecord : Obligations.CompletionQueuesOneRecord := by
  intro b id aux dropped st d h hs ha
  obtain ⟨bar, hf⟩ := completeWith_front st aux dropped h hs ha
  have hq := q_completeWith st aux dropped h hs ha
  refine ⟨(desc?_completeWith_same st aux dropped h hs ha).trans rfl, fun i hi => desc?_completeWith_ne st aux dropped h hs ha hi, ?_, ?_, ?_,
    fun n hn => by rw [hq, if_neg hn], ?_, ?_, ?_, by simp, by simp, by simp, by simp, by simp, by simp, by simp, by simp, by simp, by simp,
    by simp, by simp, by simp⟩
  · rw [hq, if_pos rfl]
  · rw [hq, if_pos rfl]
  · rw [hq, if_pos rfl]
  · rw [hf]
  · rw [hf]
  · rw [hf]

end Sys2Proof.Machine
end

section
/-! SUPPORT. The registers of a doorbell page (R27 to R30, R43, R44): a write that reaches the queue, and one that stays outside. -/
namespace Sys2Proof.Machine

theorem okFnQ_of_lt {fn q : Nat} (hf : fn < 64) (hq : q < 256) : (decide (fn < 64) && decide (q < 256)) = true := by simp [hf, hq]

/-- A write that reaches the queue is applied to it. -/
theorem pageWrite_of_served {s : State} {fn q : Nat} (h : Served s fn q) (off : Nat) (v : W64) (f : Blk → Blk) :
    pageWrite fn q off v f s.b = f s.b := by
  obtain ⟨-, -, -, hr, ho, hd, hn⟩ := h
  simp only [pageWrite, pageShut, hr, ho, hd, hn, Bool.not_true, Bool.false_and, Bool.false_eq_true, if_false]

/-! ### DOORBELL -/

theorem ringSize_lt (x : Queue) : x.ringSize < 2 ^ 32 := by
  have hLog : x.ringLog2 < 32 := Nat.mod_lt _ (by decide)
  exact Nat.pow_lt_pow_right (by decide) hLog

/-- The count from `base` on that 32 bits name. -/
def tailFrom (base w : Nat) : Nat := base + (w % 2 ^ 32 + 2 ^ 32 - base % 2 ^ 32) % 2 ^ 32

theorem tailFrom_mod (base w : Nat) : tailFrom base w % 2 ^ 32 = w % 2 ^ 32 := by
  unfold tailFrom
  omega

theorem le_tailFrom (base w : Nat) : base ≤ tailFrom base w := Nat.le_add_right _ _

/-- It is the only one within less than 2^32. -/
theorem tailFrom_eq {base w t limit : Nat} (ht : t % 2 ^ 32 = w % 2 ^ 32) (hb : base ≤ t) (hl : t ≤ base + limit) (hLimit : limit < 2 ^ 32) :
    tailFrom base w = t := by
  unfold tailFrom
  omega

/-- What an accepted DOORBELL makes of its queue. -/
def Queue.takeTail (t : Nat) (y : Queue) : Queue :=
  let z := { y with tail := t, short := false }
  if z.stopping = true then z else if z.st = .stalledEarly then pollNow { z with st := .running }
    else if z.poll ≠ none then pollNow z else z

/-- What an earlier poll of the queue has outstanding is ignored. -/
def dropPolled (x : Queue) (q : Nat) (b : Blk) : Blk :=
  if x.stopping = false ∧ (x.st = .stalledEarly ∨ x.poll ≠ none) then dropReads (.fetch q) b else b

theorem q_dropPolled (x : Queue) (q : Nat) (b : Blk) (n : Nat) : (dropPolled x q b).q n = b.q n := by
  unfold dropPolled
  split <;> rfl

/-- The first count that a DOORBELL may name, and how many lie behind it. -/
def tailBase (b : Blk) (q : Nat) : Nat := if (b.q q).persistent then replaysDone b q else (b.q q).fetch
def tailLimit (x : Queue) : Nat := if x.persistent then 65536 else x.ringSize

theorem tailLimit_lt (x : Queue) : tailLimit x < 2 ^ 32 := by
  unfold tailLimit
  split
  · decide
  · exact ringSize_lt x

theorem doorbellHere_of_ignored {b : Blk} {q : Nat} {v : W64}
    (h : b.released = false ∨ (b.q q).st = .unbound ∨ (b.q q).st = .bindErr ∨ (b.q q).st = .draining) : doorbellHere q v b = b := by
  unfold doorbellHere
  rcases h with h | h | h | h <;> simp [h]

/-- DOORBELL of a bound queue of a released block, by whether its count is taken. -/
theorem doorbellHere_of_bound {b : Blk} {q : Nat} {v : W64} (hr : b.released = true) (h1 : (b.q q).st ≠ .unbound)
    (h2 : (b.q q).st ≠ .bindErr) (h3 : (b.q q).st ≠ .draining) :
    let x := b.q q
    let t := tailFrom (tailBase b q) v.toNat
    let ep := bitsOf v.toNat 39 32
    doorbellHere q v b = if tailLimit x < t - tailBase b q ∨ t < x.tail then
        bump Ctr.doorbellRejected q 1 (raise { cause := 0x01, ctx := some x.ctx, queue := some q, unit := 0, detail := v.toNat } b)
      else (dropPolled x q (if ep ≠ x.epoch then
        (cancelRange q (bitsOf v.toNat 63 48) ep none b).modQ q (fun x => { x with epoch := ep }) else b)).modQ q (Queue.takeTail t) := by
  have hTake : ∀ t : Nat, Queue.takeTail t = fun x : Queue =>
      let y := { x with tail := t, short := false }
      if x.stopping then y else if x.st = .stalledEarly then pollNow { y with st := .running } else if x.poll.isSome then pollNow y else y := by
    intro t
    funext x
    cases hp : x.poll <;> simp [Queue.takeTail, hp]
  have hDrop : ∀ c : Blk, dropPolled (b.q q) q c =
      if !(b.q q).stopping && ((b.q q).st == .stalledEarly || (b.q q).poll.isSome) then dropReads (.fetch q) c else c := by
    intro c
    cases hp : (b.q q).poll <;> simp [dropPolled, hp]
  simp only [hTake, hDrop]
  unfold doorbellHere
  cases hs : (b.q q).st <;> simp_all [tailFrom, tailBase, tailLimit]

theorem exec_doorbell_of_served {s : State} {fn q : Nat} (h : Served s fn q) (v : W64) :
    exec (.doorbell fn q v) s = .next (s.after (doorbellHere q v s.b)) := by
  have ⟨hl, hf, hq, _⟩ := h
  exact (fireReady_live hl (okFnQ_of_lt hf hq)).trans (by rw [effDoorbell, pageWrite_of_served h])

/-- Settles O17: the count that the 32 bits of TAIL name is the only one in the ring. -/
theorem doorbellSetsTailOrIsRejected : Obligations.DoorbellSetsTailOrIsRejected := by
  intro s fn q v h
  refine ⟨fun hi => by rw [exec_doorbell_of_served h, doorbellHere_of_ignored hi], fun hr h1 h2 h3 => ⟨fun t ht hb hl htail => ?_, fun hNone => ?_⟩⟩
  · have hTail := tailFrom_eq ht hb hl (tailLimit_lt (s.b.q q))
    have hTaken : ¬(tailLimit (s.b.q q) < t - tailBase s.b q ∨ t < (s.b.q q).tail) := by
      have : t ≤ tailBase s.b q + tailLimit (s.b.q q) := hl
      omega
    have hDoor := doorbellHere_of_bound (v := v) hr h1 h2 h3
    simp only [show tailFrom (tailBase s.b q) v.toNat = t from hTail, if_neg hTaken] at hDoor
    refine ⟨fun he => ?_, fun he => ?_⟩ <;> rw [exec_doorbell_of_served h, hDoor]
    · rw [if_neg (by simpa using he), Blk.modQ, q_dropPolled]
      rfl
    · rw [if_pos he]
      rfl
  · have hRej : tailLimit (s.b.q q) < tailFrom (tailBase s.b q) v.toNat - tailBase s.b q ∨ tailFrom (tailBase s.b q) v.toNat < (s.b.q q).tail := by
      by_cases hLim : tailLimit (s.b.q q) < tailFrom (tailBase s.b q) v.toNat - tailBase s.b q
      · exact .inl hLim
      · have hIn : tailFrom (tailBase s.b q) v.toNat ≤ tailBase s.b q + tailLimit (s.b.q q) := by omega
        exact .inr (hNone _ (tailFrom_mod _ _) (le_tailFrom _ _) hIn)
    rw [exec_doorbell_of_served h, doorbellHere_of_bound hr h1 h2 h3]
    simp only [if_pos hRej]

end Sys2Proof.Machine
end

section
/-! SUPPORT. The other registers of a doorbell page (R27, R29, R407), and the writes of a page that do not reach a queue of this die (R241, R265,
R270). -/
namespace Sys2Proof.Machine

/-! ### Writes that reach the queue -/

theorem servedBy_of_served {s : State} {fn q : Nat} (h : Served s fn q) : servedBy s.b q = s.b.ident.die := by
  obtain ⟨-, -, -, -, -, -, hn⟩ := h
  simp [servedBy, hn]

section
variable {s : State} {fn q : Nat} (h : Served s fn q)
include h

theorem exec_start_of_served : exec (.start fn q) s = .next (s.after (startHere q s.b)) := by
  have ⟨hl, hf, hq, _⟩ := h
  exact (fireReady_live hl (okFnQ_of_lt hf hq)).trans (by rw [effStart, pageWrite_of_served h])

theorem exec_stop_of_served : exec (.stop fn q) s = .next (s.after (stopHere q s.b)) := by
  have ⟨hl, hf, hq, _⟩ := h
  exact (fireReady_live hl (okFnQ_of_lt hf hq)).trans (by rw [effStop, pageWrite_of_served h])

theorem exec_qreset_of_served : exec (.qreset fn q) s = .next (s.after (qresetHere q s.b)) := by
  have ⟨hl, hf, hq, _⟩ := h
  exact (fireReady_live hl (okFnQ_of_lt hf hq)).trans (by rw [effQreset, pageWrite_of_served h])

theorem exec_unbind_of_served : exec (.unbind fn q) s = .next (s.after (unbindHere q s.b)) := by
  have ⟨hl, hf, hq, _⟩ := h
  refine (fireReady_live hl (okFnQ_of_lt hf hq)).trans ?_
  simp only [effUnbind, pageWrite_of_served h, servedBy_of_served h, ne_eq, not_true, decide_false, Bool.and_false, Bool.false_eq_true, if_false]

theorem exec_cqHeadWrite_of_served (v : W64) : exec (.cqHeadWrite fn q v) s = .next (s.after (s.b.modQ q (fun x => { x with cqHead := v }))) := by
  have ⟨hl, hf, hq, _⟩ := h
  exact (fireReady_live hl (okFnQ_of_lt hf hq)).trans (by rw [effCqHeadWrite, pageWrite_of_served h])

/-- A QCFG that keeps the queue on this die, or that is not valid, is applied here. -/
theorem exec_qcfgWrite_here {v : W64} (hd : bitsOf v.toNat 23 22 = s.b.ident.die ∨ qcfgFields s.b fn q (v &&& qcfgMask) = false) :
    exec (.qcfgWrite fn q v) s = .next (s.after (qcfgHere fn q v s.b)) := by
  have ⟨hl, hf, hq, _⟩ := h
  refine (fireReady_live hl (okFnQ_of_lt hf hq)).trans ?_
  rw [effQcfgWrite, servedBy_of_served h, pageWrite_of_served h, if_neg]
  rcases hd with hd | hd <;> simp [hd]

/-- A valid QCFG that names another die, by the state of the queue. -/
theorem exec_qcfgWrite_away {v : W64} (hd : bitsOf v.toNat 23 22 ≠ s.b.ident.die) (hv : qcfgFields s.b fn q (v &&& qcfgMask) = true) :
    exec (.qcfgWrite fn q v) s = .next (s.after (match (s.b.q q).st with
      | .unbound | .stopped | .bindErr => moveQueue s.b.ident.die fn q v s.b
      | _ => s.b)) := by
  have ⟨hl, hf, hq, hr, ho, hdis, _⟩ := h
  refine (fireReady_live hl (okFnQ_of_lt hf hq)).trans ?_
  rw [effQcfgWrite, servedBy_of_served h, if_pos (by simp [hr, ho, hd, hv, pageShut, hdis])]
  simp only [if_true] <;> rfl

end

theorem exec_qcfgWrite_shut {s : State} {fn q : Nat} (h : Served s fn q) {v : W64}
    (hs : ¬((s.b.q q).st = .unbound ∨ (s.b.q q).st = .stopped ∨ (s.b.q q).st = .bindErr)) :
    exec (.qcfgWrite fn q v) s = .next (s.after s.b) := by
  by_cases hd : bitsOf v.toNat 23 22 = s.b.ident.die ∨ qcfgFields s.b fn q (v &&& qcfgMask) = false
  · rw [exec_qcfgWrite_here h hd, qcfgHere]
    cases hst : (s.b.q q).st <;> simp_all
  · rw [not_or, Bool.not_eq_false] at hd
    rw [exec_qcfgWrite_away h hd.1 hd.2]
    cases hst : (s.b.q q).st <;> simp_all

/-- The reserved bits that QCFG drops are not those of its die. -/
theorem bitsOf_and_qcfgMask (n : Nat) : bitsOf (n &&& qcfgMask.toNat) 23 22 = bitsOf n 23 22 := by
  have hMask : qcfgMask.toNat / 2 ^ 22 % 2 ^ 2 = 2 ^ 2 - 1 := by decide
  rw [bitsOf, bitsOf, Nat.and_div_two_pow, Nat.and_mod_two_pow, hMask, Nat.and_two_pow_sub_one_eq_mod, Nat.mod_mod]

@[simp] theorem q_dropReads (u : UnitRef) (b : Blk) (n : Nat) : (dropReads u b).q n = b.q n := rfl

theorem qcfgFields_of_valid {b : Blk} {fn q : Nat} {v : W64} (h : qcfgValid b fn q v = true) : qcfgFields b fn q v = true := by
  rw [qcfgValid, Bool.and_eq_true] at h
  exact h.1

/-- A queue whose STOP finds nothing in flight is STOPPED (R407). -/
theorem settleQueue_stopping {b : Blk} {q : Nat} {x : Queue} (hx : x.st = .running ∨ x.st = .stalledEarly) (hi : b.inflight q = 0) :
    settleQueue b.front.descs q { x with stopping := true, poll := none, burst := none } =
      { x with st := .stopped, stopping := false, poll := none, burst := none } := by
  have hIdle : b.front.descs.any (fun d => d.q = q) = false := by
    rw [Blk.inflight, List.length_eq_zero_iff, Blk.descsOf, List.filter_eq_nil_iff] at hi
    simpa using hi
  rcases hx with hx | hx <;> simp [settleQueue, hIdle, hx]

theorem stopHere_of_fetching {b : Blk} {q : Nat} (h : (b.q q).st = .running ∨ (b.q q).st = .stalledEarly) :
    stopHere q b = b.setQ q { b.q q with stopping := true, poll := none, burst := none } := by
  rcases h with h | h <;> simp only [stopHere, Blk.modQ, h]

theorem reachFail_withFront (b : Blk) (f : Front) (ctx chip die : Nat) : reachFail { b with front := f } ctx chip die = reachFail b ctx chip die := rfl

/-- Settles O18: each register by the state of its queue. -/
theorem queueControlsChangeState : Obligations.QueueControlsChangeState := by
  intro s fn q v h
  simp only
  refine ⟨fun hx => ?_, fun hx => ?_, fun hx => ?_, fun h1 h2 h3 => ?_, fun hx => ⟨_, exec_stop_of_served h, ?_, fun hi => ?_⟩, fun h1 h2 => ?_, fun hx => ?_,
    fun hx => ?_, fun hx => ?_, fun h1 h2 => ?_, exec_cqHeadWrite_of_served h v, fun hm hv hd => ?_, fun hm hv hd hr => ?_, fun hm hv => ?_,
    exec_qcfgWrite_shut h⟩
  · simp [exec_start_of_served h, startHere, hx, Blk.modQ]
  · simp [exec_start_of_served h, startHere, hx, Blk.modQ]
  · simp [exec_start_of_served h, startHere, hx, Blk.modQ]
  · rw [exec_start_of_served h, startHere]
    cases hst : (s.b.q q).st <;> simp_all [Blk.modQ]
  · rw [stopHere_of_fetching hx]
  · rw [stopHere_of_fetching hx, after_b, q_settle, q_setQ, if_pos rfl]
    exact settleQueue_stopping hx hi
  · rw [exec_stop_of_served h, stopHere]
    cases hst : (s.b.q q).st <;> simp_all [Blk.modQ]
  · simp [exec_qreset_of_served h, qresetHere, hx, Blk.modQ]
  · rw [exec_qreset_of_served h, qresetHere]
    cases hst : (s.b.q q).st <;> simp_all [Blk.modQ]
  · rcases hx with hx | hx <;> simp [exec_unbind_of_served h, unbindHere, hx]
  · rw [exec_unbind_of_served h, unbindHere]
    cases hst : (s.b.q q).st <;> simp_all
  · rw [exec_qcfgWrite_here h (.inl hd), qcfgHere]
    rcases hm with hm | hm | hm <;> simp [hm, hv, bitsOf_and_qcfgMask, hd]
  · rw [exec_qcfgWrite_away h hd (qcfgFields_of_valid hv)]
    rcases hm with hm | hm | hm <;> simp [hm, moveQueue, hd, forwardWrite, reachFail_withFront, hr]
  · have hd : bitsOf v.toNat 23 22 = s.b.ident.die ∨ qcfgFields s.b fn q (v &&& qcfgMask) = false := by
      simp only [qcfgValid, BitVec.toNat_and, bitsOf_and_qcfgMask, Bool.and_eq_false_iff, Bool.not_eq_false', Bool.and_eq_true, beq_iff_eq] at hv
      tauto
    rw [exec_qcfgWrite_here h hd, qcfgHere]
    rcases hm with hm | hm | hm <;> simp [hm, hv]

/-! ### Writes that stay outside -/

section
variable {s : State} {fn q : Nat} (v : W64)

/-- The seven writes of a page, each as its effect on a live block. -/
theorem exec_page_cases (hl : Live s) (hf : fn < 64) (hq : q < 256) {c : Instr}
    (hc : c ∈ [Instr.doorbell fn q v, .qcfgWrite fn q v, .cqHeadWrite fn q v, .start fn q, .stop fn q, .qreset fn q, .unbind fn q])
    {r : Blk} (hPage : ∀ off w f, (off = 0x028 → c = .cqHeadWrite fn q v) → pageWrite fn q off w f s.b = r)
    (hOut : hostReaches s.b = false ∨ owns s.b fn q = false ∨ fnDisabled s.b fn = true) : exec c s = .next (s.after r) := by
  have hQcfg : (hostReaches s.b && owns s.b fn q && !pageShut s.b fn 0x008) = false := by
    rcases hOut with h | h | h <;> simp [h, pageShut]
  have hUnbind : (hostReaches s.b && owns s.b fn q && !pageShut s.b fn 0x038) = false := by
    rcases hOut with h | h | h <;> simp [h, pageShut]
  simp only [List.mem_cons, List.not_mem_nil, or_false] at hc
  rcases hc with rfl | rfl | rfl | rfl | rfl | rfl | rfl <;> refine (fireReady_live hl (okFnQ_of_lt hf hq)).trans ?_
  · rw [effDoorbell, hPage _ _ _ (by simp)]
  · rw [effQcfgWrite, if_neg (by simp [hQcfg]), hPage _ _ _ (by simp)]
  · rw [effCqHeadWrite, hPage _ _ _ (fun _ => rfl)]
  · rw [effStart, hPage _ _ _ (by simp)]
  · rw [effStop, hPage _ _ _ (by simp)]
  · rw [effQreset, hPage _ _ _ (by simp)]
  · rw [effUnbind, if_neg (by simp [hUnbind]), hPage _ _ _ (by simp)]

/-- A write to a queue that another die serves goes there, whatever it would do here. -/
theorem pageWrite_away (hr : hostReaches s.b = true) (ho : owns s.b fn q = true) (hd : fnDisabled s.b fn = false) {k d : Nat}
    (hq : s.b.front.queueDie.find? (fun e => e.1 = q) = some (k, d)) (off : Nat) (f : Blk → Blk) :
    pageWrite fn q off v f s.b = forwardWrite d 1 fn q off v s.b := by
  simp only [pageWrite, pageShut, hr, ho, hd, hq, Bool.not_true, Bool.false_and, Bool.false_eq_true, if_false]

theorem forwardWrite_of_reach {b : Blk} {d : Nat} (h : reachFail b 0 b.ident.chip d = none) (kind off : Nat) :
    forwardWrite d kind fn q off v b =
      sendMsg b.ident.chip d {} (.fwdWrite { kind := kind, fn := fn, queue := q, off := off, value := v }) b := by
  simp only [forwardWrite, h]

theorem forwardWrite_of_lost {b : Blk} {d : Nat} {e : Status} (h : reachFail b 0 b.ident.chip d = some e) (kind off : Nat) :
    forwardWrite d kind fn q off v b = fwdDropped d b := by
  simp only [forwardWrite, h]

end

/-- The writes to a queue that another die serves. -/
theorem exec_page_away {s : State} {fn q : Nat} (v : W64) (hl : Live s) (hf : fn < 64) (hq : q < 256) (hr : hostReaches s.b = true)
    (ho : owns s.b fn q = true) (hdis : fnDisabled s.b fn = false) {k d : Nat} (hk : s.b.front.queueDie.find? (fun e => e.1 = q) = some (k, d))
    (hd : d ≠ s.b.ident.die) :
    (∀ c off w, (c, off, w) ∈ [(Instr.doorbell fn q v, 0x000, v), (.cqHeadWrite fn q v, 0x028, v), (.start fn q, 0x038, 1#64),
        (.stop fn q, 0x038, 2#64), (.qreset fn q, 0x038, 4#64)] → exec c s = .next (s.after (forwardWrite d 1 fn q off w s.b))) ∧
    exec (.unbind fn q) s = .next (s.after (forwardRead d 1 fn q 0x030 (forwardWrite d 1 fn q 0x038 8#64 s.b))) ∧
    (¬(bitsOf v.toNat 23 22 ≠ d ∧ qcfgFields s.b fn q (v &&& qcfgMask) = true) →
      exec (.qcfgWrite fn q v) s = .next (s.after (forwardWrite d 1 fn q 0x008 v s.b))) ∧
    (bitsOf v.toNat 23 22 ≠ d ∧ qcfgFields s.b fn q (v &&& qcfgMask) = true → exec (.qcfgWrite fn q v) s = .next (s.after
      (if (reachFail s.b 0 s.b.ident.chip d).isSome then forwardRead d 1 fn q 0x030 s.b
        else forwardRead d 1 fn q 0x030 { s.b with d2d := { s.b.d2d with moves := s.b.d2d.moves ++ [(d, fn, q, v)] } }))) := by
  have hServed : servedBy s.b q = d := by simp [servedBy, hk]
  have hPage := fun off w f => pageWrite_away w hr ho hdis hk off f
  refine ⟨fun c off w hc => ?_, ?_, fun hm => ?_, fun hm => ?_⟩
  · simp only [List.mem_cons, Prod.mk.injEq, List.not_mem_nil, or_false] at hc
    rcases hc with ⟨rfl, rfl, rfl⟩ | ⟨rfl, rfl, rfl⟩ | ⟨rfl, rfl, rfl⟩ | ⟨rfl, rfl, rfl⟩ | ⟨rfl, rfl, rfl⟩ <;>
      refine (fireReady_live hl (okFnQ_of_lt hf hq)).trans ?_
    · rw [effDoorbell, hPage]
    · rw [effCqHeadWrite, hPage]
    · rw [effStart, hPage]
      rfl
    · rw [effStop, hPage]
      rfl
    · rw [effQreset, hPage]
      rfl
  · refine (fireReady_live hl (okFnQ_of_lt hf hq)).trans ?_
    rw [effUnbind, hPage, hServed, if_pos (by simp [hr, ho, pageShut, hdis, hd])]
    rfl
  · refine (fireReady_live hl (okFnQ_of_lt hf hq)).trans ?_
    rw [effQcfgWrite, hPage, hServed, if_neg (by simp [hr, ho, pageShut, hdis]; simpa using hm)]
  · refine (fireReady_live hl (okFnQ_of_lt hf hq)).trans ?_
    rw [effQcfgWrite, hServed, if_pos (by simp [hr, ho, pageShut, hdis]; simpa using hm)]
    simp only [if_neg hd]

/-- Settles O19: the page's checks in their order. -/
theorem pageWritesStayWithTheirFunction : Obligations.PageWritesStayWithTheirFunction := by
  intro s fn q v hl hf hq
  refine ⟨fun hr c hc => ?_, fun hr ho c hc => ?_, fun hr ho hd c hc hne => ?_, fun hr ho hdis k d hk hd => ?_, fun b d => ⟨fun h => ?_, fun h => ?_⟩⟩
  · exact exec_page_cases v hl hf hq hc (fun off w f _ => by simp [pageWrite, hr]) (.inl hr)
  · exact exec_page_cases v hl hf hq hc (fun off w f _ => by simp [pageWrite, hr, ho]) (.inr (.inl ho))
  · refine exec_page_cases v hl hf hq hc (fun off w f hoff => ?_) (.inr (.inr hd))
    have hOff : off ≠ 0x028 := fun h => hne (hoff h)
    simp [pageWrite, pageShut, hr, ho, hd, hOff]
  · obtain ⟨hPlain, hUnbind, hStay, hMove⟩ := exec_page_away v hl hf hq hr ho hdis hk hd
    refine ⟨fun hReach => ?_, fun e hLost => ?_⟩
    · simp only [forwardWrite_of_reach _ hReach] at hPlain hUnbind hStay
      simp only [hReach] at hMove
      exact ⟨hPlain, hUnbind, hStay, hMove⟩
    · simp only [forwardWrite_of_lost _ hLost] at hPlain hUnbind hStay
      simp only [hLost] at hMove
      exact ⟨hPlain, hUnbind, hStay, hMove⟩
  · simp only [forwardRead, h]
  · obtain ⟨e, he⟩ := Option.ne_none_iff_exists'.mp h
    simp only [forwardRead, he]
    rfl

end Sys2Proof.Machine
end

section
/-! SUPPORT. A queue that is changed twice, and the events of fetching (R35, R43). -/
namespace Sys2Proof

theorem Tbl.set_set {α : Type} (n : Nat) (x y : α) : ∀ t : Tbl α, Tbl.set (Tbl.set t n x) n y = Tbl.set t n y
  | [] => by simp [Tbl.set]
  | (k, v) :: t => by
    simp only [Tbl.set]
    split
    · simp [Tbl.set]
    · split
      · simp [Tbl.set]
      · rename_i h1 h2
        simp [Tbl.set, h1, h2, Tbl.set_set n x y t]

end Sys2Proof

namespace Sys2Proof.Machine

@[simp] theorem setQ_setQ (b : Blk) (n : Nat) (x y : Queue) : (b.setQ n x).setQ n y = b.setQ n y := by simp [Blk.setQ, Tbl.set_set]

@[simp] theorem setQ_modQ (b : Blk) (n : Nat) (x : Queue) (f : Queue → Queue) : (b.setQ n x).modQ n f = b.setQ n (f x) := by
  rw [Blk.modQ, q_setQ, if_pos rfl, setQ_setQ]

@[simp] theorem modQ_setQ (b : Blk) (n : Nat) (f : Queue → Queue) (x : Queue) : (b.modQ n f).setQ n x = b.setQ n x := by
  rw [Blk.modQ, setQ_setQ]

@[simp] theorem modQ_modQ (b : Blk) (n : Nat) (f g : Queue → Queue) : (b.modQ n f).modQ n g = b.modQ n (fun x => g (f x)) := by
  rw [Blk.modQ, modQ_setQ, q_modQ, if_pos rfl, Blk.modQ]

theorem skipCancelled_of_nil {x : Queue} (h : x.cancels = []) : skipCancelled x = x := by simp [skipCancelled, h]

section
variable {s : State} {q : Nat} (hl : Live s) (hq : q < 256)
include hl hq

theorem exec_fetchBurst : exec (.fetchBurst q) s = .next (s.after (effFetchBurst q s.b)) := fireReady_live hl (decide_eq_true hq)

theorem exec_repoll : exec (.repoll q) s = .next (s.after (effRepoll q s.b)) := fireReady_live hl (decide_eq_true hq)

theorem exec_stalledEarly : exec (.stalledEarly q) s = .next (s.after (effStalledEarly q s.b)) := fireReady_live hl (decide_eq_true hq)

end

/-- Settles O20: each event of fetching, by the conditions under which it acts. -/
theorem fetchingFollowsTailAndRepolls : Obligations.FetchingFollowsTailAndRepolls := by
  intro s q hl hq
  simp only
  intro hf hc
  refine ⟨fun h1 h2 h3 h4 h5 => ?_, fun hn => ?_, fun p hp h1 h2 h3 h4 h5 => ?_, fun p hp hn => ?_, fun p hp hd => ?_, fun p hp hd => ?_⟩
  · rw [exec_fetchBurst hl hq, effFetchBurst, if_pos hf, skipCancelled_of_nil hc, if_pos (by simp [h1, h2, h3, h4, h5])]
    rfl
  · rw [exec_fetchBurst hl hq, effFetchBurst, if_pos hf, skipCancelled_of_nil hc, if_neg]
    rintro hAll
    simp only [Bool.and_eq_true, Option.isNone_iff_eq_none, Bool.not_eq_true', decide_eq_true_eq] at hAll
    obtain ⟨⟨⟨⟨h1, h2⟩, h3⟩, h4⟩, h5⟩ := hAll
    simp [h1, h2, h3, h5] at hn
    omega
  · rw [exec_repoll hl hq, effRepoll]
    simp only [hp]
    rw [if_pos (by simp [hf, h1, h2, h3, h4, h5])]
    rfl
  · rw [exec_repoll hl hq, effRepoll]
    simp only [hp]
    rw [if_neg]
    simp only [Bool.and_eq_true, decide_eq_true_eq]
    omega
  · rw [exec_stalledEarly hl hq, effStalledEarly]
    simp only [hp]
    rw [if_pos (by simp [hf, hd])]
    have hSet : ∀ x y : Queue, ((dropReads (.fetch q) (s.b.setQ q x)).setQ q y) = (dropReads (.fetch q) s.b).setQ q y :=
      fun x y => congrArg (dropReads (.fetch q)) (setQ_setQ s.b q x y)
    simp only [queueEvent, Blk.modQ, q_dropReads, q_setQ, if_true, hSet]
    rfl
  · rw [exec_stalledEarly hl hq, effStalledEarly]
    simp only [hp]
    rw [if_neg (by simp [hd])]

end Sys2Proof.Machine
end

section
/-! SUPPORT. Descriptors that have been handed over, what any completion leaves of the front end, and NOP and PEG_LOCAL (R50, R406). -/
namespace Sys2Proof.Machine

/-! ### A descriptor handed to its unit -/

theorem handedOf_spec {b : Blk} {q : Nat} {ops : List Nat} {d : Desc} (h : handedOf b q ops = some d) :
    d ∈ b.front.descs ∧ d.q = q ∧ d.stage = .handed ∧ d.opcode ∈ ops ∧ b.isParked (.desc d.id) = false := by
  have hMem := List.mem_of_find?_eq_some h
  have hSel := List.find?_some h
  simp only [Bool.and_eq_true, beq_iff_eq, List.contains_iff_mem, Bool.not_eq_true'] at hSel
  simp only [Blk.descsOf, List.mem_filter, decide_eq_true_eq] at hMem
  exact ⟨hMem.1, hMem.2, hSel.1.1, hSel.1.2, hSel.2⟩

theorem q_of_handedOf {b : Blk} {q : Nat} {ops : List Nat} {d : Desc} (h : handedOf b q ops = some d) : d.q = q := (handedOf_spec h).2.1

theorem descsOf_mem_q {b : Blk} {q : Nat} {d : Desc} (h : d ∈ b.descsOf q) : d.q = q := by simpa [Blk.descsOf] using (List.mem_filter.mp h).2

/-! ### NOP and PEG_LOCAL -/

/-- A command of the front end on queue `q`, in a live block. -/
theorem fireReady_queue {s : State} {q : Nat} (hl : Live s) (hq : q < 256) (f : Blk → Blk) :
    fireReady (decide (q < 256)) f s = .next (s.after (f s.b)) := fireReady_live hl (decide_eq_true hq)

/-- Settles O24: each by the sign of the difference of its counter and its target. -/
theorem nopAndPegLocalComplete : Obligations.NopAndPegLocalComplete := by
  intro s q d hl hq
  simp only
  refine ⟨fun h => ?_, fun h => ⟨fun h0 hm => ?_, fun h0 hm => ?_, fun h1 => ?_⟩, fun h => ?_⟩
  · refine (fireReady_queue hl hq _).trans ?_
    simp only [effNop, h]
  · refine (fireReady_queue hl hq _).trans ?_
    simp [effPegLocalWaitGe, h, h0, pegPasses, hm, pegDone, q_of_handedOf h]
  · refine (fireReady_queue hl hq _).trans ?_
    simp [effPegLocalWaitGe, h, h0, pegPasses, hm, startWork]
  · refine (fireReady_queue hl hq _).trans ?_
    simp [effPegLocalSet, h, h1, pegDone, q_of_handedOf h, Blk.peg, Blk.q, pegKey]
  · refine (fireReady_queue hl hq _).trans ?_
    have hq' : d.q = q := descsOf_mem_q (List.mem_of_find?_eq_some h)
    simp only [effPegWaitPass, pegPasses, h, pegDone, hq']

end Sys2Proof.Machine
end

section
/-! SUPPORT. What a completion leaves of the front end whatever waits behind it, and real-time streams and their periods (R54 to R57). -/
namespace Sys2Proof.Machine

/-! ### What any completion leaves -/

/-- The parts of the front end that no completion touches. -/
def Front.frame (f : Front) : Front := { f with queues := [], descs := [], barDone := [] }

theorem complete1_frame (id : Nat) (b : Blk) : (complete1 id b).front.frame = b.front.frame := by
  cases h : b.desc? id with
  | none => rw [complete1, h]
  | some d =>
    by_cases hs : d.stage = .complete
    · rw [complete1, h]
      simp only [if_pos hs]
    · obtain ⟨bar, hf⟩ := complete1_front h hs
      rw [hf]
      rfl

/-- What a PERIOD that opens no period does to a descriptor behind it (R55). -/
def endLate (b : Blk) (i : Nat) : Blk := complete1 i ((addStatus i .late b).modDesc i (fun d => { d with aux := idleAux b d }))

theorem complete_eq (id : Nat) (b : Blk) :
    complete id b = ((b.front.descs.filter (fun d => d.behind = some id)).map (·.id)).foldl endLate (complete1 id b) := rfl

theorem endLate_frame (b : Blk) (i : Nat) : (endLate b i).front.frame = b.front.frame := complete1_frame i _

theorem complete_frame (id : Nat) (b : Blk) : (complete id b).front.frame = b.front.frame := by
  rw [complete_eq, foldl_keeps (fun c : Blk => c.front.frame) endLate endLate_frame, complete1_frame]

theorem completeWith_frame (id : Nat) (st : Status) (aux dropped : Nat) (b : Blk) :
    (completeWith id st aux dropped b).front.frame = b.front.frame := complete_frame id _

theorem front_of_rest {b c : Blk} (h : b.rest = c.rest) : b.front = c.front := congrArg Prod.fst h

theorem cleanUnit_rest (u : Nat) (b : Blk) : (cleanUnit u b).rest = b.rest := by
  unfold cleanUnit
  split
  · rfl
  · exact rest_foldl _ (fun c k => cleanKey_rest _ k c) _ b

@[simp] theorem dropUnits_front (us : List Nat) (b : Blk) : (dropUnits us b).front = b.front := by
  have hClean := front_of_rest (rest_foldl (fun b u => cleanUnit u b) (fun c u => cleanUnit_rest u c) us b)
  exact hClean

@[simp] theorem dropWork_front (id : Nat) (b : Blk) : (dropWork id b).front = b.front := dropUnits_front _ b

theorem stopDesc_frame (id : Nat) (st : Status) (b : Blk) : (stopDesc id st b).front.frame = b.front.frame := by
  unfold stopDesc
  split
  · rfl
  · split
    · rfl
    · rw [completeWith_frame, dropWork_front]

theorem desc?_of_front {b c : Blk} (h : c.front = b.front) (i : Nat) : c.desc? i = b.desc? i := desc?_of_descs (by rw [h]) i

theorem stream_of_frame {b c : Blk} (h : c.front.frame = b.front.frame) (t : Nat) : c.stream t = b.stream t := by
  have hs : c.front.frame.streams = b.front.frame.streams := congrArg (fun f : Front => f.streams) h
  exact congrArg (fun t' => Tbl.get {} t' t) hs

/-! ### Periods -/

@[simp] theorem stream_setStream (b : Blk) (n m : Nat) (x : Stream) : (b.setStream n x).stream m = if m = n then x else b.stream m := by
  simp [Blk.stream, Blk.setStream]

@[simp] theorem setStream_setStream (b : Blk) (n : Nat) (x y : Stream) : (b.setStream n x).setStream n y = b.setStream n y := by
  simp [Blk.setStream, Tbl.set_set]

/-- Dropping what is left of a period changes no stream. -/
@[simp] theorem stream_dropPeriod (st : Nat) (b : Blk) (t : Nat) : (dropPeriod st b).stream t = b.stream t := by
  refine stream_of_frame ?_ t
  exact foldl_keeps (fun c : Blk => c.front.frame) _ (fun c i => stopDesc_frame i .late c) _ b

theorem stream_closePeriod (st : Nat) (b : Blk) :
    (closePeriod st b).stream st = { b.stream st with open_ := false, deadlineAt := none, auto := none } := by
  unfold closePeriod
  split <;> simp

theorem tagBehind_desc? (id num i : Nat) (b : Blk) : (tagBehind id num b).desc? i =
    (b.desc? i).map (fun d => if d.behind = some id then { d with behind := none, period := some num } else d) :=
  desc?_of_map (fun e => by by_cases h : e.behind = some id <;> simp [h]) rfl i

/-! ### Ending descriptors -/

/-- Ending a descriptor that no other waits behind. -/
theorem stopDesc_eq {b : Blk} {id : Nat} {d : Desc} (st : Status) (h : b.desc? id = some d) (hs : d.stage ≠ .complete) :
    stopDesc id st b = completeWith id st (stopAux b d) d.dropped (dropWork id b) := by
  simp only [stopDesc, h, if_neg hs]

theorem mem_noted (st : Status) (aux dropped : Nat) (d : Desc) : st ∈ (d.noted st aux dropped).statuses := by
  unfold Desc.noted
  split
  · rename_i h
    simpa using h
  · simp

section
variable {b : Blk} {id : Nat} {d : Desc} (st : Status) (h : b.desc? id = some d) (hs : d.stage ≠ .complete)
  (ha : ∀ e ∈ b.front.descs, e.behind ≠ some id)
include h hs ha

theorem desc?_stopDesc_same : ∃ e, (stopDesc id st b).desc? id = some e ∧ e.stage = .complete ∧ st ∈ e.statuses := by
  rw [stopDesc_eq st h hs]
  exact ⟨_, desc?_completeWith_same st _ _ ((desc?_of_front (dropWork_front id b) id).trans h) hs (by simpa using ha), rfl,
    mem_noted st (stopAux b d) d.dropped d⟩

theorem desc?_stopDesc_ne {i : Nat} (hi : i ≠ id) : (stopDesc id st b).desc? i = b.desc? i := by
  rw [stopDesc_eq st h hs, desc?_completeWith_ne st _ _ ((desc?_of_front (dropWork_front id b) id).trans h) hs (by simpa using ha) hi]
  exact desc?_of_front (dropWork_front id b) i

/-- A descriptor still waits behind what it waited behind. -/
theorem behind_stopDesc {e : Desc} (he : e ∈ (stopDesc id st b).front.descs) : ∃ x ∈ b.front.descs, x.behind = e.behind := by
  rw [stopDesc_eq st h hs] at he
  obtain ⟨bar, hf⟩ := completeWith_front st (stopAux b d) d.dropped ((desc?_of_front (dropWork_front id b) id).trans h) hs (by simpa using ha)
  rw [hf] at he
  simp only [putDesc, dropWork_front, List.mem_map] at he
  obtain ⟨x, hx, rfl⟩ := he
  split
  · exact ⟨d, desc?_mem h, rfl⟩
  · exact ⟨x, hx, rfl⟩

end

/-- Ending several descriptors, none of which another waits behind, ends each of them and no other. -/
theorem foldl_stopDesc (st : Status) : ∀ (l : List Nat) (b : Blk), l.Nodup → (∀ i ∈ l, ∃ d, b.desc? i = some d ∧ d.stage ≠ .complete) →
    (∀ i ∈ l, ∀ e ∈ b.front.descs, e.behind ≠ some i) →
    (∀ i ∈ l, ∃ e, (l.foldl (fun b i => stopDesc i st b) b).desc? i = some e ∧ e.stage = .complete ∧ st ∈ e.statuses) ∧
    (∀ i, i ∉ l → (l.foldl (fun b i => stopDesc i st b) b).desc? i = b.desc? i)
  | [], _, _, _, _ => ⟨by simp, fun _ _ => rfl⟩
  | i :: t, b, hn, hl, ha => by
    obtain ⟨hi, hn⟩ := List.nodup_cons.mp hn
    obtain ⟨d, hd, hs⟩ := hl i (by simp)
    have hAlone := ha i (by simp)
    have hNe : ∀ j ∈ t, j ≠ i := fun j hj e => hi (e ▸ hj)
    obtain ⟨hEnd, hKeep⟩ := foldl_stopDesc st t (stopDesc i st b) hn
      (fun j hj => by rw [desc?_stopDesc_ne st hd hs hAlone (hNe j hj)]; exact hl j (by simp [hj]))
      (fun j hj e he => by
        obtain ⟨x, hx, hxe⟩ := behind_stopDesc st hd hs hAlone he
        exact hxe ▸ ha j (by simp [hj]) x hx)
    refine ⟨fun j hj => ?_, fun j hj => ?_⟩
    · rcases List.mem_cons.mp hj with rfl | hj
      · rw [List.foldl_cons, hKeep j hi]
        exact desc?_stopDesc_same st hd hs hAlone
      · exact hEnd j hj
    · simp only [List.mem_cons, not_or] at hj
      rw [List.foldl_cons, hKeep j hj.2, desc?_stopDesc_ne st hd hs hAlone hj.1]

/-- Where descriptors have numbers of their own, each is found by its number. -/
theorem desc?_of_mem {b : Blk} (hn : (b.front.descs.map (·.id)).Nodup) {d : Desc} (hd : d ∈ b.front.descs) : b.desc? d.id = some d := by
  have hSome : (b.desc? d.id).isSome := List.find?_isSome.mpr ⟨d, hd, by simp⟩
  obtain ⟨e, he⟩ := Option.isSome_iff_exists.mp hSome
  rw [he, List.inj_on_of_nodup_map hn (desc?_mem he) hd (desc?_id he)]

/-! ### What a period that closes leaves of its descriptors -/

/-- A descriptor of the period that a stream has open that is not complete. -/
def leftOf (b : Blk) (st : Nat) (d : Desc) : Prop := d.stage ≠ .complete ∧ d.period = some (b.stream st).num ∧ (b.q d.q).stream = st

theorem dropPeriod_descs (st : Nat) (b : Blk) (hn : (b.front.descs.map (·.id)).Nodup)
    (ha : ∀ d ∈ b.front.descs, leftOf b st d → ∀ e ∈ b.front.descs, e.behind ≠ some d.id) :
    (∀ d ∈ b.front.descs, leftOf b st d → ∃ e, (dropPeriod st b).desc? d.id = some e ∧ e.stage = .complete ∧ .late ∈ e.statuses) ∧
    (∀ d ∈ b.front.descs, ¬leftOf b st d → (dropPeriod st b).desc? d.id = some d) := by
  let ids := (b.front.descs.filter (fun d => d.stage ≠ .complete && d.period = some (b.stream st).num && (b.q d.q).stream = st)).map (·.id)
  have hIds : ∀ {i}, i ∈ ids ↔ ∃ d ∈ b.front.descs, leftOf b st d ∧ d.id = i := by
    intro i
    simp only [ids, leftOf, List.mem_map, List.mem_filter, Bool.and_eq_true, decide_eq_true_eq, and_assoc]
  obtain ⟨hEnd, hKeep⟩ := foldl_stopDesc .late ids b (hn.sublist (List.filter_sublist.map _))
    (fun i hi => by
      obtain ⟨d, hd, hLeft, rfl⟩ := hIds.mp hi
      exact ⟨d, desc?_of_mem hn hd, hLeft.1⟩)
    (fun i hi => by
      obtain ⟨d, hd, hLeft, rfl⟩ := hIds.mp hi
      exact ha d hd hLeft)
  refine ⟨fun d hd hLeft => hEnd d.id (hIds.mpr ⟨d, hd, hLeft, rfl⟩), fun d hd hNot => ?_⟩
  refine (hKeep d.id fun hi => ?_).trans (desc?_of_mem hn hd)
  obtain ⟨e, he, hLeft, hId⟩ := hIds.mp hi
  exact hNot (List.inj_on_of_nodup_map hn he hd hId ▸ hLeft)

/-! ### The descriptors behind a PERIOD that opens none -/

theorem complete1_of_complete {b : Blk} {id : Nat} {d : Desc} (h : b.desc? id = some d) (hs : d.stage = .complete) : complete1 id b = b := by
  rw [complete1, h]
  simp only [if_pos hs]

theorem desc?_complete1_ne {b : Blk} {id i : Nat} (hi : i ≠ id) : (complete1 id b).desc? i = b.desc? i := by
  cases h : b.desc? id with
  | none => rw [complete1, h]
  | some d =>
    by_cases hs : d.stage = .complete
    · rw [complete1_of_complete h hs]
    · rw [desc?_complete1 h hs]
      cases he : b.desc? i with
      | none => rfl
      | some e => rw [Option.map_some, if_neg (by rw [desc?_id he]; exact hi)]

theorem desc?_complete1_same {b : Blk} {id : Nat} {d : Desc} (h : b.desc? id = some d) :
    ∃ e, (complete1 id b).desc? id = some e ∧ e.stage = .complete ∧ e.statuses = d.statuses := by
  by_cases hs : d.stage = .complete
  · exact ⟨d, by rw [complete1_of_complete h hs, h], hs, rfl⟩
  · exact ⟨d.ended, by rw [desc?_complete1 h hs, h, Option.map_some, if_pos (desc?_id h)], rfl, rfl⟩

theorem addStatus_id (st : Status) (e : Desc) : (if e.statuses.contains st then e else { e with statuses := e.statuses ++ [st] }).id = e.id := by
  split <;> rfl

theorem desc?_endLate_ne {b : Blk} {i j : Nat} (hj : j ≠ i) : (endLate b i).desc? j = b.desc? j := by
  rw [endLate, desc?_complete1_ne hj, desc?_modDesc_ne (by exact fun _ h => h) _ hj, addStatus,
    desc?_modDesc_ne (fun e h => (addStatus_id .late e).trans h) _ hj]

theorem desc?_endLate_same {b : Blk} {i : Nat} {d : Desc} (h : b.desc? i = some d) :
    ∃ e, (endLate b i).desc? i = some e ∧ e.stage = .complete ∧ .late ∈ e.statuses := by
  have hLate := desc?_modDesc_same (fun e h => (addStatus_id .late e).trans h) h
  have hAux := desc?_modDesc_same (f := fun d => { d with aux := idleAux b d }) (fun _ h => h) hLate
  obtain ⟨e, he, hs, hSt⟩ := desc?_complete1_same hAux
  refine ⟨e, he, hs, hSt ▸ ?_⟩
  show Status.late ∈ (if d.statuses.contains .late then d else { d with statuses := d.statuses ++ [.late] }).statuses
  split
  · rename_i hc
    simpa using hc
  · simp

theorem foldl_endLate_of_not_mem {i : Nat} {l : List Nat} {b : Blk} (h : i ∉ l) : (l.foldl endLate b).desc? i = b.desc? i := by
  induction l generalizing b with
  | nil => rfl
  | cons k t ih =>
    simp only [List.mem_cons, not_or] at h
    rw [List.foldl_cons, ih h.2, desc?_endLate_ne h.1]

/-- Each of them is LATE, whether or not it has ended before. -/
theorem foldl_endLate {i : Nat} {l : List Nat} {b : Blk} {d : Desc} (hi : i ∈ l) (hd : b.desc? i = some d) :
    ∃ e, (l.foldl endLate b).desc? i = some e ∧ e.stage = .complete ∧ .late ∈ e.statuses := by
  induction l generalizing b d with
  | nil => exact absurd hi List.not_mem_nil
  | cons j t ih =>
    rw [List.foldl_cons]
    by_cases hit : i ∈ t
    · by_cases hj : i = j
      · subst hj
        obtain ⟨e, he, -⟩ := desc?_endLate_same hd
        exact ih hit he
      · exact ih hit ((desc?_endLate_ne hj).trans hd)
    · obtain rfl : i = j := (List.mem_cons.mp hi).resolve_right hit
      rw [foldl_endLate_of_not_mem hit]
      exact desc?_endLate_same hd

theorem completeWith_late {b : Blk} {id : Nat} {d e : Desc} (hd : b.desc? id = some d) (hBehind : d.behind ≠ some id)
    (he : b.desc? e.id = some e) (heb : e.behind = some id) (st : Status) (aux dropped : Nat) :
    ∃ g, (completeWith id st aux dropped b).desc? e.id = some g ∧ g.stage = .complete ∧ .late ∈ g.statuses := by
  have hNe : e.id ≠ id := by
    rintro h
    rw [h, hd, Option.some.injEq] at he
    exact hBehind (he ▸ heb)
  rw [completeWith, complete_eq, noteWith_descs]
  have hNoted : ((addStatus id st b).modDesc id (fun d => { d with aux := aux, dropped := dropped })).desc? e.id = some e := by
    rw [desc?_modDesc_ne (by exact fun _ h => h) _ hNe, addStatus, desc?_modDesc_ne (fun e h => (addStatus_id st e).trans h) _ hNe, he]
  refine foldl_endLate ?_ ((desc?_complete1_ne hNe).trans hNoted)
  simp only [List.mem_map, List.mem_filter, decide_eq_true_eq]
  exact ⟨e, ⟨⟨e, desc?_mem he, if_neg hNe⟩, heb⟩, rfl⟩

/-! ### The statement -/

/-- PERIOD_MANUAL and PERIOD_AUTO, as the period that they open. -/
theorem openBy_of_handed {b : Blk} {q mode : Nat} {d : Desc} (h : handedOf b q [0x04] = some d) (hm : d.f 8 1 = mode) :
    openBy q mode b = completeWith d.id .ok 0 0 (tagBehind d.id ((b.stream (b.q q).stream).num + 1)
      ((closePeriod (b.q q).stream b).setStream (b.q q).stream
        { open_ := true, num := (b.stream (b.q q).stream).num + 1, openedAt := b.clk.core, deadlineAt := some (b.clk.core + d.f 16 4),
          passed := false, auto := if mode = 1 then some (d.f 12 4, d.f 16 4) else none, readyAt := b.clk.core + 32 })) := by
  simp only [openBy, h, if_pos hm, openPeriod, stream_setStream, if_true, stream_closePeriod]

/-- Settles O25: the commands by what closing, opening and passing do, the descriptors by ending each of them. -/
theorem periodsOpenCloseAndPass : Obligations.PeriodsOpenCloseAndPass := by
  refine ⟨fun s hl => ⟨fun q d hq h => ⟨fun hm => ?_, fun hm => ?_, fun hm => ?_⟩, fun st hst => ?_⟩, fun st b hn ha => ?_, fun st b => rfl,
    fun id num i b => tagBehind_desc? id num i b, fun id b d e _ hd _ hb he heb _ => completeWith_late hd hb he heb .ok 0 0⟩
  · refine (fireReady_queue hl hq _).trans ?_
    rw [effPeriodManual, openBy_of_handed h hm]
    rfl
  · refine (fireReady_queue hl hq _).trans ?_
    rw [effPeriodAuto, openBy_of_handed h hm]
    rfl
  · refine (fireReady_queue hl hq _).trans ?_
    simp only [effPeriodStop, h, if_pos hm]
  · have hClose := stream_closePeriod st s.b
    refine ⟨by rw [hClose], by rw [hClose], by rw [hClose], fun p dl hauto => ⟨fun hd => ?_, fun hd => ?_⟩, fun t hd hopen => ⟨fun ht => ?_, fun ht => ?_⟩⟩ <;>
      refine (fireReady_live hl (decide_eq_true hst)).trans ?_
    · simp only [effPeriodAutoOpen, hauto, if_pos hd, openPeriod, hClose]
    · simp only [effPeriodAutoOpen, hauto, if_neg (by omega : ¬(s.b.stream st).openedAt + p ≤ s.b.clk.core)]
    · simp only [effDeadline, hd, hopen, decide_eq_true ht, Bool.and_self, if_true, stream_dropPeriod]
    · simp [effDeadline, hd, Nat.not_le.mpr ht]
  · obtain ⟨hEnd, hKeep⟩ := dropPeriod_descs st b hn ha
    exact ⟨hEnd, hKeep, stream_dropPeriod st b⟩

end Sys2Proof.Machine
end

section
/-! SUPPORT. KINDLE, CANCEL and its marker (R45, R47, R61), and REARM (R59, R60). -/
namespace Sys2Proof.Machine

/-! ### Shares of the heavy-phase request -/

/-- Shares that have ended are no part of the request, so it is the same without them (R348). -/
theorem heavyNow_effHeavyRequestEnd (b : Blk) : heavyNow (effHeavyRequestEnd b) = heavyNow b := by
  simp only [heavyNow, effHeavyRequestEnd, List.filter_filter]
  exact congrArg (List.foldl _ 0) (List.filter_congr fun h _ => Bool.and_self _)

/-- A running KINDLE whose lead has ended (R61). -/
def leadOver (now : Nat) (d : Desc) : Bool :=
  match d.work with
  | .kindle t => d.stage == .running && decide (t ≤ now)
  | _ => false

theorem effKindleLeadEnd_of_over {b : Blk} {n : Nat} {d : Desc} (h : (b.descsOf n).find? (leadOver b.clk.core) = some d) :
    effKindleLeadEnd n b = completeWith d.id .ok 0 0 b := by
  unfold effKindleLeadEnd
  split
  next e he => rw [Option.some.inj (h.symm.trans he)]
  next he => exact absurd (h.symm.trans he) (by simp)

/-- Settles O26: each command by what its descriptor or its cancelled range says. -/
theorem kindleAndCancelTakeEffect : Obligations.KindleAndCancelTakeEffect := by
  intro s q d hl hq
  refine ⟨fun h => ?_, fun h => ?_, ⟨s.after (effHeavyRequestEnd s.b), fireReady_live hl rfl, ?_, ?_, ?_⟩,
    fun h => ⟨fun hu => ?_, fun h1 h2 hc => ?_, fun h1 h2 hc => ?_⟩, fun n slot epoch by_ h => ?_, fun r h => ?_, fun h => ?_⟩
  · refine (fireReady_queue hl hq _).trans ?_
    simp only [effKindle, h]
  · exact (fireReady_queue hl hq _).trans (congrArg (fun b => Host.Outcome.next (s.after b)) (effKindleLeadEnd_of_over h))
  · intro h hm
    simpa using (List.mem_filter.mp hm).2
  · exact fun h hm hlt => List.mem_filter.mpr ⟨hm, by simpa using hlt⟩
  · exact heavyNow_effHeavyRequestEnd s.b
  · refine (fireReady_queue hl hq _).trans ?_
    obtain hu | hu := hu <;> simp only [effCancel, h, hu]
  · refine (fireReady_queue hl hq _).trans ?_
    cases hs : (s.b.q (d.f 8 1)).st <;> simp_all [effCancel]
  · refine (fireReady_queue hl hq _).trans ?_
    cases hs : (s.b.q (d.f 8 1)).st <;> simp_all [effCancel]
  · simp only [cancelRange, h]
  · refine (fireReady_queue hl hq _).trans ?_
    simp only [effCancelMarker, h]
  · refine (fireReady_queue hl hq _).trans ?_
    simp only [effCancelMarker, h]

/-! ### REARM -/

theorem effRearm_of_count {b : Blk} {q : Nat} {d : Desc} (h : handedOf b q [0x06] = some d) (hk : d.f 8 2 = 0 ∨ 1024 < d.f 8 2) :
    effRearm q b = rearmFailed d .malformed b := by
  simp only [effRearm, h, if_pos hk]

theorem effRearm_of_read {b b1 : Blk} {q : Nat} {d : Desc} {l : List PByte} (h : handedOf b q [0x06] = some d) (h1 : 1 ≤ d.f 8 2)
    (h2 : d.f 8 2 ≤ 1024) (hr : rd .front (.desc d.id) (clsOf b q) (d.f 16 8) (16 * d.f 8 2) b = (b1, .ok l)) :
    effRearm q b =
      if anyPoison l then rearmFailed d .cancelled (raise (d.err b1 0x12 0 0 (d.f 16 8)) b1)
      else if rearmTableOk (b1.q q) d (pieces 16 (plain l)) then takePatches d ((pieces 16 (plain l)).map (patchOf d.replay)) b1
      else rearmFailed d .malformed b1 := by
  simp only [effRearm, h, if_neg (by omega : ¬(d.f 8 2 = 0 ∨ 1024 < d.f 8 2)), hr]

/-- Settles O27: the outcomes of the table's read and of its rules; what a failed replay does is `failReplay`. -/
theorem rearmKeepsItsPatches : Obligations.RearmKeepsItsPatches := by
  intro s q d hl hq h
  obtain rfl := q_of_handedOf h
  refine ⟨fun hk => ?_, fun h1 h2 b1 l hr => ⟨fun hp => ?_, fun hp => ⟨fun ht => ?_, fun ht => ⟨fun hn => ?_, fun e he => ?_⟩⟩⟩⟩ <;>
    refine (fireReady_queue hl hq _).trans ?_
  · rw [effRearm_of_count h hk]
    rfl
  · rw [effRearm_of_read h h1 h2 hr, if_pos hp]
    rfl
  · rw [effRearm_of_read h h1 h2 hr, if_neg (by simp [hp]), if_neg (by simp [ht])]
    rfl
  · rw [effRearm_of_read h h1 h2 hr, if_neg (by simp [hp]), if_pos ht]
    simp only [takePatches]
    split
    · next e he => exact absurd (he.symm.trans hn) (by simp)
    · rfl
  · rw [effRearm_of_read h h1 h2 hr, if_neg (by simp [hp]), if_pos ht]
    simp only [takePatches]
    split
    · next e' he' =>
      obtain rfl := Option.some.inj (he'.symm.trans he)
      rfl
    · next hn => exact absurd (hn.symm.trans he) (by simp)

end Sys2Proof.Machine
end

section
/-! SUPPORT. MAINT (R62): what a write-back leaves of the pitches, and which lines stay. -/
namespace Sys2Proof.Machine

/-! ### No message, read or write at a physical address touches a pitch -/

theorem d2dEmit_pitches (p : Nat) (k : DPkt) (b : Blk) : (d2dEmit p k b).pitches = b.pitches := by simp [d2dEmit]

theorem d2dPump_pitches (p : Nat) : ∀ (n : Nat) (b : Blk), (d2dPump p n b).pitches = b.pitches
  | 0, _ => rfl
  | n + 1, b => by
    simp only [d2dPump]
    split
    · split
      · rfl
      · rw [d2dPump_pitches p n, d2dEmit_pitches, setLink_pitches]
    · rfl

theorem d2dSend_pitches (p : Nat) (k : DPkt) (b : Blk) : (d2dSend p k b).pitches = b.pitches := by
  simp only [d2dSend]
  split <;> simp [d2dPump_pitches]

@[simp] theorem sendMsg_pitches (chip die : Nat) (c : Cls) (m : Msg) (b : Blk) : (sendMsg chip die c m b).pitches = b.pitches := by
  simp only [sendMsg]
  split
  · split
    · rfl
    · exact d2dSend_pitches _ _ _
  · rfl

@[simp] theorem watch_pitches (chip : Nat) (b : Blk) : (watch chip b).pitches = b.pitches := by
  simp only [watch]
  split
  · rfl
  · split <;> rfl

theorem tryReach_pitches (ctx chip die : Nat) (b : Blk) : (tryReach ctx chip die b).1.pitches = b.pitches := by
  simp only [tryReach]
  split
  · simp only [noteHeld]
    split <;> simp
  · rfl

theorem gsWrite_pitches (c : Option Nat) (off : Nat) (d : List PByte) (b : Blk) : (gsWrite c off d b).pitches = b.pitches := by
  simp only [gsWrite]
  split
  · split <;> simp
  · simp

theorem sendSnoops_pitches (ls : List Nat) (b : Blk) : (sendSnoops ls b).pitches = b.pitches := by simp [sendSnoops]

theorem askWrites_pitches (u : UnitRef) (c : Cls) (chip die : Nat) (h : Bool) :
    ∀ (l : List (Nat × List PByte)) (b : Blk), (askWrites u c chip die h l b).pitches = b.pitches
  | [], _ => rfl
  | (_, _) :: t, b => by simp [askWrites, askWrites_pitches u c chip die h t]

theorem hostPut_pitches (u : UnitRef) (c : Option Nat) (s : Bool) (pa : Nat) (d : List PByte) (b : Blk) :
    (hostPut u c s pa d b).1.pitches = b.pitches := by
  simp only [hostPut]
  cases c <;> (dsimp only; split <;> simp [hostRefusal])

theorem writePhys_pitches (u : UnitRef) (c : Cls) (pa : Nat) (d : List PByte) (h : Bool) (b : Blk) :
    (writePhys u c pa d h b).1.pitches = b.pitches := by
  have hReach (chip die : Nat) {b1 : Blk} {x : Option Status} (e : tryReach c.ctx chip die b = (b1, x)) : b1.pitches = b.pitches := by
    simpa [e] using tryReach_pitches c.ctx chip die b
  have hPut {b1 : Blk} {x : Bool} (e : hostPut u (some c.ctx) c.shared pa d b = (b1, x)) : b1.pitches = b.pitches := by
    simpa [e] using hostPut_pitches u (some c.ctx) c.shared pa d b
  simp only [writePhys]
  split
  · simp only [hostWrite]
    split
    · split
      · split
        · next e => exact hPut e
        · next e => exact hPut e
      · rfl
      · rfl
    · split
      · split
        · next e => exact hReach _ _ e
        · next e => simp [askWrites_pitches, hReach _ _ e]
      · rfl
  · split
    · split
      · exact gsWrite_pitches _ _ _ _
      · exact sendSnoops_pitches _ _
    · split
      · next e => exact hReach _ _ e
      · next e => simp [askWrites_pitches, hReach _ _ e]

/-! ### Cleaning and dropping lines -/

theorem writeLine_pitches (u : UnitRef) (p : Nat) (l : Line) (b : Blk) : (writeLine u p l b).pitches = b.pitches := by
  have hNote : (noteWriteback p l b).pitches = b.pitches := by
    simp only [noteWriteback, eccRecord]
    split
    · simp
    · split <;> simp
  simp only [writeLine]
  rw [foldl_keeps Blk.pitches _ _ _ _, hNote]
  intro c r
  split
  · split
    · exact gsWrite_pitches _ _ _ _
    · next ls _ => exact sendSnoops_pitches ls c
  · exact writePhys_pitches _ _ _ _ _ _

theorem cleanLines_pitches (u : UnitRef) (p : Nat) (sel : Nat → Line → Bool) :
    ∀ (ls : List (Nat × Line)) (b : Blk), (cleanLines u p sel ls b).1.pitches = b.pitches
  | [], _ => rfl
  | (e, l) :: t, b => by
    simp only [cleanLines]
    rw [cleanLines_pitches u p sel t]
    split
    · exact writeLine_pitches _ _ _ _
    · rfl

/-- A clean leaves no selected line dirty. -/
theorem clean_of_mem_cleanLines (u : UnitRef) (p : Nat) (sel : Nat → Line → Bool) {ls : List (Nat × Line)} {x : Nat × Line} :
    ∀ {b : Blk}, x ∈ (cleanLines u p sel ls b).2.1 → sel x.1 x.2 = true → x.2.dirty = false := by
  induction ls with
  | nil => exact fun hx _ => absurd hx List.not_mem_nil
  | cons a t ih =>
    obtain ⟨e, l⟩ := a
    intro b hx hs
    rw [cleanLines, List.mem_cons] at hx
    obtain rfl | hx := hx
    · cases hd : (l.dirty && sel e l)
      · simpa [hd] using (Bool.and_eq_false_iff.mp hd).resolve_right (by simpa [hd] using hs)
      · simp
    · exact ih hx hs

/-- The pitch after MAINT, over what its clean has left. -/
theorem pitch_maintPitch (d : Desc) (sel : Nat → Line → Bool) (p j : Nat) (b : Blk) : (maintPitch d sel p b).1.pitch j =
    let ls := if (d.f 8 1).testBit 0 then (cleanLines (.desc d.id) p sel (b.pitch p).mdc.lines b).2.1 else (b.pitch p).mdc.lines
    let inv := (d.f 8 1).testBit 1
    let x := b.pitch p
    let c := { x.mdc with lines := if inv then dropLines sel ls else ls, fresh := x.mdc.fresh || (inv && d.f 9 1 == 2) }
    if j = p then (if inv then { x with mdc := c, window := [], grid := [] } else { x with mdc := c }) else b.pitch j := by
  have hKeep (k : Nat) : (cleanLines (.desc d.id) p sel (b.pitch p).mdc.lines b).1.pitch k = b.pitch k := by
    rw [Blk.pitch, cleanLines_pitches]
    rfl
  by_cases h0 : (d.f 8 1).testBit 0 = true <;> simp [maintPitch, h0, hKeep]

theorem effMaint_of_handed {b : Blk} {q op : Nat} {d : Desc} (h : handedOf b q [0x08] = some d) (ho : d.f 8 1 = op) :
    let sel := maintSelects d b
    let r := if (d.f 10 1).testBit 0 then maintPitches d sel (List.range b.pitchCount) b else (b, 0)
    let b1 := if (d.f 10 1).testBit 0 ∧ op.testBit 1 then { r.1 with gs := { r.1.gs with dbuf := [] } } else r.1
    let x := r.1.xlat
    maintBy q op b = completeWith d.id .ok r.2 0 { b1 with xlat := { x with
      desc := if (d.f 10 1).testBit 1 then maintClean1 d sel x.desc else x.desc
      fault := if (d.f 10 1).testBit 2 then maintClean1 d sel x.fault else x.fault } } := by
  simp only [maintBy, h, if_pos ho, Bool.and_eq_true]
  congr 1
  split <;> rfl

/-- Settles O28: each OP by its effect, and each pitch by what is left of its cache. -/
theorem maintCleansAndInvalidates : Obligations.MaintCleansAndInvalidates := by
  intro s q d hl hq h
  refine ⟨fun c op hc ho => ?_, fun p b => ⟨fun hInv => ?_, fun hClean e he hs => ?_, fun j hj => ?_⟩⟩
  · simp only [List.mem_cons, Prod.mk.injEq, List.not_mem_nil, or_false] at hc
    have hEff := effMaint_of_handed h ho
    obtain ⟨rfl, rfl⟩ | ⟨rfl, rfl⟩ | ⟨rfl, rfl⟩ := hc <;>
      exact (fireReady_queue hl hq _).trans (congrArg (fun b => Host.Outcome.next (s.after b)) hEff)
  · simp only [pitch_maintPitch, if_pos hInv, if_true]
    exact ⟨fun e he => by simpa [dropLines] using (List.mem_filter.mp he).2, trivial, trivial⟩
  · simp only [pitch_maintPitch, if_pos hClean, if_true] at he
    refine clean_of_mem_cleanLines (.desc d.id) p (maintSelects d s.b) (ls := (b.pitch p).mdc.lines) (b := b) ?_ hs
    by_cases hInv : (d.f 8 1).testBit 1 = true
    · simp only [if_pos hInv] at he
      exact (List.mem_filter.mp he).1
    · simpa only [if_neg hInv] using he
  · simp only [pitch_maintPitch, if_neg hj]

end Sys2Proof.Machine
end

section
/-! SUPPORT. Global barriers (R51 to R53, R271, R322, R323). -/
namespace Sys2Proof.Machine

/-! ### A participant -/

/-- A PEG_GLOBAL that may arrive and reads its operands. -/
theorem pegSend_of_read {b b1 : Blk} {e : Desc} {w : BarWait} {l : List PByte} (he : b.desc? e.id = some e) (hw : e.work = .peg w)
    (hMay : (w.sentAt.isNone && !(barrierHeld b e w) && !(b.isParked (.desc e.id))) = true)
    (hr : rd .front (.desc e.id) (clsOf b e.q) (e.f 24 8) (8 * w.count) b = (b1, .ok l)) (hp : anyPoison l = false) :
    pegSend e.id b = arriveNow e.id (f64List (plain l)) none b1 := by
  simp only [Bool.and_eq_true, Option.isNone_iff_eq_none, Bool.not_eq_true'] at hMay
  obtain ⟨⟨hSent, hHeld⟩, hParked⟩ := hMay
  simp [pegSend, he, hw, hSent, hHeld, hParked, hr, hp]

/-- The arrival of a participant of queue `q` (R271). -/
def arrivalOf (b : Blk) (q : Nat) (w : BarWait) (vals : List W64) : PegArriveB :=
  let c := clsOf b q
  { part := b.ctxPartId c.ctx, barrier := w.barrier, reduce := w.reduce, count := vals.length, mismatch := false, abort := false,
    subtree := 1, gen := w.gen, vals := vals, ctx := if (b.ctxSlot c.ctx).isSome then 0 else c.ctx + 1 }

/-- On the combining die itself an arrival enters the port sack. -/
theorem sendArrival_of_combining {b : Blk} (q : Nat) (w : BarWait) (vals : List W64) (h0 : b.ident.die = 0) :
    sendArrival q w vals false b =
      let c := clsOf b q
      some { b with port := b.port ++ [{ msg := .pegArrive (arrivalOf b q w vals), chip := b.ident.chip, die := 0, via := .local, rt := c.rt,
                                         stream := c.stream, part := 0 }] } := by
  simp only [sendArrival, arrivalOf, sendMsg, h0, true_or, if_true]

theorem arriveNow_of_combining {b : Blk} {e : Desc} {w : BarWait} (vals : List W64) (he : b.desc? e.id = some e) (hw : e.work = .peg w)
    (h0 : b.ident.die = 0) :
    arriveNow e.id vals none b =
      let c := clsOf b e.q
      let b2 := (modWait e.id (fun w => { w with sentAt := some b.clk.core, own := none }) b).modDesc e.id (fun d => { d with started := true })
      { b2 with port := b2.port ++ [{ msg := .pegArrive (arrivalOf b e.q w vals), chip := b.ident.chip, die := 0, via := .local, rt := c.rt,
                                      stream := c.stream, part := 0 }] } := by
  simp only [arriveNow, he, Desc.barWait, hw, Option.isSome_none]
  rw [sendArrival_of_combining _ _ _ (by exact h0)]
  rfl

/-! ### The node -/

/-- Not all of the arrivals agree (R322). -/
def arrivalsDiffer (a : Arrival) (rest : List Arrival) : Bool := (a :: rest).any (fun e => e.mismatch || e.reduce ≠ a.reduce || e.count ≠ a.count)

/-- At a root, with every arrival there. -/
theorem combineNode_of_root {b : Blk} {x : Node} {a : Arrival} {rest : List Arrival} (ho : inOrder b x = a :: rest)
    (hAll : rest.length + 1 = b.dies.length + (nodeKids b x.slot).length) (hRoot : nodeParent b x.slot = none) :
    combineNode x b = spread x (if arrivalsDiffer a rest then 1 else 0) 0
      (if arrivalsDiffer a rest then [] else rest.foldl (fun v e => reduceVals a.reduce v e.vals) a.vals)
      (if arrivalsDiffer a rest then remember x.ctx x.barrier [(x.gen, 1)] b else b) := by
  simp only [combineNode, ho, List.length_cons, hAll, lt_irrefl, if_false, hRoot]
  rfl

theorem combineNode_of_agreed {b : Blk} {x : Node} {a : Arrival} {rest : List Arrival} (ho : inOrder b x = a :: rest)
    (hAll : rest.length + 1 = b.dies.length + (nodeKids b x.slot).length) (hRoot : nodeParent b x.slot = none)
    (h : ∀ e ∈ a :: rest, e.mismatch = false ∧ e.reduce = a.reduce ∧ e.count = a.count) :
    combineNode x b = spread x 0 0 (rest.foldl (fun v e => reduceVals a.reduce v e.vals) a.vals) b := by
  have hd : arrivalsDiffer a rest = false := by
    simp only [arrivalsDiffer, List.any_eq_false]
    intro e he
    obtain ⟨h1, h2, h3⟩ := h e he
    simp [h1, h2, h3]
  simp [combineNode_of_root ho hAll hRoot, hd]

theorem combineNode_of_differing {b : Blk} {x : Node} {a : Arrival} {rest : List Arrival} (ho : inOrder b x = a :: rest)
    (hAll : rest.length + 1 = b.dies.length + (nodeKids b x.slot).length) (hRoot : nodeParent b x.slot = none)
    (h : ∃ e ∈ a :: rest, e.mismatch = true ∨ e.reduce ≠ a.reduce ∨ e.count ≠ a.count) :
    combineNode x b = spread x 1 0 [] (remember x.ctx x.barrier [(x.gen, 1)] b) := by
  have hd : arrivalsDiffer a rest = true := by
    obtain ⟨e, he, h⟩ := h
    exact List.any_eq_true.mpr ⟨e, he, by simpa [or_assoc] using h⟩
  simp [combineNode_of_root ho hAll hRoot, hd]

/-- A lone die at a root without children makes up the whole barrier. -/
theorem combineNode_of_lone {b : Blk} {x : Node} {a : Arrival} (hx : x.arrivals = [a]) (hc : a.child = false) (hm : a.mismatch = false)
    (hDies : b.dies = [a.who]) (hKids : nodeKids b x.slot = []) (hRoot : nodeParent b x.slot = none) :
    combineNode x b = spread x 0 0 a.vals b := by
  have hOrder : inOrder b x = [a] := by simp [inOrder, hDies, hKids, hx, hc]
  have hAgreed : ∀ e ∈ [a], e.mismatch = false ∧ e.reduce = a.reduce ∧ e.count = a.count := by simpa using hm
  simpa using combineNode_of_agreed hOrder (by simp [hDies, hKids]) hRoot hAgreed

theorem nodeKids_putNode (x : Node) (b : Blk) (slot : Option Nat) : nodeKids (putNode x b) slot = nodeKids b slot := rfl
theorem nodeParent_putNode (x : Node) (b : Blk) (slot : Option Nat) : nodeParent (putNode x b) slot = nodeParent b slot := rfl
theorem dies_putNode (x : Node) (b : Blk) : (putNode x b).dies = b.dies := rfl

theorem nodeLost_of_lone {b : Blk} {x : Node} (hDies : b.dies = [b.ident.die]) (hKids : nodeKids b x.slot = [])
    (hRoot : nodeParent b x.slot = none) : nodeLost b x = none := by
  simp [nodeLost, hDies, hKids, hRoot]

/-- The first arrival of a new generation, from a die of the chip, with no other chip beside the node. -/
theorem nodeArrive_of_new {b : Blk} {ctx part barrier gen : Nat} {slot : Option Nat} {a : Arrival} (hc : a.child = false)
    (hKids : nodeKids b slot = []) (hRoot : nodeParent b slot = none) (hNew : findNode b ctx barrier = none)
    (hAb : b.ridge.abandoned.find? (fun r => r.ctx = ctx && r.barrier = barrier && r.gen = gen) = none) (ha : a.abort = false)
    (hLost : nodeLost b { ctx := ctx, slot := slot, part := part, barrier := barrier, gen := gen, arrivals := [a] } = none) :
    nodeArrive ctx slot part barrier gen a b =
      let x : Node := { ctx := ctx, slot := slot, part := part, barrier := barrier, gen := gen, arrivals := [a] }
      combineNode x (putNode x b) := by
  simp [nodeArrive, hAb, hNew, hKids, hRoot, hc, ha, hLost]

/-- The arrival that a message of a die of the chip is. -/
def Rx.arrival (r : Rx) (m : PegArriveB) : Arrival :=
  { child := false, who := r.die, subtree := m.subtree, reduce := m.reduce, count := m.count, mismatch := false, abort := false, vals := m.vals }

theorem arrival_of_chip {r : Rx} {m : PegArriveB} {chip : Nat} (hChip : r.chip = chip) (hm : m.mismatch = false) (ha : m.abort = false) :
    Arrival.mk (decide (r.chip ≠ chip)) (if r.chip ≠ chip then r.chip else r.die) m.subtree m.reduce m.count m.mismatch m.abort m.vals =
      r.arrival m := by
  simp [hChip, hm, ha, Rx.arrival]

theorem nodeArrive_of_lone {b : Blk} {r : Rx} {m : PegArriveB} {k : Nat × Option Nat} (hDie : r.die = b.ident.die) (hDies : b.dies = [r.die])
    (hKids : nodeKids b k.2 = []) (hRoot : nodeParent b k.2 = none) (hNew : findNode b k.1 m.barrier = none)
    (hAb : b.ridge.abandoned.any (fun a => a.ctx = k.1 && a.barrier = m.barrier && a.gen = m.gen) = false) :
    nodeArrive k.1 k.2 m.part m.barrier m.gen (r.arrival m) b =
      let x : Node := { ctx := k.1, slot := k.2, part := m.part, barrier := m.barrier, gen := m.gen, arrivals := [r.arrival m] }
      spread x 0 0 m.vals (putNode x b) := by
  have hAb' : b.ridge.abandoned.find? (fun a => a.ctx = k.1 && a.barrier = m.barrier && a.gen = m.gen) = none := by
    simpa [List.find?_eq_none, List.any_eq_false] using hAb
  rw [nodeArrive_of_new rfl hKids hRoot hNew hAb' rfl (nodeLost_of_lone (hDies.trans (by rw [hDie])) hKids hRoot)]
  exact combineNode_of_lone (a := r.arrival m) rfl rfl rfl hDies hKids hRoot

/-! ### The statement -/

/-- Settles O29: a participant by its arrival, a node by what it combines, a result by its delivery. -/
theorem barriersArriveCombineAndReturn : Obligations.BarriersArriveCombineAndReturn := by
  intro s hl
  refine ⟨fun q d hq h => ?_, fun i r m ho hm => ?_, fun b x a rest ho hAll hRoot =>
    ⟨combineNode_of_agreed ho hAll hRoot, combineNode_of_differing ho hAll hRoot⟩, fun i r m ho hm => ?_, fun id b d w code rank vals hd hw hr =>
    ⟨fun st hOwn => ?_, fun hOwn hp hc => ?_, fun b1 hOwn hp hc hWr => ?_⟩⟩
  · intro b0 e w he hd hw b1 l hr hp hd1 h0
    refine (fireReady_queue hl hq _).trans ?_
    have heq : e.q = q := descsOf_mem_q (List.mem_of_find?_eq_some he)
    have hMay := List.find?_some he
    rw [hw] at hMay
    have hSend := (pegSend_of_read hd hw hMay (heq ▸ hr) hp).trans (arriveNow_of_combining _ hd1 hw h0)
    unfold effPegGlobal
    rw [h]
    dsimp only
    split
    · next e' he' =>
      obtain rfl := Option.some.inj (he'.symm.trans he)
      rw [hSend]
      subst heq
      rfl
    · next he' => exact absurd (he'.symm.trans he) (by simp)
  · intro b0 k x hChip hDie hDies hKids hParent hNew hAb hmm hma
    refine (fireReady_live hl rfl).trans ?_
    unfold effPegArrive
    split
    · next i' r' ho' =>
      obtain ⟨rfl, rfl⟩ := Prod.mk.inj (Option.some.inj (ho'.symm.trans ho))
      rw [hm]
      refine congrArg (fun c => Host.Outcome.next (s.after (pegFinishAll c))) ?_
      refine (congrArg (fun a => nodeArrive k.1 k.2 m.part m.barrier m.gen a b0) (arrival_of_chip hChip hmm hma)).trans ?_
      exact nodeArrive_of_lone hDie hDies hKids hParent hNew hAb
    · next ho' => exact absurd (ho'.symm.trans ho) (by simp)
  · intro b0 hChip
    refine (fireReady_live hl rfl).trans ?_
    unfold effPegResult
    split
    · next i' r' ho' =>
      obtain ⟨rfl, rfl⟩ := Prod.mk.inj (Option.some.inj (ho'.symm.trans ho))
      rw [hm]
      simp only [takeResult]
      rw [if_pos hChip]
    · next ho' => exact absurd (ho'.symm.trans ho) (by simp)
  · simp only [pegFinish, hd, hw, hOwn, hr]
  · simp only [pegFinish, hd, hw, hOwn, hr, hp, Bool.false_eq_true, if_false, if_pos hc]
  · simp only [pegFinish, hd, hw, hOwn, hr, hp, Bool.false_eq_true, if_false, hc, ne_eq, not_true_eq_false, hWr]

end Sys2Proof.Machine
end

section
/-! SUPPORT. Packet bodies and headers decode from their encodings (R275 to R278, R301, R302). -/
namespace Sys2Proof.Machine

/-! ### Reading fields of encoded values, whatever follows them -/

theorem byteAt_eq_field (l : List Byte) (i : Nat) : byteAt l i = field l i 1 := by
  rw [byteAt, field, List.getD_eq_getElem?_getD, ← List.head?_drop]
  cases l.drop i <;> simp [le]

theorem take_toLe : ∀ (n w v : Nat), n ≤ w → (toLe w v).take n = toLe n v
  | 0, _, _, _ => rfl
  | n + 1, w + 1, v, h => congrArg (BitVec.ofNat 8 v :: ·) (take_toLe n w (v / 256) (by omega))

/-- A field of the first value. -/
theorem field_toLe {w v n : Nat} (hn : n ≤ w) (hv : v < 256 ^ n) (r : List Byte) : field (toLe w v ++ r) 0 n = v := by
  rw [field, List.drop_zero, List.take_append_of_le_length (by simpa), take_toLe n w v hn, le_toLe, Nat.mod_eq_of_lt hv]

/-- The part of a list from byte `off` on, past its first value. -/
theorem drop_toLe {w v off : Nat} (h : w ≤ off) (r : List Byte) : (toLe w v ++ r).drop off = r.drop (off - w) := by
  rw [List.drop_append, List.drop_eq_nil_of_le (by simpa), List.nil_append, length_toLe]

/-- A field past the first value. -/
theorem field_skip {w v off : Nat} (h : w ≤ off) (n : Nat) (r : List Byte) : field (toLe w v ++ r) off n = field r (off - w) n := by
  rw [field, drop_toLe h, field]

theorem field_append {a : List Byte} {o : Nat} (ho : a.length = o) (off n : Nat) (r : List Byte) :
    field (a ++ r) (o + off) n = field r off n := by
  rw [field, List.drop_append, List.drop_eq_nil_of_le (by omega), List.nil_append, ho, Nat.add_sub_cancel_left, field]

theorem valuesAt_append {a : List Byte} {o : Nat} (ho : a.length = o) (off w n : Nat) (r : List Byte) :
    valuesAt (a ++ r) (o + off) w n = valuesAt r off w n :=
  List.map_congr_left fun i _ => by rw [Nat.add_assoc, field_append ho]

theorem length_flatMap_toLe {α : Type} (k : Nat) (f : α → Nat) (xs : List α) : (xs.flatMap (fun x => toLe k (f x))).length = k * xs.length := by
  simp [List.length_flatMap, Nat.mul_comm]

/-- Values that stand one after another. -/
theorem valuesAt_flatMap {α : Type} (k : Nat) (f : α → Nat) (r : List Byte) :
    ∀ xs : List α, (∀ x ∈ xs, f x < 256 ^ k) → valuesAt (xs.flatMap (fun x => toLe k (f x)) ++ r) 0 k xs.length = xs.map f
  | [], _ => rfl
  | x :: t, h => by
    have hTail := valuesAt_flatMap k f r t fun y hy => h y (List.mem_cons_of_mem _ hy)
    have hHead := field_toLe (Nat.le_refl k) (h x List.mem_cons_self) (t.flatMap (fun x => toLe k (f x)) ++ r)
    have hSkip (i : Nat) : field (toLe k (f x) ++ (t.flatMap (fun x => toLe k (f x)) ++ r)) (0 + k * (i + 1)) k =
        field (t.flatMap (fun x => toLe k (f x)) ++ r) (0 + k * i) k := by
      rw [show 0 + k * (i + 1) = k + (0 + k * i) by ring, field_append (length_toLe k (f x))]
    simp only [valuesAt, List.flatMap_cons, List.append_assoc, List.length_cons, List.range_succ_eq_map, List.map_cons, List.map_map, hHead,
      Function.comp_def, hSkip, Nat.mul_zero, Nat.add_zero] at hTail ⊢
    rw [hTail]

/-! ### Flags beside numbers -/

theorem boolNat_lt (a : Bool) : boolNat a < 2 := by cases a <;> decide

theorem boolNat_mod (a : Bool) : boolNat a % 2 = boolNat a := Nat.mod_eq_of_lt (boolNat_lt a)

@[simp] theorem boolNat_beq (a : Bool) : (decide (boolNat a = 1)) = a := by cases a <;> rfl

theorem testBit_of_digit {v i : Nat} {a : Bool} (h : v / 2 ^ i % 2 = boolNat a) : v.testBit i = a := by
  rw [Nat.testBit_eq_decide_div_mod_eq, h, boolNat_beq]


/-! ### Each body, whatever follows it -/

theorem decGradAck_encGradAck {b : GradAckB} (h : MsgFits (.gradAck b)) (r : List Byte) : decGradAck (encGradAck b ++ r) = b := by
  obtain ⟨hStatus, hMsgs, hTag, hOcc, hChip, hDie⟩ := h
  have hFlag := boolNat_lt b.overrange
  simp (disch := omega) only [decGradAck, encGradAck, List.append_assoc, byteAt_eq_field, field_skip, field_toLe, Nat.reduceSub,
    testBit_of_digit (a := b.overrange), Nat.mod_eq_of_lt]

theorem decFwd_encFwd {b : FwdB} (h : FwdFits b) (r : List Byte) : decFwd (encFwd b ++ r) = b := by
  obtain ⟨hKind, hFn, hQueue, hOff⟩ := h
  have hValue := b.value.isLt
  simp (disch := omega) only [decFwd, encFwd, List.append_assoc, byteAt_eq_field, field_skip, field_toLe, Nat.reduceSub, Nat.mod_eq_of_lt,
    BitVec.ofNat_toNat, BitVec.setWidth_eq]

theorem decRefresh_encRefresh {b : RefreshB} (h : MsgFits (.refresh b)) (r : List Byte) : decRefresh (encRefresh b ++ r) = b := by
  obtain ⟨hCtx, hSlot, hTable, hTag, hRow, ⟨hChip, hDie⟩, hData⟩ := h
  simp (disch := omega) only [decRefresh, encRefresh, List.append_assoc, byteAt_eq_field, field_skip, field_toLe, drop_toLe, Nat.reduceSub,
    Nat.mod_eq_of_lt, List.drop_zero, List.take_left]

theorem decDict_encDict {b : DictSegB} (h : MsgFits (.dict b)) (r : List Byte) : decDict (encDict b ++ r) = b := by
  obtain ⟨hId, hSeg, hData⟩ := h
  have hFlag := boolNat_lt b.last
  simp (disch := omega) only [decDict, encDict, List.append_assoc, byteAt_eq_field, field_skip, field_toLe, drop_toLe, Nat.reduceSub,
    testBit_of_digit (a := b.last), List.drop_zero, List.take_left]

theorem decMem_encMem {withData : Bool} {b : MemB} (h : MemFits withData b) (r : List Byte) : decMem withData (encMem b ++ r) = b := by
  obtain ⟨hAddr, hBytes, hTag, hData⟩ := h
  have hHost := boolNat_lt b.host
  have hPoison := boolNat_lt b.poison
  have hBody : (if withData = true then (b.data ++ r).take b.bytes else []) = b.data := by
    cases withData
    · exact (List.eq_nil_of_length_eq_zero hData).symm
    · rw [if_pos rfl, ← show b.data.length = b.bytes from hData, List.take_left]
  simp (disch := omega) only [decMem, encMem, List.append_assoc, byteAt_eq_field, field_skip, field_toLe, drop_toLe, Nat.reduceSub,
    testBit_of_digit (a := b.host), testBit_of_digit (a := b.poison), List.drop_zero, hBody]

theorem map_ofNat_toNat {w : Nat} (l : List (BitVec w)) : (l.map BitVec.toNat).map (BitVec.ofNat w) = l := by
  simp [List.map_map, Function.comp_def]

/-- Words that stand at the end of a body. -/
theorem words_flatMap_toLe {w : Nat} (k : Nat) (hw : w = 8 * k) (l : List (BitVec w)) (r : List Byte) :
    (valuesAt (l.flatMap (fun v => toLe k v.toNat) ++ r) 0 k l.length).map (BitVec.ofNat w) = l := by
  rw [valuesAt_flatMap k BitVec.toNat r l fun v _ => by simpa [hw, Nat.pow_mul] using v.isLt, map_ofNat_toNat]

theorem valuesAt_skip {w v off : Nat} (h : w ≤ off) (k n : Nat) (r : List Byte) : valuesAt (toLe w v ++ r) off k n = valuesAt r (off - w) k n := by
  rw [← Nat.add_sub_cancel' h, valuesAt_append (length_toLe w v), Nat.add_sub_cancel_left]

theorem decPegArrive_encPegArrive {b : PegArriveB} (h : MsgFits (.pegArrive b)) (r : List Byte) : decPegArrive (encPegArrive b ++ r) = b := by
  obtain ⟨hPart, hBarrier, hReduce, hCount, hLen, hSub, hGen, hCtx⟩ := h
  have hMismatch := boolNat_lt b.mismatch
  have hAbort := boolNat_lt b.abort
  have hVals : (valuesAt (b.vals.flatMap (fun v => toLe 8 v.toNat) ++ r) 0 8 b.count).map (BitVec.ofNat 64) = b.vals := by
    rw [← hLen, words_flatMap_toLe 8 rfl]
  simp (disch := omega) only [decPegArrive, encPegArrive, List.append_assoc, byteAt_eq_field, field_skip, field_toLe, valuesAt_skip, Nat.reduceSub,
    testBit_of_digit (a := b.mismatch), testBit_of_digit (a := b.abort), Nat.mod_eq_of_lt, hVals]

theorem decPegResult_encPegResult {b : PegResultB} (h : MsgFits (.pegResult b)) (r : List Byte) : decPegResult (encPegResult b ++ r) = b := by
  obtain ⟨hPart, hBarrier, hStatus, hCount, hRank, hGen, hCtx, hLen⟩ := h
  have hVals : (if b.status = 0 then (valuesAt (b.vals.flatMap (fun v => toLe 8 v.toNat) ++ r) 0 8 b.count).map (BitVec.ofNat 64) else []) = b.vals := by
    by_cases hs : b.status = 0
    · rw [if_pos hs] at hLen ⊢
      rw [← hLen, words_flatMap_toLe 8 rfl]
    · rw [if_neg hs] at hLen ⊢
      exact (List.eq_nil_of_length_eq_zero hLen).symm
  simp (disch := omega) only [decPegResult, encPegResult, List.append_assoc, byteAt_eq_field, field_skip, field_toLe, valuesAt_skip, Nat.reduceSub,
    Nat.mod_eq_of_lt, hVals]

theorem decHdr_encHdr {h : PktHdr} (hf : HdrFits h) (r : List Byte) : decHdr (encHdr h ++ r) = h := by
  obtain ⟨hType, hVc, hSub, hLen, hDst, hSrc, hPart, hHops, hDim, hStream⟩ := hf
  have hMcast := boolNat_lt h.mcast
  have hRt := boolNat_lt h.rt
  have hSubBit : bitsOf (h.vc + 8 * h.sub + 16 * boolNat h.mcast) 3 3 = h.sub := by
    simp only [bitsOf]
    omega
  have hVcBits : (h.vc + 8 * h.sub + 16 * boolNat h.mcast) % 8 = h.vc := by omega
  have hStreamBits : bitsOf (h.dim + 8 * boolNat h.rt + 16 * h.stream) 6 4 = h.stream := by
    simp only [bitsOf]
    omega
  have hDimBits : (h.dim + 8 * boolNat h.rt + 16 * h.stream) % 8 = h.dim := by omega
  simp (disch := omega) only [decHdr, encHdr, List.append_assoc, byteAt_eq_field, field_skip, field_toLe, Nat.reduceSub,
    testBit_of_digit (a := h.mcast), testBit_of_digit (a := h.rt), hSubBit, hVcBits, hStreamBits, hDimBits, Nat.mod_eq_of_lt]

theorem length_encHdr (h : PktHdr) : (encHdr h).length = 16 := by simp [encHdr]

theorem signedOf_ofSigned {w : Nat} (hw : 0 < w) {x : Int} (h : -(2 : Int) ^ (w - 1) ≤ x ∧ x < (2 : Int) ^ (w - 1)) : signedOf w (ofSigned w x) = x := by
  obtain ⟨k, rfl⟩ : ∃ k, w = k + 1 := ⟨w - 1, by omega⟩
  simp only [Nat.add_sub_cancel] at h
  have hPow : (2 : Int) ^ (k + 1) = 2 * 2 ^ k := by ring
  have hPos : (0 : Int) < 2 ^ k := by positivity
  have hCast : ((x % 2 ^ (k + 1)).toNat : Int) = x % 2 ^ (k + 1) := Int.toNat_of_nonneg (Int.emod_nonneg _ (by omega))
  have hLt : (x % 2 ^ (k + 1)).toNat < 2 ^ (k + 1) := by
    have := Int.emod_lt_of_pos x (show (0 : Int) < 2 ^ (k + 1) by omega)
    zify
    omega
  simp only [signedOf, ofSigned, Nat.mod_eq_of_lt hLt, Nat.add_sub_cancel]
  obtain hx | hx := lt_or_ge x 0
  · have hm : x % 2 ^ (k + 1) = x + 2 ^ (k + 1) := by
      rw [← Int.add_emod_right, Int.emod_eq_of_lt (by omega) (by omega)]
    rw [if_neg (by zify; omega), hCast, hm]
    omega
  · have hm : x % 2 ^ (k + 1) = x := Int.emod_eq_of_lt hx (by omega)
    rw [if_pos (by zify; omega), hCast, hm]

theorem ofSigned_lt (w : Nat) (x : Int) : ofSigned w x < 2 ^ w := by
  have hPos : (0 : Int) < 2 ^ w := by positivity
  have hNonneg := Int.emod_nonneg x hPos.ne'
  have hLt := Int.emod_lt_of_pos x hPos
  simp only [ofSigned]
  zify
  omega

theorem decContrib_encContrib {b : ContribB} (h : MsgFits (.contrib b)) (r : List Byte) : decContrib (encContrib b ++ r) = b := by
  obtain ⟨hCtx, hWidth, hSlot, hTable, hChunk, hRow, hTag, hOcc, ⟨hChip, hDie⟩, hPitch, hLen, hElems⟩ := h
  have hSat := boolNat_lt b.sat
  have hFlags : (b.width + 4 * boolNat b.sat + 8 * b.slot) % 4 = b.width := by omega
  have hSlotBits : bitsOf (b.width + 4 * boolNat b.sat + 8 * b.slot) 4 3 = b.slot := by
    simp only [bitsOf]
    omega
  have hBits : contribBits b.width = 8 * (contribBits b.width / 8) ∧ 0 < contribBits b.width := by
    simp only [contribBits]
    split
    · decide
    · split <;> decide
  have hVals : (valuesAt (b.elems.flatMap (fun x => toLe (contribBits b.width / 8) (ofSigned (contribBits b.width) x)) ++ r) 0
      (contribBits b.width / 8) b.elems.length).map (signedOf (contribBits b.width)) = b.elems := by
    rw [valuesAt_flatMap _ _ _ _ fun x _ => ?_, List.map_map]
    · exact (List.map_congr_left fun x hx => signedOf_ofSigned hBits.2 (hElems x hx)).trans (List.map_id _)
    · rw [show (256 : Nat) = 2 ^ 8 from rfl, ← Nat.pow_mul, ← hBits.1]
      exact ofSigned_lt _ _
  simp (disch := omega) only [decContrib, encContrib, List.append_assoc, byteAt_eq_field, field_skip, field_toLe, valuesAt_skip, Nat.reduceSub,
    testBit_of_digit (a := b.sat), hFlags, hSlotBits, Nat.mod_eq_of_lt, hVals]

theorem decPartial_encPartial {b : PartialB} (h : MsgFits (.partialV b)) (r : List Byte) : decPartial (encPartial b ++ r) = b := by
  obtain ⟨hStatus, hFrag, hTag, ⟨hChip, hDie⟩, hLen, hBf⟩ := h
  have hFlag := boolNat_lt b.bf16
  have hVals : (if b.bf16 = true then
        (valuesAt (b.vals.flatMap (fun v => if b.bf16 = true then toLe 2 (v.toNat / 65536) else toLe 4 v.toNat) ++ r) 0 2 b.vals.length).map
          (fun v => BitVec.ofNat 32 (v * 65536))
      else (valuesAt (b.vals.flatMap (fun v => if b.bf16 = true then toLe 2 (v.toNat / 65536) else toLe 4 v.toNat) ++ r) 0 4 b.vals.length).map
        (BitVec.ofNat 32)) = b.vals := by
    cases hb : b.bf16
    · simp only [Bool.false_eq_true, if_false]
      exact words_flatMap_toLe 4 rfl b.vals r
    · simp only [if_true]
      rw [valuesAt_flatMap _ _ _ _ fun v _ => ?_, List.map_map]
      · refine (List.map_congr_left fun v hv => ?_).trans (List.map_id _)
        have hz := hBf hb v hv
        refine BitVec.eq_of_toNat_eq ?_
        have hv := v.isLt
        simp only [Function.comp_apply, BitVec.toNat_ofNat, id]
        omega
      · have hv := v.isLt
        omega
  simp (disch := omega) only [decPartial, encPartial, List.append_assoc, byteAt_eq_field, field_skip, field_toLe, valuesAt_skip, Nat.reduceSub,
    testBit_of_digit (a := b.bf16), Nat.mod_eq_of_lt, hVals]

theorem decFragReq_encFragReq {b : FragReqB} (h : MsgFits (.fragReq b)) (r : List Byte) : decFragReq (encFragReq b ++ r) = b := by
  obtain ⟨hCtx, hSlot, hStream, hTable, hFrag, hTag, ⟨hChip, hDie⟩, hPitch, hLen, hRows, hWeights⟩ := h
  have hWeighted := boolNat_lt b.weighted
  have hBf := boolNat_lt b.bf16
  have hSlotBits : bitsOf (boolNat b.weighted + 2 * boolNat b.bf16 + 4 * b.slot) 3 2 = b.slot := by
    simp only [bitsOf]
    omega
  have hRowVals (t : List Byte) : valuesAt (b.rows.flatMap (toLe 6) ++ t) 0 6 b.rows.length = b.rows := by
    simpa using valuesAt_flatMap 6 id t b.rows fun x hx => hRows x hx
  have hWeightVals : (if b.weighted = true then (valuesAt (b.rows.flatMap (toLe 6) ++
        ((if b.weighted = true then b.weights.flatMap (fun w => toLe 4 w.toNat) else []) ++ r)) (6 * b.rows.length) 4 b.rows.length).map
          (BitVec.ofNat 32) else []) = b.weights := by
    cases hb : b.weighted
    · simp only [hb, Bool.false_eq_true, if_false] at hWeights ⊢
      exact (List.eq_nil_of_length_eq_zero hWeights).symm
    · simp only [hb, if_true] at hWeights ⊢
      have hSkip := valuesAt_append (length_flatMap_toLe 6 id b.rows) 0 4 b.rows.length (b.weights.flatMap (fun w => toLe 4 w.toNat) ++ r)
      rw [show 6 * b.rows.length = 6 * b.rows.length + 0 from rfl]
      refine (congrArg (List.map (BitVec.ofNat 32)) hSkip).trans ?_
      rw [← hWeights, words_flatMap_toLe 4 rfl]
  have hOff : 16 + 6 * b.rows.length - 16 = 6 * b.rows.length := Nat.add_sub_cancel_left _ _
  simp (disch := omega) only [decFragReq, encFragReq, List.append_assoc, byteAt_eq_field, field_skip, field_toLe, valuesAt_skip, Nat.reduceSub,
    testBit_of_digit (a := b.weighted), testBit_of_digit (a := b.bf16), hSlotBits, Nat.mod_eq_of_lt, hRowVals, Nat.sub_sub, Nat.reduceAdd, hOff,
    hWeightVals]

/-! ### The statement -/

/-- Any message, whatever follows its body. -/
theorem decMsg_encMsg {m : Msg} (h : MsgFits m) (r : List Byte) : decMsg (encMsg m).1 ((encMsg m).2 ++ r) = some m := by
  cases m with
  | fragReq b => exact congrArg (some ∘ Msg.fragReq) (decFragReq_encFragReq h r)
  | partialV b => exact congrArg (some ∘ Msg.partialV) (decPartial_encPartial h r)
  | contrib b => exact congrArg (some ∘ Msg.contrib) (decContrib_encContrib h r)
  | gradAck b => exact congrArg (some ∘ Msg.gradAck) (decGradAck_encGradAck h r)
  | refresh b => exact congrArg (some ∘ Msg.refresh) (decRefresh_encRefresh h r)
  | refreshAck tag rows failed =>
    obtain ⟨hTag, hRows⟩ := h
    have hFlag := boolNat_lt failed
    simp (disch := omega) only [decMsg, encMsg, encRefreshAck, List.append_assoc, byteAt_eq_field, field_skip, field_toLe, Nat.reduceSub,
      testBit_of_digit (a := failed)]
  | pegArrive b => exact congrArg (some ∘ Msg.pegArrive) (decPegArrive_encPegArrive h r)
  | pegResult b => exact congrArg (some ∘ Msg.pegResult) (decPegResult_encPegResult h r)
  | memRead b => exact congrArg (some ∘ Msg.memRead) (decMem_encMem h r)
  | memWrite b => exact congrArg (some ∘ Msg.memWrite) (decMem_encMem h r)
  | memData b => exact congrArg (some ∘ Msg.memData) (decMem_encMem h r)
  | memDone b => exact congrArg (some ∘ Msg.memDone) (decMem_encMem h r)
  | fwdWrite b => exact congrArg (some ∘ Msg.fwdWrite) (decFwd_encFwd h r)
  | fwdRead b => exact congrArg (some ∘ Msg.fwdRead) (decFwd_encFwd h r)
  | fwdData b => exact congrArg (some ∘ Msg.fwdData) (decFwd_encFwd h r)
  | fwdReport token =>
    have hToken : token < 65536 := h
    simp (disch := omega) only [decMsg, encMsg, field_toLe, Nat.mod_eq_of_lt]
  | dict b => exact congrArg (some ∘ Msg.dict) (decDict_encDict h r)
  | echo n =>
    have hNonce : n < 2 ^ 32 := h
    simp (disch := omega) only [decMsg, encMsg, field_toLe, Nat.mod_eq_of_lt]
  | echoReply n =>
    have hNonce : n < 2 ^ 32 := h
    simp (disch := omega) only [decMsg, encMsg, field_toLe, Nat.mod_eq_of_lt]
  | unreach hd cause body =>
    obtain ⟨hHdr, hCause, hBody⟩ := h
    have hHead (t : List Byte) : decHdr ((encHdr hd ++ t).take 16) = hd := by
      rw [← length_encHdr hd, List.take_left, ← List.append_nil (encHdr hd), decHdr_encHdr hHdr]
    have hCauseAt (t : List Byte) : field (encHdr hd ++ (toLe 16 cause ++ t)) 16 1 = cause := by
      rw [show (16 : Nat) = 16 + 0 from rfl, field_append (length_encHdr hd), field_toLe (by decide) (by omega)]
    have hPad : padTo 32 body = body := by rw [padTo, ← hBody, List.take_left]
    have hRest : ((encHdr hd ++ (toLe 16 cause ++ (padTo 32 body ++ r))).drop 32).take 32 = body := by
      rw [← List.append_assoc, List.drop_append, List.drop_eq_nil_of_le (by simp [length_encHdr]), List.nil_append, hPad]
      simp [length_encHdr, ← hBody]
    simp only [decMsg, encMsg, List.append_assoc, byteAt_eq_field, hHead, hCauseAt, hRest]

/-- Settles O16: each body field by field from its encoding, which padding does not change. -/
theorem messageSurvivesItsPacket : Obligations.MessageSurvivesItsPacket :=
  ⟨fun _ h => decMsg_encMsg h _, fun h hf => ⟨length_encHdr h, by simpa using decHdr_encHdr hf []⟩⟩

end Sys2Proof.Machine
end

section
/-! SUPPORT. SLOT_CHECK (R33, R34): a slot's judgement, and what a checked descriptor becomes. -/
namespace Sys2Proof.Machine

/-! ### A descriptor that is taken in -/

/-- A checked descriptor as it is taken in. -/
def newDesc (q pos k : Nat) (whole : Bool) (l : List Byte) (b : Blk) : Desc :=
  let x := b.q q
  { id := b.front.nextId, q := q, slot := pos % x.span, pos := pos, slots := k, replay := pos / x.span, bytes := l, stage := .held,
    bad := !(slotOk l x whole), checkedAt := b.clk.half }

/-- The block with it, before its check's outcome or its period is noted. -/
def enterDesc (q pos k : Nat) (whole : Bool) (l : List Byte) (b : Blk) : Blk :=
  let c := b.setQ q { b.q q with fetch := pos + k, poll := none }
  { c with front := { c.front with descs := b.front.descs ++ [newDesc q pos k whole l b], nextId := b.front.nextId + 1 } }

/-- With no range, replay failure nor patch in the way, the check's outcome alone decides (R34). -/
theorem takeDesc_eq {q pos k : Nat} {whole : Bool} {l : List Byte} {b : Blk} (hc : (b.q q).cancels = []) (hr : (b.q q).rearmFail = none)
    (hp : (b.q q).patches = []) :
    takeDesc q pos k whole l b =
      if slotOk l (b.q q) whole then tagDesc b.front.nextId (enterDesc q pos k whole l b)
      else endMalformed b.front.nextId (byteAt l 0 == 0x22) (enterDesc q pos k whole l b) := by
  cases hs : slotOk l (b.q q) whole <;>
    simp [takeDesc, hc, hr, hp, patchBad, afterRearmFail, enterDesc, newDesc, hs]

section
variable {q pos k : Nat} {whole : Bool} {l : List Byte} {b : Blk} (hn : ∀ e ∈ b.front.descs, e.id < b.front.nextId)

theorem desc?_nextId (h : ∀ e ∈ b.front.descs, e.id < b.front.nextId) : b.desc? b.front.nextId = none :=
  List.find?_eq_none.mpr fun e he => by simpa using (h e he).ne

include hn

theorem desc?_enterDesc_same : (enterDesc q pos k whole l b).desc? b.front.nextId = some (newDesc q pos k whole l b) := by
  have hNone : b.front.descs.find? (fun d => d.id = b.front.nextId) = none := desc?_nextId hn
  simp [enterDesc, Blk.desc?, List.find?_append, hNone, newDesc]

omit hn in
theorem desc?_enterDesc_ne {i : Nat} (hi : i ≠ b.front.nextId) : (enterDesc q pos k whole l b).desc? i = b.desc? i := by
  simp [enterDesc, Blk.desc?, List.find?_append, newDesc, Ne.symm hi]

end

theorem q_enterDesc (q pos k : Nat) (whole : Bool) (l : List Byte) (b : Blk) :
    (enterDesc q pos k whole l b).q q = { b.q q with fetch := pos + k, poll := none } := by
  have h := q_setQ b q q { b.q q with fetch := pos + k, poll := none }
  rw [if_pos rfl] at h
  exact h

theorem alone_enterDesc {q pos k : Nat} {whole : Bool} {l : List Byte} {b : Blk} (h : ∀ e ∈ b.front.descs, e.behind ≠ some b.front.nextId) :
    ∀ e ∈ (enterDesc q pos k whole l b).front.descs, e.behind ≠ some b.front.nextId := by
  intro e he
  obtain he | he := List.mem_append.mp he
  · exact h e he
  · obtain rfl := List.mem_singleton.mp he
    simp [newDesc]

/-- The PERIODs of the queue that have yet to open. -/
def waitingPeriods (b : Blk) (q : Nat) : List Desc := (b.descsOf q).filter (fun e => e.opcode = 0x04 && (e.stage = .held || e.stage = .handed))

/-- The PERIODs before the new descriptor that have yet to open. -/
theorem aheadOf_enterDesc {q pos k : Nat} {whole : Bool} {l : List Byte} {b : Blk} (hn : ∀ e ∈ b.front.descs, e.id < b.front.nextId) :
    ((enterDesc q pos k whole l b).descsOf q).filter (fun e => e.id < b.front.nextId && e.opcode == 0x04 && (e.stage == .held || e.stage == .handed)) =
      waitingPeriods b q := by
  have hNew : (enterDesc q pos k whole l b).descsOf q = b.descsOf q ++ [newDesc q pos k whole l b] := by
    simp [Blk.descsOf, enterDesc, newDesc]
  rw [hNew, List.filter_append, waitingPeriods]
  have hSelf : [newDesc q pos k whole l b].filter
      (fun e => e.id < b.front.nextId && e.opcode == 0x04 && (e.stage == .held || e.stage == .handed)) = [] := by simp [newDesc]
  rw [hSelf, List.append_nil]
  refine List.filter_congr fun e he => ?_
  have hLt := hn e (List.mem_filter.mp he).1
  simp only [hLt, decide_true, Bool.true_and]
  rfl

/-- A tagged descriptor takes a PERIOD before it, or the open period, or is LATE (R55). -/
theorem tagDesc_enterDesc {q pos k : Nat} {whole : Bool} {l : List Byte} {b : Blk} (hn : ∀ e ∈ b.front.descs, e.id < b.front.nextId) :
    tagDesc b.front.nextId (enterDesc q pos k whole l b) =
      let c := enterDesc q pos k whole l b
      let st := b.front.streams.get {} (b.q q).stream
      if (byteAt l 1).testBit 2 = false then c
      else match (waitingPeriods b q).getLast? with
        | some p => c.modDesc b.front.nextId (fun d => { d with behind := some p.id })
        | none =>
          if st.open_ && !st.passed then c.modDesc b.front.nextId (fun d => { d with period := some st.num })
          else completeWith b.front.nextId .late (idleAux c (newDesc q pos k whole l b)) 0 c := by
  have hTagged : (newDesc q pos k whole l b).tagged = (byteAt l 1).testBit 2 := rfl
  have hq : (newDesc q pos k whole l b).q = q := rfl
  simp only [tagDesc, desc?_enterDesc_same hn, hTagged, hq, q_enterDesc, aheadOf_enterDesc hn]
  cases (byteAt l 1).testBit 2
  · rfl
  · cases (waitingPeriods b q).getLast? <;> rfl

section
variable {q pos k : Nat} {whole : Bool} {l : List Byte} {b : Blk} (hIds : ∀ e ∈ b.front.descs, e.id < b.front.nextId ∧ e.behind ≠ some b.front.nextId)

/-- What taking a descriptor in changes besides that descriptor. -/
def TakenIn (q fetch : Nat) (b c : Blk) : Prop :=
  c.front.nextId = b.front.nextId + 1 ∧ (∀ i, i ≠ b.front.nextId → c.desc? i = b.desc? i) ∧ (c.q q).fetch = fetch ∧ (c.q q).poll = none

theorem takenIn_enterDesc : TakenIn q (pos + k) b (enterDesc q pos k whole l b) := by
  refine ⟨rfl, fun i hi => desc?_enterDesc_ne hi, ?_⟩
  rw [q_enterDesc]
  exact ⟨rfl, rfl⟩

theorem takenIn_modDesc {f : Desc → Desc} (hf : ∀ e, e.id = b.front.nextId → (f e).id = b.front.nextId) :
    TakenIn q (pos + k) b ((enterDesc q pos k whole l b).modDesc b.front.nextId f) := by
  refine ⟨rfl, fun i hi => (desc?_modDesc_ne hf _ hi).trans (desc?_enterDesc_ne hi), ?_⟩
  rw [show ((enterDesc q pos k whole l b).modDesc b.front.nextId f).q q = (enterDesc q pos k whole l b).q q from rfl, q_enterDesc]
  exact ⟨rfl, rfl⟩

include hIds

theorem desc?_modDesc_enterDesc {f : Desc → Desc} (hf : ∀ e, e.id = b.front.nextId → (f e).id = b.front.nextId) :
    ((enterDesc q pos k whole l b).modDesc b.front.nextId f).desc? b.front.nextId = some (f (newDesc q pos k whole l b)) :=
  desc?_modDesc_same hf (desc?_enterDesc_same fun e he => (hIds e he).1)

theorem q_completeWith_enterDesc (st : Status) (aux : Nat) : (completeWith b.front.nextId st aux 0 (enterDesc q pos k whole l b)).q q =
    { b.q q with fetch := pos + k, poll := none, recq := (b.q q).recq ++ [.desc b.front.nextId] } := by
  have h := q_completeWith st aux 0 (desc?_enterDesc_same (q := q) (pos := pos) (k := k) (whole := whole) (l := l) fun e he => (hIds e he).1)
    (by simp [newDesc]) (alone_enterDesc fun e he => (hIds e he).2) q
  simpa [newDesc, q_enterDesc] using h

theorem desc?_completeWith_enterDesc (st : Status) (aux : Nat) : (completeWith b.front.nextId st aux 0 (enterDesc q pos k whole l b)).desc?
    b.front.nextId = some ((newDesc q pos k whole l b).noted st aux 0).ended :=
  desc?_completeWith_same st aux 0 (desc?_enterDesc_same fun e he => (hIds e he).1) (by simp [newDesc]) (alone_enterDesc fun e he => (hIds e he).2)

theorem takenIn_completeWith (st : Status) (aux : Nat) :
    TakenIn q (pos + k) b (completeWith b.front.nextId st aux 0 (enterDesc q pos k whole l b)) := by
  refine ⟨congrArg Front.nextId (completeWith_frame b.front.nextId st aux 0 (enterDesc q pos k whole l b)), fun i hi => ?_, ?_⟩
  · rw [desc?_completeWith_ne st aux 0 (desc?_enterDesc_same fun e he => (hIds e he).1) (by simp [newDesc])
      (alone_enterDesc fun e he => (hIds e he).2) hi, desc?_enterDesc_ne hi]
  · rw [q_completeWith_enterDesc hIds]
    exact ⟨rfl, rfl⟩

end

/-- Two changes of one descriptor. -/
theorem modDesc_modDesc {id : Nat} {f : Desc → Desc} (hf : ∀ e, e.id = id → (f e).id = id) (g : Desc → Desc) (b : Blk) :
    (b.modDesc id f).modDesc id g = b.modDesc id (fun e => g (f e)) := by
  simp only [Blk.modDesc, List.map_map]
  congr 2
  refine List.map_congr_left fun e _ => ?_
  by_cases he : e.id = id <;> simp [he, hf]

/-- A STEP whose check failed, as it is held (R173). -/
def Desc.heldBad (d : Desc) : Desc :=
  if d.statuses.contains .malformed then { d with bad := true } else { d with bad := true, statuses := d.statuses ++ [.malformed] }

theorem heldBad_id (d : Desc) : d.heldBad.id = d.id := by
  simp only [Desc.heldBad]
  split <;> rfl

theorem endMalformed_step (b : Blk) (id : Nat) : endMalformed id true b = b.modDesc id Desc.heldBad :=
  modDesc_modDesc (by exact fun _ h => h) _ b

theorem newDesc_malformed (q pos k : Nat) (whole : Bool) (l : List Byte) (b : Blk) : ((newDesc q pos k whole l b).noted .malformed 0 0).ended =
    { newDesc q pos k whole l b with
      stage := .complete, statuses := [.malformed], aux := if (newDesc q pos k whole l b).opcode = 0x03 then 0xFFFFFFFF else 0 } := by
  have hStatus : recordStatus [.malformed] ≠ .ok := by decide
  by_cases h : byteAt l 0 = 0x03 <;> simp [Desc.ended, Desc.noted, newDesc, Desc.applying, hStatus, Desc.opcode, h]

theorem newDesc_heldBad {q pos k : Nat} {whole : Bool} {l : List Byte} {b : Blk} (h : slotOk l (b.q q) whole = false) :
    (newDesc q pos k whole l b).heldBad = { newDesc q pos k whole l b with statuses := [.malformed] } := by
  simp [Desc.heldBad, newDesc, h]

/-- What a queue's descriptor becomes as it is taken in. -/
theorem takenDescriptor (q pos k : Nat) (whole : Bool) (l : List Byte) (b : Blk) (hCancels : (b.q q).cancels = []) (hFail : (b.q q).rearmFail = none)
    (hPatches : (b.q q).patches = []) (hIds : ∀ e ∈ b.front.descs, e.id < b.front.nextId ∧ e.behind ≠ some b.front.nextId) :
    let x := b.q q
    let new := newDesc q pos k whole l b
    let c := takeDesc q pos k whole l b
    let st := b.front.streams.get {} x.stream
    let before := waitingPeriods b q
    TakenIn q (pos + k) b c ∧
    (slotOk l x whole = false → byteAt l 0 ≠ 0x22 →
      c.desc? new.id = some { new with stage := .complete, statuses := [.malformed], aux := if new.opcode = 0x03 then 0xFFFFFFFF else 0 } ∧
      (c.q q).recq = x.recq ++ [.desc new.id]) ∧
    (slotOk l x whole = false → byteAt l 0 = 0x22 → c.desc? new.id = some { new with statuses := [.malformed] }) ∧
    (slotOk l x whole = true → (byteAt l 1).testBit 2 = false → c.desc? new.id = some new) ∧
    (slotOk l x whole = true → (byteAt l 1).testBit 2 = true →
      (∀ p, before.getLast? = some p → c.desc? new.id = some { new with behind := some p.id }) ∧
      (before = [] → st.open_ = true → st.passed = false → c.desc? new.id = some { new with period := some st.num }) ∧
      (before = [] → st.open_ = false ∨ st.passed = true → ∃ e, c.desc? new.id = some e ∧ e.stage = .complete ∧ e.statuses = [.late] ∧
        (c.q q).recq = x.recq ++ [.desc new.id])) := by
  have hn := fun e he => (hIds e he).1
  have hTag := tagDesc_enterDesc (q := q) (pos := pos) (k := k) (whole := whole) (l := l) hn
  intro x new c st before
  have hTaken : c = _ := takeDesc_eq hCancels hFail hPatches
  cases hOk : slotOk l x whole
  · rw [hOk, if_neg Bool.false_ne_true] at hTaken
    cases hStep : byteAt l 0 == 0x22
    · rw [hStep] at hTaken
      have hEnd : c = completeWith b.front.nextId .malformed 0 0 (enterDesc q pos k whole l b) := hTaken
      have hNot : byteAt l 0 ≠ 0x22 := by simpa using hStep
      refine ⟨hEnd ▸ takenIn_completeWith hIds _ _, fun _ _ => ⟨?_, ?_⟩, fun _ h => absurd h hNot, Bool.noConfusion, Bool.noConfusion⟩
      · rw [hEnd, show new.id = b.front.nextId from rfl, desc?_completeWith_enterDesc hIds]
        exact congrArg some (newDesc_malformed ..)
      · rw [hEnd, q_completeWith_enterDesc hIds]
        rfl
    · rw [hStep, endMalformed_step] at hTaken
      refine ⟨hTaken ▸ takenIn_modDesc (fun e he => (heldBad_id e).trans he), fun _ h => absurd (by simpa using hStep) h, fun _ _ => ?_, Bool.noConfusion,
        Bool.noConfusion⟩
      rw [hTaken, show new.id = b.front.nextId from rfl, desc?_modDesc_enterDesc hIds (fun e he => (heldBad_id e).trans he)]
      exact congrArg some (newDesc_heldBad hOk)
  · rw [hOk, if_pos rfl, hTag] at hTaken
    refine ⟨?_, Bool.noConfusion, Bool.noConfusion, fun _ hu => ?_, fun _ ht => ?_⟩
    · rw [hTaken]
      dsimp only
      split
      · exact takenIn_enterDesc
      · split
        · exact takenIn_modDesc (by exact fun _ h => h)
        · split
          · exact takenIn_modDesc (by exact fun _ h => h)
          · exact takenIn_completeWith hIds _ _
    · rw [hTaken, if_pos hu]
      exact desc?_enterDesc_same hn
    · rw [if_neg (by simp [ht])] at hTaken
      refine ⟨fun p hp => ?_, fun hb ho hps => ?_, fun hb hst => ?_⟩
      · simp only [show (waitingPeriods b q).getLast? = some p from hp] at hTaken
        rw [hTaken]
        exact desc?_modDesc_enterDesc hIds (by exact fun _ h => h)
      · simp only [show waitingPeriods b q = [] from hb, List.getLast?_nil] at hTaken
        rw [hTaken, if_pos (by simp only [Bool.and_eq_true, Bool.not_eq_true']; exact ⟨ho, hps⟩)]
        exact desc?_modDesc_enterDesc hIds (by exact fun _ h => h)
      · simp only [show waitingPeriods b q = [] from hb, List.getLast?_nil] at hTaken
        have hShut : ¬(st.open_ && !st.passed) = true := by
          obtain h | h := hst <;> simp [h]
        rw [if_neg hShut] at hTaken
        refine ⟨_, hTaken ▸ desc?_completeWith_enterDesc hIds _ _, rfl, by simp [Desc.ended, Desc.noted, newDesc], ?_⟩
        rw [hTaken, q_completeWith_enterDesc hIds]
        rfl

/-! ### Judging the slots of a burst -/

/-- The slot counts as not yet written (R33, R43). -/
theorem slotInvalid_eq (n : Nat) (b : Blk) :
    slotInvalid n b = b.modQ n (fun y => { y with burst := none, poll := some (y.poll.getD { t0 := b.clk.half, k := 0 }) }) := by
  simp only [slotInvalid, Blk.modQ]
  congr 2
  cases (b.q n).poll <;> rfl

/-- A slot that has been read (R33, R34). -/
theorem judgeSlots_of_read {q fuel : Nat} {b r : Blk} {bu : Burst} {d : List PByte} (hc : (b.q q).cancels = []) (hb : (b.q q).burst = some bu)
    (h1 : (b.q q).fetch < bu.first + bu.n) (h2 : (b.q q).fetch < (b.q q).tailSlots) (h3 : fetchRoom (b.setQ q (b.q q)) q = true)
    (hr : rdSlot q ((b.q q).fetch % (b.q q).span) bu.repoll (b.setQ q (b.q q)) = (r, .ok d)) :
    let x := b.q q
    let slot := x.fetch % x.span
    let len := byteAt (plain d) 6
    let k := min len (x.span - slot)
    judgeSlots q (fuel + 1) b =
      if anyPoison d then
        slotInvalid q (raise { cause := 0x12, ctx := some x.ctx, queue := some q, unit := 0, detail2 := x.ringBase.toNat + 64 * slot } r)
      else if (byteAt (plain d) 1).testBit 0 ≠ x.phase then slotInvalid q r
      else if len = 0 ∨ 4 < len then slotInvalid q (bump Ctr.slotCheckFailed q 1 r)
      else if x.tailSlots < x.fetch + k then r.modQ q (fun x => { x with burst := none, poll := none, short := true })
      else if bu.first + bu.n < x.fetch + k then r.modQ q (fun x => { x with burst := none })
      else
        match rdSlots q bu.repoll (k - 1) (slot + 1) r with
        | (b, .ok rest) =>
          let all := plain (d ++ rest)
          if anyPoison rest then slotInvalid q b
          else if crc8 (all.take 7 ++ all.drop 8) ≠ byteAt all 7 then slotInvalid q (bump Ctr.slotCheckFailed q 1 b)
          else judgeSlots q fuel (dropRingLines q x.fetch k (takeDesc q x.fetch k (decide (len ≤ x.span - slot)) all b))
        | (b, .fail s) => fetchFailed q s b
        | (b, _) => b := by
  have hGo : ¬(bu.first + bu.n ≤ (b.q q).fetch ∨ (b.q q).tailSlots ≤ (b.q q).fetch ∨ fetchRoom (b.setQ q (b.q q)) q = false) := by
    rintro (h | h | h)
    · omega
    · omega
    · exact Bool.noConfusion (h3.symm.trans h)
  simp only [judgeSlots, skipCancelled_of_nil hc, hb, if_neg hGo, hr] <;> rfl

/-- Each outcome of a slot that has been read (R33, R34). -/
theorem judgeSlots_outcomes (q fuel : Nat) (b : Blk) (bu : Burst) (d : List PByte) (r : Blk) : let x := b.q q
    x.cancels = [] → x.burst = some bu → x.fetch < bu.first + bu.n → x.fetch < x.tailSlots → fetchRoom (b.setQ q x) q = true →
    rdSlot q (x.fetch % x.span) bu.repoll (b.setQ q x) = (r, .ok d) →
    let l := plain d
    let len := byteAt l 6
    let k := min len (x.span - x.fetch % x.span)
    let again (c : Blk) : Blk := c.modQ q (fun y => { y with burst := none, poll := some (y.poll.getD { t0 := c.clk.half, k := 0 }) })
    (anyPoison d = true → judgeSlots q (fuel + 1) b = again (raise
      { cause := 0x12, ctx := some x.ctx, queue := some q, unit := 0, detail2 := x.ringBase.toNat + 64 * (x.fetch % x.span) } r)) ∧
    (anyPoison d = false → (byteAt l 1).testBit 0 ≠ x.phase → judgeSlots q (fuel + 1) b = again r) ∧
    (anyPoison d = false → (byteAt l 1).testBit 0 = x.phase → len = 0 ∨ 4 < len →
      judgeSlots q (fuel + 1) b = again (bump Ctr.slotCheckFailed q 1 r)) ∧
    (anyPoison d = false → (byteAt l 1).testBit 0 = x.phase → 1 ≤ len → len ≤ 4 →
      (x.tailSlots < x.fetch + k →
        judgeSlots q (fuel + 1) b = r.modQ q (fun y => { y with burst := none, poll := none, short := true })) ∧
      (x.fetch + k ≤ x.tailSlots → bu.first + bu.n < x.fetch + k → judgeSlots q (fuel + 1) b = r.modQ q (fun y => { y with burst := none })) ∧
      (x.fetch + k ≤ x.tailSlots → x.fetch + k ≤ bu.first + bu.n → ∀ b2 rest,
        rdSlots q bu.repoll (k - 1) (x.fetch % x.span + 1) r = (b2, .ok rest) → anyPoison rest = false →
        let all := plain (d ++ rest)
        (crc8 (all.take 7 ++ all.drop 8) ≠ byteAt all 7 → judgeSlots q (fuel + 1) b = again (bump Ctr.slotCheckFailed q 1 b2)) ∧
        (crc8 (all.take 7 ++ all.drop 8) = byteAt all 7 → judgeSlots q (fuel + 1) b =
          judgeSlots q fuel (dropRingLines q x.fetch k (takeDesc q x.fetch k (decide (len ≤ x.span - x.fetch % x.span)) all b2))))) := by
  intro x hc hb h1 h2 h3 hr l len k again
  have hRead := judgeSlots_of_read (fuel := fuel) hc hb h1 h2 h3 hr
  have hAgain (c : Blk) : slotInvalid q c = again c := slotInvalid_eq q c
  refine ⟨fun hp => ?_, fun hp hph => ?_, fun hp hph hl => ?_, fun hp hph hl1 hl4 => ⟨fun ht => ?_, fun ht hbu => ?_, fun ht hbu b2 rest hr2 hp2 =>
    ⟨fun hcrc => ?_, fun hcrc => ?_⟩⟩⟩
  · rw [hRead, if_pos hp, hAgain]
  · rw [hRead, if_neg (by simp [hp]), if_pos hph, hAgain]
  · rw [hRead, if_neg (by simp [hp]), if_neg (not_not.mpr hph), if_pos hl, hAgain]
  all_goals have hLen : ¬(len = 0 ∨ 4 < len) := by omega
  · rw [hRead, if_neg (by simp [hp]), if_neg (not_not.mpr hph), if_neg hLen, if_pos ht]
  · rw [hRead, if_neg (by simp [hp]), if_neg (not_not.mpr hph), if_neg hLen, if_neg (Nat.not_lt.mpr ht), if_pos hbu]
  · rw [hRead, if_neg (by simp [hp]), if_neg (not_not.mpr hph), if_neg hLen, if_neg (Nat.not_lt.mpr ht), if_neg (Nat.not_lt.mpr hbu), hr2]
    dsimp only
    rw [if_neg (by simp [hp2]), if_pos hcrc, hAgain]
  · rw [hRead, if_neg (by simp [hp]), if_neg (not_not.mpr hph), if_neg hLen, if_neg (Nat.not_lt.mpr ht), if_neg (Nat.not_lt.mpr hbu), hr2]
    dsimp only
    rw [if_neg (by simp [hp2]), if_neg (not_not.mpr hcrc)]

/-- Reading a slot shows its address to the queue's detector, and changes nothing else that no access touches. -/
theorem rdSlot_rest (n slot : Nat) (bypass : Bool) (b : Blk) : (rdSlot n slot bypass b).1.rest =
    (b.setQ n { b.q n with det := (b.q n).det.feed (((b.q n).ringBase.toNat + 64 * slot) / 128) }).rest := by
  simp only [rdSlot]
  split
  · exact rd_rest ..
  · split
    · next h =>
      have k := rest_of_eq h (translate_rest ..)
      split
      · rw [← k]
        exact cacheCheck_rest ..
      · split
        · next h2 => exact (takeInject_rest ..).trans ((rest_of_eq h2 (readPhys_rest ..)).trans ((cacheCheck_rest ..).trans k))
        · next h2 => exact (rest_of_eq h2 (readPhys_rest ..)).trans ((cacheCheck_rest ..).trans k)
        · next h2 => exact (rest_of_eq h2 (readPhys_rest ..)).trans ((cacheCheck_rest ..).trans k)
    · next h =>
      have k := rest_of_eq h (translate_rest ..)
      simp [← k]
    · next h => exact rest_of_eq h (translate_rest ..)
    · next h => exact rest_of_eq h (translate_rest ..)
    · next h => exact rest_of_eq h (translate_rest ..)

theorem span_pos (x : Queue) : 0 < x.span := by
  simp only [Queue.span, Queue.ringSize]
  split
  · omega
  · positivity

/-- A setting does not show where its key is left out. -/
theorem filter_set_of_ne {α : Type} (n : Nat) (x : α) (p : Nat × α → Bool) : ∀ t : Tbl α,
    (Tbl.set t n x).filter (fun e => e.1 ≠ n && p e) = t.filter (fun e => e.1 ≠ n && p e)
  | [] => by simp [Tbl.set]
  | (k, v) :: t => by
    have hRest := filter_set_of_ne n x p t
    simp only [Tbl.set]
    split
    · simp
    · split
      · next h => simp [h]
      · simp only [List.filter_cons, hRest]

theorem fetchRoom_setQ_self (b : Blk) (q : Nat) : fetchRoom (b.setQ q (b.q q)) q = fetchRoom b q := by
  have hOthers := filter_set_of_ne q (b.q q) (fun e => e.2.st == .running) b.front.queues
  simp only [fetchRoom, Blk.setQ, hOthers]
  rfl

/-- A part of the block that dropping lines of the descriptor cache leaves. -/
theorem dropRingLines_keeps {β : Type} (p : Blk → β) (hp : ∀ (b : Blk) (x : Xlat), p { b with xlat := x } = p b) (n pos k : Nat) (b : Blk) :
    p (dropRingLines n pos k b) = p b := by
  simp only [dropRingLines]
  split
  · rfl
  · refine foldl_keeps p _ (fun c i => ?_) _ _
    split
    · split
      · exact hp _ _
      · rfl
    · rfl

theorem judgeSlots_of_spent {q fuel : Nat} {b : Blk} {bu : Burst} (hc : (b.q q).cancels = []) (hb : (b.q q).burst = some bu)
    (h : bu.first + bu.n ≤ (b.q q).fetch) : judgeSlots q (fuel + 1) b = b.setQ q { b.q q with burst := none } := by
  simp only [judgeSlots, skipCancelled_of_nil hc, hb, if_pos (Or.inl h : _ ∨ _ ∨ _), setQ_setQ]

/-! ### A burst of one slot -/

section
variable {s : State} {q : Nat} {bu : Burst} {d : List PByte} (hl : Live s) (hq : q < 256) (hf : fetching s.b q = true)
  (hc : (s.b.q q).cancels = []) (hr : (s.b.q q).rearmFail = none) (hp : (s.b.q q).patches = []) (hb : (s.b.q q).burst = some bu)
  (hFirst : bu.first = (s.b.q q).fetch) (hn : bu.n = 1) (ht : (s.b.q q).fetch < (s.b.q q).tailSlots) (hRoom : fetchRoom s.b q = true)

include hl hq hf hb in
theorem exec_slotCheck : exec (.slotCheck q) s = .next (s.after (judgeSlots q 16 s.b)) := by
  refine (fireReady_queue hl hq _).trans ?_
  simp only [effSlotCheck, hf, hb, Option.isSome_some, Bool.and_self, if_true]

/-- The queue once the read of the slot at its fetch has shown the detector its address. -/
def fedQueue (x : Queue) : Queue := { x with det := x.det.feed ((x.ringBase.toNat + 64 * (x.fetch % x.span)) / 128) }

/-- The read of the slot at a queue's fetch. -/
def readSlot (s : State) (q : Nat) (bu : Burst) : Blk × Rd := rdSlot q ((s.b.q q).fetch % (s.b.q q).span) bu.repoll (s.b.setQ q (s.b.q q))

theorem readSlot_rest (s : State) (q : Nat) (bu : Burst) : (readSlot s q bu).1.rest = (s.b.setQ q (fedQueue (s.b.q q))).rest := by
  rw [readSlot, rdSlot_rest, q_setQ, if_pos rfl, setQ_setQ]
  rfl

theorem readSlot_q (s : State) (q : Nat) (bu : Burst) : (readSlot s q bu).1.q q = fedQueue (s.b.q q) := by
  rw [Blk.q, front_of_rest (readSlot_rest s q bu)]
  exact (q_setQ ..).trans (if_pos rfl)

theorem readSlot_clk (s : State) (q : Nat) (bu : Burst) : (readSlot s q bu).1.clk = s.b.clk := by
  have h := readSlot_rest s q bu
  simp only [Blk.rest, Prod.mk.injEq] at h
  obtain ⟨-, -, -, -, -, -, hClk, -⟩ := h
  exact hClk

include hc hb hFirst hn ht hRoom in
/-- The slot that was read, of a burst of one. -/
theorem judgeSlots_of_one (hd : (readSlot s q bu).2 = .ok d) :
    let l := plain d
    let again (c : Blk) : Blk := c.modQ q (fun y => { y with burst := none, poll := some (y.poll.getD { t0 := c.clk.half, k := 0 }) })
    let r := (readSlot s q bu).1
    anyPoison d = false →
    ((byteAt l 1).testBit 0 ≠ (s.b.q q).phase → judgeSlots q 16 s.b = again r) ∧
    ((byteAt l 1).testBit 0 = (s.b.q q).phase →
      byteAt l 6 = 0 ∨ 4 < byteAt l 6 ∨ (byteAt l 6 = 1 ∧ crc8 (l.take 7 ++ l.drop 8) ≠ byteAt l 7) →
        judgeSlots q 16 s.b = again (bump Ctr.slotCheckFailed q 1 r)) ∧
    ((byteAt l 1).testBit 0 = (s.b.q q).phase → byteAt l 6 = 1 → crc8 (l.take 7 ++ l.drop 8) = byteAt l 7 →
      judgeSlots q 16 s.b = judgeSlots q 15 (dropRingLines q (s.b.q q).fetch 1 (takeDesc q (s.b.q q).fetch 1 true l r))) := by
  intro l again r hPlain
  have hRead : rdSlot q ((s.b.q q).fetch % (s.b.q q).span) bu.repoll (s.b.setQ q (s.b.q q)) = (r, .ok d) := Prod.ext rfl hd
  obtain ⟨-, hPhase, hLen, hWhole⟩ := judgeSlots_outcomes q 15 s.b bu d r hc hb (by omega) ht (by rw [fetchRoom_setQ_self, hRoom]) hRead
  have hSlot := Nat.mod_lt (s.b.q q).fetch (span_pos (s.b.q q))
  have hOne (h1 : byteAt l 6 = 1) : min (byteAt l 6) ((s.b.q q).span - (s.b.q q).fetch % (s.b.q q).span) = 1 := by omega
  have hAll : plain (d ++ []) = l := by rw [List.append_nil]
  have hChecked (h1 : byteAt l 6 = 1) (hph : (byteAt l 1).testBit 0 = (s.b.q q).phase) :
      (crc8 (l.take 7 ++ l.drop 8) ≠ byteAt l 7 → judgeSlots q 16 s.b = again (bump Ctr.slotCheckFailed q 1 r)) ∧
      (crc8 (l.take 7 ++ l.drop 8) = byteAt l 7 →
        judgeSlots q 16 s.b = judgeSlots q 15 (dropRingLines q (s.b.q q).fetch 1 (takeDesc q (s.b.q q).fetch 1 true l r))) := by
    have hWide : decide (byteAt l 6 ≤ (s.b.q q).span - (s.b.q q).fetch % (s.b.q q).span) = true := decide_eq_true (by omega)
    obtain ⟨-, -, hJudge⟩ := hWhole hPlain hph h1.ge (h1.le.trans (by decide))
    rw [hOne h1, hWide] at hJudge
    simpa only [hAll] using hJudge ht (by omega) r [] rfl rfl
  refine ⟨hPhase hPlain, fun hph h => ?_, fun hph h1 hcrc => (hChecked h1 hph).2 hcrc⟩
  obtain h | h | ⟨h1, hcrc⟩ := h
  · exact hLen hPlain hph (.inl h)
  · exact hLen hPlain hph (.inr h)
  · exact (hChecked h1 hph).1 hcrc

/-- Re-polling begins, or goes on, in a queue whose slot has been read. -/
theorem again_of_read {c : Blk} (hQueue : c.q q = fedQueue (s.b.q q)) (hClk : c.clk = s.b.clk) :
    c.modQ q (fun y => { y with burst := none, poll := some (y.poll.getD { t0 := c.clk.half, k := 0 }) }) =
      c.setQ q { fedQueue (s.b.q q) with burst := none, poll := some ((s.b.q q).poll.getD { t0 := s.b.clk.half, k := 0 }) } := by
  rw [Blk.modQ, hQueue, hClk]
  rfl

include hc hr hp in
/-- An untagged descriptor that passes its check is taken in as it is. -/
theorem takeDesc_of_read {l : List Byte} (hOk : slotOk l (s.b.q q) true = true) (hTag : (byteAt l 1).testBit 2 = false)
    (hIds : ∀ e ∈ s.b.front.descs, e.id < s.b.front.nextId) :
    takeDesc q (s.b.q q).fetch 1 true l (readSlot s q bu).1 = enterDesc q (s.b.q q).fetch 1 true l (readSlot s q bu).1 := by
  have hQueue := readSlot_q s q bu
  have hFront := front_of_rest (readSlot_rest s q bu)
  have hIds' : ∀ e ∈ (readSlot s q bu).1.front.descs, e.id < (readSlot s q bu).1.front.nextId := by
    rw [hFront]
    exact hIds
  rw [takeDesc_eq (by rw [hQueue]; exact hc) (by rw [hQueue]; exact hr) (by rw [hQueue]; exact hp), hQueue,
    if_pos (show slotOk l (fedQueue (s.b.q q)) true = true from hOk), tagDesc_enterDesc hIds']
  exact if_pos hTag

include hf in
theorem settleQueue_of_fetching (descs : List Desc) {x : Queue} (hs : x.st = (s.b.q q).st) (hStop : x.stopping = (s.b.q q).stopping) :
    settleQueue descs q x = x := by
  simp only [fetching, Bool.and_eq_true, beq_iff_eq, Bool.not_eq_true'] at hf
  obtain ⟨⟨hRun, hNot⟩, -⟩ := hf
  simp [settleQueue, hs, hRun, hStop, hNot]

include hf hc hr hp hb hFirst hn in
/-- The block once the descriptor of a burst of one slot is held. -/
theorem judgeSlots_of_taken {l : List Byte} (hOk : slotOk l (s.b.q q) true = true) (hTag : (byteAt l 1).testBit 2 = false)
    (hIds : ∀ e ∈ s.b.front.descs, e.id < s.b.front.nextId) :
    let new : Desc := { id := s.b.front.nextId, q := q, slot := (s.b.q q).fetch % (s.b.q q).span, pos := (s.b.q q).fetch, slots := 1,
                        replay := (s.b.q q).fetch / (s.b.q q).span, bytes := l, stage := .held, bad := !(slotOk l (s.b.q q) true),
                        checkedAt := s.b.clk.half }
    let t := judgeSlots q 15 (dropRingLines q (s.b.q q).fetch 1 (takeDesc q (s.b.q q).fetch 1 true l (readSlot s q bu).1))
    t.front.descs = s.b.front.descs ++ [new] ∧ t.front.nextId = s.b.front.nextId + 1 ∧
      t.settle.q q = { fedQueue (s.b.q q) with fetch := (s.b.q q).fetch + 1, poll := none, burst := none } ∧ t.mem = (readSlot s q bu).1.mem := by
  intro new t
  have hQueue := readSlot_q s q bu
  have hFront := front_of_rest (readSlot_rest s q bu)
  have hDescs : (readSlot s q bu).1.front.descs = s.b.front.descs := congrArg (fun f => f.descs) hFront
  have hNew : newDesc q (s.b.q q).fetch 1 true l (readSlot s q bu).1 = new := by
    simp only [newDesc, hQueue, hFront, readSlot_clk]
    rfl
  let entered := enterDesc q (s.b.q q).fetch 1 true l (readSlot s q bu).1
  let dropped := dropRingLines q (s.b.q q).fetch 1 entered
  have hLines : dropped.front = entered.front := dropRingLines_keeps Blk.front (fun _ _ => rfl) _ _ _ _
  have hLinesMem : dropped.mem = (readSlot s q bu).1.mem := dropRingLines_keeps Blk.mem (fun _ _ => rfl) _ _ _ _
  have hHeld : dropped.q q = { fedQueue (s.b.q q) with fetch := (s.b.q q).fetch + 1, poll := none } := by
    rw [Blk.q, hLines, ← Blk.q, q_enterDesc, hQueue]
  have hDone : t = dropped.setQ q { dropped.q q with burst := none } := by
    refine (congrArg (fun c => judgeSlots q 15 (dropRingLines q (s.b.q q).fetch 1 c)) (takeDesc_of_read hc hr hp hOk hTag hIds)).trans ?_
    refine judgeSlots_of_spent (bu := bu) ?_ ?_ ?_
    · rw [hHeld]
      exact hc
    · rw [hHeld]
      exact hb
    · rw [hHeld]
      show bu.first + bu.n ≤ (s.b.q q).fetch + 1
      omega
  rw [hDone, hHeld, setQ_front, hLines]
  refine ⟨?_, ?_, ?_, hLinesMem⟩
  · exact congrArg₂ (fun l e => l ++ [e]) hDescs hNew
  · exact congrArg (fun f => f.nextId + 1) hFront
  · rw [q_settle, q_setQ, if_pos rfl]
    exact settleQueue_of_fetching hf _ rfl rfl

include hl hq hf hc hr hp hb hFirst hn ht hRoom in
theorem exec_slotCheck_of_taken (hd : (readSlot s q bu).2 = .ok d) (hPlain : anyPoison d = false)
    (hph : (byteAt (plain d) 1).testBit 0 = (s.b.q q).phase) (h1 : byteAt (plain d) 6 = 1)
    (hcrc : crc8 ((plain d).take 7 ++ (plain d).drop 8) = byteAt (plain d) 7)
    (hOk : slotOk (plain d) (s.b.q q) true = true) (hTag : (byteAt (plain d) 1).testBit 2 = false)
    (hIds : ∀ e ∈ s.b.front.descs, e.id < s.b.front.nextId) :
    let new : Desc := { id := s.b.front.nextId, q := q, slot := (s.b.q q).fetch % (s.b.q q).span, pos := (s.b.q q).fetch, slots := 1,
                        replay := (s.b.q q).fetch / (s.b.q q).span, bytes := plain d, stage := .held, bad := !(slotOk (plain d) (s.b.q q) true),
                        checkedAt := s.b.clk.half }
    ∃ t, exec (.slotCheck q) s = .next t ∧ t.b.front.descs = s.b.front.descs ++ [new] ∧ t.b.front.nextId = s.b.front.nextId + 1 ∧
      t.b.q q = { fedQueue (s.b.q q) with fetch := (s.b.q q).fetch + 1, poll := none, burst := none } ∧
      t.b.mem = (readSlot s q bu).1.mem.norm := by
  intro new
  obtain ⟨-, -, hTaken⟩ := judgeSlots_of_one hc hb hFirst hn ht hRoom hd hPlain
  obtain ⟨hDescs, hId, hQueue, hMem⟩ := judgeSlots_of_taken hf hc hr hp hb hFirst hn hOk hTag hIds
  rw [← hTaken hph h1 hcrc] at hDescs hId hQueue hMem
  exact ⟨_, exec_slotCheck hl hq hf hb, hDescs, hId, hQueue, congrArg Mem.norm hMem⟩

end

/-- Settles O21: a slot's judgement by the conditions on it in turn, and the descriptor that it becomes. -/
theorem checkedSlotIsHeldOrMalformed : Obligations.CheckedSlotIsHeldOrMalformed := by
  refine ⟨fun s q hl hq hf hb => ?_, judgeSlots_outcomes, fun q pos k whole l b hc hr hp hIds => ?_, fun s q bu d hl hq => ?_⟩
  · obtain ⟨bu, hb⟩ := Option.ne_none_iff_exists'.mp hb
    exact exec_slotCheck hl hq hf hb
  · obtain ⟨⟨hId, hOthers, hFetch, hPoll⟩, hRest⟩ := takenDescriptor q pos k whole l b hc hr hp hIds
    exact ⟨hId, hOthers, hFetch, hPoll, hRest⟩
  · intro x r l y hf hc hr hp hb hFirst hn ht hRoom hd hPlain begun
    obtain ⟨hPhase, hLen, -⟩ := judgeSlots_of_one hc hb hFirst hn ht hRoom hd hPlain
    have hExec := exec_slotCheck hl hq hf hb
    refine ⟨fun hph => ?_, fun hph h => ?_, fun hph h1 hcrc => ?_⟩
    · rw [hExec, hPhase hph]
      exact congrArg (fun c => Host.Outcome.next (s.after c)) (again_of_read (readSlot_q s q bu) (readSlot_clk s q bu))
    · rw [hExec, hLen hph h]
      exact congrArg (fun c => Host.Outcome.next (s.after c))
        (again_of_read (c := bump Ctr.slotCheckFailed q 1 (readSlot s q bu).1) (readSlot_q s q bu) (readSlot_clk s q bu))
    · exact exec_slotCheck_of_taken hl hq hf hc hr hp hb hFirst hn ht hRoom hd hPlain hph h1 hcrc

end Sys2Proof.Machine
end

section
/-! SUPPORT. DISPATCH (R36 to R38). -/
namespace Sys2Proof.Machine

theorem applyPatches_of_nil {x : Queue} (d : Desc) (h : x.patches = []) : applyPatches x d = d := by simp [applyPatches, h]

theorem mem_of_nextDispatch {b : Blk} {q : Nat} {d : Desc} (h : nextDispatch b q = some d) : d ∈ b.front.descs := by
  simp only [nextDispatch] at h
  split at h
  · exact absurd h (by simp)
  · split at h
    · exact absurd h (by simp)
    · next e he =>
      split at h
      · exact absurd h (by simp)
      · obtain rfl := Option.some.inj h
        exact (List.mem_filter.mp (List.mem_of_find?_eq_some he)).1

theorem desc?_spendCredit (q : Nat) (b : Blk) (i : Nat) : (spendCredit q b).desc? i = b.desc? i := by
  simp only [spendCredit]
  split
  · rfl
  · split <;> rfl

/-- The descriptor itself, in the place of the one of its number. -/
theorem desc?_putSelf {b : Blk} {d : Desc} (h : d ∈ b.front.descs) : (b.modDesc d.id (fun _ => d)).desc? d.id = some d := by
  obtain ⟨e, he⟩ : ∃ e, b.desc? d.id = some e := by
    cases hf : b.desc? d.id with
    | none => exact absurd (List.find?_eq_none.mp hf d h) (by simp)
    | some e => exact ⟨e, rfl⟩
  exact desc?_modDesc_same (fun _ _ => rfl) he

/-- A descriptor that names nothing to read is ready. -/
theorem runPre_of_none {b : Blk} {d : Desc} {id : Nat} (hd : b.desc? id = some d) (h : nextPre d = none) (f : Nat) :
    runPre id (f + 1) b = (b, .ready) := by simp only [runPre, hd, h]

section
variable {b : Blk} {q : Nat} {d : Desc} (hn : nextDispatch b q = some d) (hm : mayDispatch b q = true) (hp : d.patched = false)
  (hq : (b.q q).patches = [])
include hn hm hp hq

theorem effDispatch_of_bad (hb : d.bad = true) : effDispatch q b =
    if d.opcode = 0x22 then hand d.id (addStatus d.id .malformed ((spendCredit q (b.modDesc d.id (fun _ => d))).modDesc d.id
      (fun d => { d with bad := true })))
    else completeWith d.id .malformed 0 0 (spendCredit q (b.modDesc d.id (fun _ => d))) := by
  by_cases hs : d.opcode = 0x22 <;> simp [effDispatch, hn, hm, hp, applyPatches_of_nil d hq, hb, hs]

theorem effDispatch_of_later (hb : d.bad = false) {b1 : Blk} (hr : runPre d.id 4200 (b.modDesc d.id (fun _ => d)) = (b1, .later)) :
    effDispatch q b = b1 := by
  simp [effDispatch, hn, hm, hp, applyPatches_of_nil d hq, hb, hr]

theorem effDispatch_of_status (hb : d.bad = false) {b1 : Blk} {st : Status}
    (hr : runPre d.id 4200 (b.modDesc d.id (fun _ => d)) = (b1, .status st)) : effDispatch q b =
    if d.opcode = 0x22 then hand d.id (addStatus d.id st (spendCredit q b1)) else completeWith d.id st 0 0 (spendCredit q b1) := by
  by_cases hs : d.opcode = 0x22 <;> simp [effDispatch, hn, hm, hp, applyPatches_of_nil d hq, hb, hr, hs]

theorem effDispatch_of_ready (hb : d.bad = false) {b1 : Blk} {d1 : Desc}
    (hr : runPre d.id 4200 (b.modDesc d.id (fun _ => d)) = (b1, .ready)) (hd : b1.desc? d.id = some d1) : effDispatch q b =
    let ss := judge (spendCredit q b1) d1
    if ss = [] then hand d.id (spendCredit q b1)
    else
      let c := ss.foldl (fun b st => addStatus d.id st b) (spendCredit q b1)
      if d.opcode = 0x22 then hand d.id c else complete d.id c := by
  have hFound : (spendCredit q b1).desc? d.id = some d1 := (desc?_spendCredit q b1 d.id).trans hd
  by_cases hs : d.opcode = 0x22 <;>
    simp [effDispatch, hn, hm, hp, applyPatches_of_nil d hq, hb, hr, hs, hFound, List.isEmpty_iff]

end

/-- Settles O22: DISPATCH by the outcome of the check and of the reads before it. -/
theorem dispatchHandsOrCompletes : Obligations.DispatchHandsOrCompletes := by
  refine ⟨fun s q d hl hq hn hm hp hps => ?_, fun s q hl hq h => ?_⟩
  · have hExec : exec (.dispatch q) s = .next (s.after (effDispatch q s.b)) := fireReady_queue hl hq _
    rw [hExec]
    refine ⟨fun hb ho => ?_, fun hb ho => ?_, fun hb hPre hj => ?_, fun hb b1 d1 hr hd => ⟨fun hj => ?_, fun ss hj hne => ?_⟩,
      fun hb b1 st hr => ?_, fun hb b1 hr => ?_⟩
    · rw [effDispatch_of_bad hn hm hp hps hb, if_neg ho]
    · rw [effDispatch_of_bad hn hm hp hps hb, if_pos ho]
    · have hSelf := desc?_putSelf (mem_of_nextDispatch hn)
      rw [effDispatch_of_ready hn hm hp hps hb (runPre_of_none hSelf hPre 4199) hSelf]
      exact congrArg (fun c => Host.Outcome.next (s.after c)) (if_pos hj)
    · rw [effDispatch_of_ready hn hm hp hps hb hr hd]
      exact congrArg (fun c => Host.Outcome.next (s.after c)) (if_pos hj)
    · subst hj
      rw [effDispatch_of_ready hn hm hp hps hb hr hd]
      exact congrArg (fun c => Host.Outcome.next (s.after c)) (if_neg hne)
    · rw [effDispatch_of_status hn hm hp hps hb hr]
    · rw [effDispatch_of_later hn hm hp hps hb hr]
  · refine (fireReady_queue hl hq _).trans ?_
    obtain h | h := h
    · simp only [effDispatch, h]
    · simp only [effDispatch, h]
      split <;> rfl

end Sys2Proof.Machine
end

section
/-! SUPPORT. COMPLETION_WRITE, the tail word and the peg counters (R39, R41, R42, R49). -/
namespace Sys2Proof.Machine

/-! ### The peg counters -/

/-- One peg counter raised, where its bit is set. -/
def pegStep (d : Desc) (ctx : Nat) (t : Tbl W64) (i : Nat) : Tbl W64 :=
  if d.pegMask.testBit i then Tbl.set t (64 * ctx + 4 * d.pegGroup + i) (Tbl.get 0 t (64 * ctx + 4 * d.pegGroup + i) + 1) else t

theorem get_pegStep (d : Desc) (ctx i k : Nat) (t : Tbl W64) : Tbl.get 0 (pegStep d ctx t i) k =
    Tbl.get 0 t k + (if k = 64 * ctx + 4 * d.pegGroup + i ∧ d.pegMask.testBit i = true then 1 else 0) := by
  by_cases hb : d.pegMask.testBit i = true
  · by_cases hk : k = 64 * ctx + 4 * d.pegGroup + i <;> simp [pegStep, hb, hk]
  · simp [pegStep, hb]

theorem pegIncrements_pegs {d : Desc} (h : d.pegInc = true) (b : Blk) :
    (pegIncrements d b).front.pegs = [0, 1, 2, 3].foldl (pegStep d (b.q d.q).ctx) b.front.pegs := by
  simp only [pegIncrements, if_pos h]
  rfl

/-- The counters that a descriptor names rise by one (R49). -/
theorem peg_pegIncrements {d : Desc} (h : d.pegInc = true) (b : Blk) {c n : Nat} (hn : n < 64) :
    (pegIncrements d b).peg c n = b.peg c n + (if c = (b.q d.q).ctx ∧ n / 4 = d.pegGroup ∧ d.pegMask.testBit (n % 4) = true then 1 else 0) := by
  have hGroup : d.pegGroup < 16 := Nat.mod_lt _ (by decide)
  simp only [Blk.peg, pegKey, pegIncrements_pegs h, List.foldl_cons, List.foldl_nil, get_pegStep]
  by_cases hHit : c = (b.q d.q).ctx ∧ n / 4 = d.pegGroup
  · obtain ⟨rfl, hg⟩ := hHit
    have hKey (i : Nat) (hi : i < 4) : 64 * (b.q d.q).ctx + n = 64 * (b.q d.q).ctx + 4 * d.pegGroup + i ↔ n % 4 = i := by omega
    obtain hm | hm | hm | hm : n % 4 = 0 ∨ n % 4 = 1 ∨ n % 4 = 2 ∨ n % 4 = 3 := by omega
    all_goals
      simp only [hKey 0 (by decide), hKey 1 (by decide), hKey 2 (by decide), hKey 3 (by decide), hm, hg]
      simp
  · have hKey (i : Nat) (hi : i < 4) : ¬64 * c + n = 64 * (b.q d.q).ctx + 4 * d.pegGroup + i := by omega
    simp only [hKey 0 (by decide), hKey 1 (by decide), hKey 2 (by decide), hKey 3 (by decide), ← and_assoc, hHit]
    simp

theorem q_pegIncrements (d : Desc) (b : Blk) (n : Nat) : (pegIncrements d b).q n = b.q n := by
  simp only [pegIncrements]
  split <;> rfl

theorem clk_pegIncrements (d : Desc) (b : Blk) : (pegIncrements d b).clk = b.clk := by
  simp only [pegIncrements]
  split <;> rfl

/-! ### A record -/

/-- A record has been written, or is over: the count rises and the trace takes it. -/
def recordPut (q : Nat) (l : List Byte) (r : Blk) : Blk :=
  traceRecord q l (r.modQ q (fun y => { y with
    written := y.written + 1, tailSince := if y.reported = y.written then r.clk.half else y.tailSince }))

theorem writeRecord_of_written {q : Nat} {l : List Byte} {b r : Blk}
    (h : ringWrite q ((b.q q).cqBase.toNat + 16 * ((b.q q).written % (b.q q).cqSize)) l b = (r, true)) :
    writeRecord q l b = (recordPut q l r, true) := by
  simp only [writeRecord, h, recordPut]

theorem recordsBlocked_of_room {b : Blk} {q : Nat} (hp : b.isParked (.compl q) = false) (hr : (b.q q).written - (b.q q).cqHead.toNat < (b.q q).cqSize) :
    recordsBlocked b q = false := by
  simp only [recordsBlocked, ringFull, hp, Bool.or_false, decide_eq_false_iff_not]
  omega

theorem recordsBlocked_of_full {b : Blk} {q : Nat} (hr : ¬(b.q q).written - (b.q q).cqHead.toNat < (b.q q).cqSize) :
    recordsBlocked b q = true := by
  simp only [recordsBlocked, ringFull, Bool.or_eq_true, decide_eq_true_eq]
  exact .inl (by omega)

section
variable {b : Blk} {q : Nat} (hb : recordsBlocked b q = false)
include hb

/-- A descriptor's record waits for its writes. -/
theorem effCompletionWrite_of_writing {id : Nat} {rest : List RecItem} {d : Desc} (hq : (b.q q).recq = .desc id :: rest)
    (hd : b.desc? id = some d) (hw : b.writesDone (.desc id) = false) : effCompletionWrite q b = b := by
  simp [effCompletionWrite, hb, hq, hd, hw]

theorem effCompletionWrite_of_stats {id va : Nat} {rest : List RecItem} {d : Desc} {st : List Byte} {b1 : Blk}
    (hq : (b.q q).recq = .desc id :: rest) (hd : b.desc? id = some d) (hs : d.stats = some (va, st)) (hw : b.writesDone (.desc id) = true)
    (hWr : wr (.slice 0) (.desc id) (clsOf b d.q) va (st.map (·, false)) b = (b1, .ok))
    (hw2 : (b1.modDesc id (fun d => { d with stats := none })).writesDone (.desc id) = false) :
    effCompletionWrite q b = b1.modDesc id (fun d => { d with stats := none }) := by
  obtain rfl := desc?_id hd
  simp [effCompletionWrite, hb, hq, hd, hw, writeStats, hs, hWr, hw2]

theorem effCompletionWrite_of_desc {id : Nat} {rest : List RecItem} {d : Desc} {r : Blk} (hq : (b.q q).recq = .desc id :: rest)
    (hd : b.desc? id = some d) (hs : d.stats = none) (hp : d.pegged = false) (hw : b.writesDone (.desc id) = true)
    (hr : ringWrite q ((b.q q).cqBase.toNat + 16 * ((b.q q).written % (b.q q).cqSize))
      (recordBytes d.seq (recordStatus d.applying) q d.dropped d.aux (b.clk.half - d.checkedAt))
      (pegIncrements d (b.modDesc id (fun d => { d with pegged := true }))) = (r, true)) :
    effCompletionWrite q b =
      let l := recordBytes d.seq (recordStatus d.applying) q d.dropped d.aux (b.clk.half - d.checkedAt)
      let c := retire id (countStatuses q d.applying ((recordPut q l r).modQ q (fun x => { x with recq := rest })))
      if tailDue c q then writeTail q c else c := by
  have hRecord := writeRecord_of_written (b := pegIncrements d (b.modDesc id (fun d => { d with pegged := true }))) (q := q) (r := r)
    (l := recordBytes d.seq (recordStatus d.applying) q d.dropped d.aux (b.clk.half - d.checkedAt))
    (by rw [q_pegIncrements]; exact hr)
  simp [effCompletionWrite, hb, hq, hd, hw, writeStats, hs, hp, clk_pegIncrements, hRecord]

theorem effCompletionWrite_of_event {st : Status} {dropped aux since : Nat} {by_ : Option Nat} {rest : List RecItem} {r : Blk}
    (hq : (b.q q).recq = .event st dropped aux since by_ :: rest)
    (hr : ringWrite q ((b.q q).cqBase.toNat + 16 * ((b.q q).written % (b.q q).cqSize))
      (recordBytes 0xFFFF st q dropped aux (b.clk.half - since)) b = (r, true)) :
    effCompletionWrite q b =
      let put := (recordPut q (recordBytes 0xFFFF st q dropped aux (b.clk.half - since)) r).modQ q (fun x => { x with recq := rest })
      let c := by_.elim put (fun id => completeWith id .ok dropped 0 put)
      if tailDue c q then writeTail q c else c := by
  cases by_ with
  | none => simp only [effCompletionWrite, hb, hq, writeRecord_of_written hr, Bool.false_eq_true, if_false, Option.elim_none] <;> rfl
  | some id => simp only [effCompletionWrite, hb, hq, writeRecord_of_written hr, Bool.false_eq_true, if_false, Option.elim_some] <;> rfl

end

/-! ### The statement -/

/-- Settles O23: the oldest completion by its kind, the ring's room and the outcome of its writes; then the batch and the tail word. -/
theorem completionWritesRecordThenTail : Obligations.CompletionWritesRecordThenTail := by
  intro s q hl hq hp x room place put tail next
  have hNext {c : Blk} (h : effCompletionWrite q s.b = c) : exec (.completionWrite q) s = next c :=
    (fireReady_queue hl hq _).trans (congrArg (fun c => Host.Outcome.next (s.after (effFaultBatchTimer c))) h)
  refine ⟨fun hr => hNext ?_, fun id rest d hr hx hd hs => ⟨fun hw => hNext ?_, fun hpeg hw => ?_⟩,
    fun id rest d va st b1 hr hx hd hs hw hWr => ?_, fun st dropped aux since by_ rest hr hx => ?_,
    fun d hd c n hn _ => peg_pegIncrements hd s.b hn, fun ht r hrw => ?_, fun ht => ?_⟩
  · simp only [effCompletionWrite, recordsBlocked_of_full hr, if_true]
  · exact effCompletionWrite_of_writing (recordsBlocked_of_room hp hr) hx hd hw
  · intro l b0 r hrw
    exact hNext (effCompletionWrite_of_desc (recordsBlocked_of_room hp hr) hx hd hs hpeg hw hrw)
  · intro b2 hw2
    exact hNext (effCompletionWrite_of_stats (recordsBlocked_of_room hp hr) hx hd hs hw hWr hw2)
  · intro l r hrw
    rw [hNext (effCompletionWrite_of_event (recordsBlocked_of_room hp hr) hx hrw)]
    cases by_ <;> rfl
  · refine (fireReady_queue hl hq _).trans ?_
    simp only [effTailWordTimer, ht, hp, Bool.not_false, Bool.and_self, if_true, writeTail]
    rw [hrw]
    rfl
  · refine (fireReady_queue hl hq _).trans ?_
    simp only [effTailWordTimer, ht, Bool.false_and, Bool.false_eq_true, if_false]

end Sys2Proof.Machine
end

section
/-! SUPPORT. LOOKUP at the requester: parsing an index, a partial that comes, and a bag's output (R87 to R106). -/
namespace Sys2Proof.Machine

/-! ### What an arbiter chooses -/

/-- The choice of an arbiter is one of its candidates. -/
theorem mem_of_bestBy {α : Type} {prio : α → Nat} {l : List α} {x : α} (h : bestBy prio l = some x) : x ∈ l := by
  have hGo : ∀ (l : List α) (acc : Option α), l.foldl (fun acc x => match acc with
      | none => some x
      | some y => if prio x < prio y then some x else some y) acc = some x → x ∈ l ∨ acc = some x := by
    intro l
    induction l with
    | nil => exact fun acc h => .inr h
    | cons a t ih =>
      intro acc h
      obtain hm | hm := ih _ h
      · exact .inl (List.mem_cons_of_mem _ hm)
      · cases acc with
        | none => exact .inl (by simp [Option.some.inj hm])
        | some y =>
          by_cases hp : prio a < prio y
          · exact .inl (by simp [(by simpa [hp] using hm : a = x)])
          · exact .inr (by simpa [hp] using hm)
  obtain hm | hm := hGo l none h
  · exact hm
  · exact absurd hm (by simp)

theorem mem_of_nextUnit {b : Blk} {p arb : Nat} {l : List Machine.Unit} {u : Machine.Unit} (h : nextUnit b p arb l = some u) : u ∈ l := by
  simp only [nextUnit] at h
  split at h
  · exact absurd h (by simp)
  · next v hv =>
    split at h
    · exact Option.some.inj h ▸ mem_of_bestBy hv
    · obtain rfl := Option.some.inj h
      cases hf : l.find? (fun v => shareLeft b p arb (opQueue b v.op)) with
      | none => exact mem_of_bestBy hv
      | some w => exact List.mem_of_find?_eq_some hf

/-- A bag whose next index is taken stands at the pitch that takes it. -/
theorem pitch_of_parseReady {b : Blk} {p : Nat} {u : Machine.Unit} (h : nextUnit b p 0 (b.units.filter (parseReady b p)) = some u) : u.pitch = p := by
  have hReady := (List.mem_filter.mp (mem_of_nextUnit h)).2
  simp only [parseReady] at hReady
  split at hReady
  · exact absurd hReady (by simp)
  · split at hReady
    · simp only [Bool.and_eq_true, beq_iff_eq] at hReady
      obtain ⟨⟨⟨-, hp⟩, -⟩, -⟩ := hReady
      exact hp
    · exact absurd hReady (by simp)

/-! ### Parsing an index -/

/-- The weight of an index, 1.0 where there are none (R87). -/
def weightOf (l : List Byte) (wt : List PByte) : W32 :=
  if field l 56 8 = 0 then 0x3F800000#32 else if wtBytes l = 2 then b16to32 (le (plain wt)) else BitVec.ofNat 32 (le (plain wt))

section
variable {b : Blk} {u : Machine.Unit} {d : Desc} {r : UnitsRun} {ix wt : List PByte}
  (hwt : (if field d.bytes 56 8 = 0 then some [] else
    u.input (field d.bytes 56 8 + wtBytes d.bytes * ((bagSpan d.bytes r u.no).1 + u.next)) (wtBytes d.bytes)) = some wt)
  (hwp : anyPoison wt = false) (ht : (tabOfBag r u.no).bad = false)
  (hix : u.input (field d.bytes 48 8 + ixBytes (tabOfBag r u.no).ixFmt * ((bagSpan d.bytes r u.no).1 + u.next)) (ixBytes (tabOfBag r u.no).ixFmt) =
    some ix) (hip : anyPoison ix = false)
include hwt ht hix hip

theorem parseOne_of_dropped {k : Nat} (hk : (classify (tabOfBag r u.no) (le (plain ix))).counter = some k) :
    parseOne u d r b = sendAll u.pitch (advanceIndex u (bagSpan d.bytes r u.no).2 false
      (dropIndex d.id d.q k (bump Ctr.lkIndices d.q 1 (openBag u d (tabOfBag r u.no).table b)))) := by
  have hWeight := (ite_not (field d.bytes 56 8 = 0) _ _).trans hwt
  cases hc : classify (tabOfBag r u.no) (le (plain ix)) <;> rw [hc] at hk <;> simp only [IxClass.counter, Option.some.injEq, reduceCtorEq] at hk <;>
    subst hk <;> simp [parseOne, ht, hix, hWeight, hip, hc]

include hwp in
/-- A valid index whose row is served on this die, of a table without a sketch. -/
theorem parseOne_of_here {row va : Nat} {b1 : Blk} (hc : classify (tabOfBag r u.no) (le (plain ix)) = .valid row)
    (hs : (tabOfBag r u.no).sketch = false)
    (hServe : serveRow u.pitch u.uid (clsOf (openBag u d (tabOfBag r u.no).table b) d.q) (tabOfBag r u.no) row
      (openBag u d (tabOfBag r u.no).table b) = (b1, .here va .shard)) :
    parseOne u d r b = sendAll u.pitch (advanceIndex u (bagSpan d.bytes r u.no).2 true
      (addRow u.uid b1.ident.chip b1.ident.die { row := row, va := va, src := .shard, w := weightOf d.bytes wt }
        (bump Ctr.lkLocalRows d.q 1 (bump Ctr.lkIndices d.q 1 b1)))) := by
  by_cases hn : field d.bytes 56 8 = 0
  · simp [parseOne, ht, hix, hip, hc, hServe, hs, weightOf, hn, one32]
  · rw [if_neg hn] at hwt
    simp [parseOne, ht, hix, hip, hc, hServe, hwp, hs, weightOf, hn, hwt]

include hwp in
/-- A valid index whose row is served elsewhere. -/
theorem parseOne_of_away {row chip die : Nat} {b1 : Blk} (hc : classify (tabOfBag r u.no) (le (plain ix)) = .valid row)
    (hs : (tabOfBag r u.no).sketch = false)
    (hServe : serveRow u.pitch u.uid (clsOf (openBag u d (tabOfBag r u.no).table b) d.q) (tabOfBag r u.no) row
      (openBag u d (tabOfBag r u.no).table b) = (b1, .away chip die)) :
    parseOne u d r b = sendAll u.pitch (advanceIndex u (bagSpan d.bytes r u.no).2 true
      (addRow u.uid chip die { row := row, va := 0, src := .shard, w := weightOf d.bytes wt } (bump Ctr.lkIndices d.q 1 b1))) := by
  by_cases hn : field d.bytes 56 8 = 0
  · simp [parseOne, ht, hix, hip, hc, hServe, hs, weightOf, hn, one32]
  · rw [if_neg hn] at hwt
    simp [parseOne, ht, hix, hip, hc, hServe, hwp, hs, weightOf, hn, hwt]

end

/-! ### The statement -/

theorem effIndexParse_of_next {b : Blk} {p : Nat} {u : Machine.Unit} {d : Desc} {r : UnitsRun}
    (hn : nextUnit b p 0 (b.units.filter (parseReady b p)) = some u) (hd : b.desc? u.op = some d) (hw : d.work = .units r) :
    effIndexParse p b = parseOne u d r b := by
  simp only [effIndexParse, hn, hd, hw]

theorem effLookup_of_zeroed {b b1 : Blk} {q : Nat} {d : Desc} (h : handedOf b q [0x10] = some d)
    (hz : zeroMask d.id (d.f 72 8) (d.f 12 4) b = (b1, .ok)) :
    let r : UnitsRun := { d.pre with segs := d.segments, total := d.f 12 4 }
    let ixB := ixBytes (((r.tabs.find? (fun t => !t.bad)).map Captured.ixFmt).getD 0)
    effLookup q b = handAll d.id .bag (pieces 64 (bagUnits d.bytes ixB 0 0 (bagLens d.bytes r)))
      (startWork d.id (.units r) (b1.modDesc d.id (fun d => { d with started := true }))) := by
  simp only [effLookup, h, hz]

/-- BAG_COMMIT of a bag whose output is to be written. -/
theorem effBagCommit_of_output {b b1 : Blk} {uid : Nat} {u : Machine.Unit} {d : Desc} {r : UnitsRun} (hu : unitOf b uid = some (u, d))
    (hw : d.work = .units r) (ho : d.opcode = 0x10) (hp : b.isParked (.unit uid) = false) (hs : u.stage ≠ .write) (hr : bagReady b d r u = true)
    (hStore : storeAll u.pitch uid (clsOf b d.q) (bagOutput d u (tabOfBag r u.no).dim
      (((b.bags.find? (fun x => x.tag = uid)).map (·.frags)).getD [])) b = (b1, .ok)) :
    effBagCommit uid b = b1.modUnit uid (fun u => { u with stage := .write }) := by
  simp [effBagCommit, hu, hw, ho, hp, hs, hr, hStore]

/-- BAG_COMMIT of a bag whose output is visible. -/
theorem effBagCommit_of_visible {b b1 : Blk} {uid : Nat} {u : Machine.Unit} {d : Desc} {r : UnitsRun} (hu : unitOf b uid = some (u, d))
    (hw : d.work = .units r) (ho : d.opcode = 0x10) (hp : b.isParked (.unit uid) = false) (hs : u.stage = .write) {u0 : Machine.Unit}
    (h0 : ((flushUnit u b).unit? uid).getD u = u0) (hv : outputVisible (flushUnit u b) u0 = true)
    (hm : setMaskBit u0.pitch u0.op uid (clsOf (flushUnit u b) d.q) (d.f 72 8) u0.no (flushUnit u b) = (b1, .ok)) :
    effBagCommit uid b = commitUnit uid
      (if u0.nValid = 0 then bump Ctr.lkEmpty d.q 1 (bump Ctr.lkBagsValid d.q 1 b1) else bump Ctr.lkBagsValid d.q 1 b1) := by
  simp [effBagCommit, hu, hw, ho, hp, hs, h0, hv, hm]

/-- A message that is a partial. -/
def isPartial (r : Rx) : Bool :=
  match r.msg with
  | .partialV _ => true
  | _ => false

/-- A partial whose fragment still waits for it (R102, R108). -/
theorem effPartialIn_of_found {b : Blk} {i : Nat} {r : Rx} {m : PartialB} {x : Bag} (ho : oldest b isPartial = some (i, r)) (hm : r.msg = .partialV m)
    (hx : (heard r.chip (takeRx i r b)).bags.find? (fun x => x.tag % 2 ^ 32 = m.tag
      && x.frags.any (fun f => f.chip = m.chip && f.die = m.die && f.frag = m.frag && f.vals.isNone)) = some x) :
    effPartialIn b =
      let b0 := heard r.chip (takeRx i r b)
      if m.status = 0 then
        sendAll x.pitch (cellDone x.tag (b0.modBag x.tag (fun x => { x with frags := x.frags.map (fun f =>
          if f.chip = m.chip && f.die = m.die && f.frag = m.frag then { f with vals := some m.vals } else f) })))
      else
        sendAll x.pitch (endUnit x.unit (if m.status = 1 then .tableBusy else .malformed)
          (b0.modBag x.tag (fun x => { x with frags := x.frags.filter (fun f => !(f.chip = m.chip && f.die = m.die && f.frag = m.frag)) }))) := by
  unfold effPartialIn
  split
  · next h => exact absurd (h.symm.trans ho) (by simp)
  · next i' r' h =>
    obtain ⟨rfl, rfl⟩ := Prod.mk.inj (Option.some.inj (h.symm.trans ho))
    simp only [hm]
    rw [hx]

/-- Settles O30: each command of the requester, by what it finds. -/
theorem lookupBagsAreParsedAndCommitted : Obligations.LookupBagsAreParsedAndCommitted := by
  intro s hl
  refine ⟨fun q d b1 hq h hz => ?_, fun p u d r ix wt hp hn hd hw => ?_, fun i r m x ho hm => ?_, fun uid u d r hu hw ho hp =>
    ⟨fun b1 hs hr hStore => ?_, fun hs b1 => ?_⟩⟩
  · refine (fireReady_queue hl hq _).trans ?_
    rw [effLookup_of_zeroed h hz]
  · intro t sp none_ hwt hwp w ht hix hip b0
    obtain rfl := pitch_of_parseReady hn
    have hExec : exec (.indexParse u.pitch) s = .next (s.after (parseOne u d r s.b)) :=
      (fireReady_live hl (decide_eq_true hp)).trans (congrArg (fun c => Host.Outcome.next (s.after c)) (effIndexParse_of_next hn hd hw))
    rw [hExec]
    refine ⟨fun k hk => ?_, fun row b1 hc hs => ⟨fun va hServe => ?_, fun chip die hServe => ?_⟩⟩
    · rw [parseOne_of_dropped hwt ht hix hip hk]
      rfl
    · rw [parseOne_of_here hwt hwp ht hix hip hc hs hServe]
      rfl
    · rw [parseOne_of_away hwt hwp ht hix hip hc hs hServe]
      rfl
  · intro b0 hx mine
    have hExec := (fireReady_live (f := effPartialIn) hl rfl).trans
      (congrArg (fun c => Host.Outcome.next (s.after c)) (effPartialIn_of_found ho hm hx))
    exact ⟨fun hs => hExec.trans (congrArg (fun c => Host.Outcome.next (s.after c)) (if_pos hs)),
      fun hs => hExec.trans (congrArg (fun c => Host.Outcome.next (s.after c)) (if_neg hs))⟩
  · refine (fireReady_live hl rfl).trans ?_
    rw [effBagCommit_of_output hu hw ho hp hs hr hStore]
  · intro b0 u0 hv hm
    refine (fireReady_live hl rfl).trans ?_
    rw [effBagCommit_of_visible hu hw ho hp hs rfl hv hm]

end Sys2Proof.Machine
end

section
/-! SUPPORT. Fragments at their home (R96 to R100). -/
namespace Sys2Proof.Machine

/-- A message that is a fragment's request. -/
def isFragReq (r : Rx) : Bool :=
  match r.msg with
  | .fragReq _ => true
  | _ => false

/-- The request of the port sack goes first where it is of a better class than what waits (R38, R96). -/
theorem effFragReq_of_oldest {b : Blk} {i : Nat} {r : Rx} (ho : oldest b isFragReq = some (i, r))
    (hBest : ∀ g, bestBy Frag.prio (b.frags.filter (fun f => !f.resolved && !(b.isParked (.frag f.fid)))) = some g → r.prio < g.prio) :
    effFragReq b = takeFrag i r b := by
  unfold effFragReq
  dsimp only
  split
  · next hNone => exact absurd (hNone.symm.trans ho) (by simp)
  · next f i' r' hWait hNext =>
    obtain ⟨rfl, rfl⟩ := Prod.mk.inj (Option.some.inj (hNext.symm.trans ho))
    exact if_pos (hBest f hWait)
  · next i' r' hWait hNext =>
    obtain ⟨rfl, rfl⟩ := Prod.mk.inj (Option.some.inj (hNext.symm.trans ho))
    rfl
  · next hNone => exact absurd (hNone.symm.trans ho) (by simp)

/-- A fragment whose home's table descriptor has been read (R96). -/
theorem resolveFrag_of_read {b b1 : Blk} {f : Frag} {m : FragReqB} {part : Nat} {l : List PByte} (hf : f.req = some (m, part))
    (hr : readTable (.pitch f.pitch) (.frag f.fid) f.cls f.table b = (b1, .ok l)) :
    resolveFrag f b =
      let t : Captured := { table := f.table, bytes := plain l, slot := f.slot }
      if t.shapeOk = false then dropFrag f.fid (sendPartial f m part 2 [] b1)
      else if t.rowBase f.slot = 0 then dropFrag f.fid (sendPartial f m part 1 [] b1)
      else
        let rows := (List.range m.rows.length).map (fun i =>
          ({ row := m.rows.getD i 0, va := rowAddr t f.slot (homeOf t (m.rows.getD i 0)).lrow, src := .shard,
             w := if m.weighted then m.weights.getD i 0 else 0x3F800000#32 } : FragRow))
        { b1 with frags := b1.frags.map (fun g => if g.fid = f.fid then
          { g with resolved := true, fmt := t.fmt, dim := t.dim, rows := rows, acc := List.replicate t.dim 0 } else g) } := by
  simp only [resolveFrag, hf, hr, Bool.not_eq_true', one32]

/-- A row that comes back clean is pooled (R98, R100). -/
theorem effSectorReturn_of_clean {b b1 : Blk} {p : Nat} {f : Frag} {r : FragRow} {d : List PByte}
    (hf : bestBy Frag.prio (b.frags.filter (fun f => f.pitch = p && f.resolved && !(b.isParked (.frag f.fid)))) = some f)
    (hr : f.rows[f.next]? = some r) (hRead : readRow f r b = (b1, .ok d)) (hp : anyPoison d = false) :
    effSectorReturn p b = poolInto f r (rowVals f.fmt f.dim d) b1 := by
  simp only [effSectorReturn, hf, hr, hRead, hp, Bool.false_eq_true, if_false]

/-- Settles O31: a request by what its table's descriptor says, a row by whether it is the last. -/
theorem homeServesFragments : Obligations.HomeServesFragments := by
  intro s hl
  refine ⟨fun i r m ho hm hBest => ?_, fun p f r b1 d hp hf hr hRead hPoison => ?_⟩
  · intro f b0 b1 l hRead t
    have hTake : takeFrag i r s.b = resolveFrag f { b0 with frags := b0.frags ++ [f], nextUid := b0.nextUid + 1 } := by
      simp only [takeFrag, hm]
      rfl
    have hEff := (effFragReq_of_oldest ho hBest).trans (hTake.trans (resolveFrag_of_read rfl hRead))
    have hExec := (fireReady_live (f := effFragReq) hl rfl).trans (congrArg (fun c => Host.Outcome.next (s.after c)) hEff)
    refine ⟨fun hs => ?_, fun hs h0 => ?_, fun hs h0 => ?_⟩ <;> refine hExec.trans (congrArg (fun c => Host.Outcome.next (s.after c)) ?_)
    · exact if_pos hs
    · exact (if_neg fun h => Bool.noConfusion (hs.symm.trans h)).trans (if_pos h0)
    · exact (if_neg fun h => Bool.noConfusion (hs.symm.trans h)).trans (if_neg h0)
  · intro v a
    have hExec := (fireReady_live (f := effSectorReturn p) hl (decide_eq_true hp)).trans
      (congrArg (fun c => Host.Outcome.next (s.after c)) (effSectorReturn_of_clean hf hr hRead hPoison))
    exact ⟨fun hLast => hExec.trans (congrArg (fun c => Host.Outcome.next (s.after c)) (if_pos hLast)),
      fun hMore => hExec.trans (congrArg (fun c => Host.Outcome.next (s.after c)) (if_neg hMore))⟩

end Sys2Proof.Machine
end

section
/-! SUPPORT. LATTICE: its groups, the grid buffers and its points (R111 to R121). -/
namespace Sys2Proof.Machine

theorem effLattice_of_zeroed {b b1 : Blk} {q : Nat} {d : Desc} (h : handedOf b q [0x12] = some d)
    (hz : zeroMask d.id (d.f 48 8) (ceilDiv (d.f 12 4) 64) b = (b1, .ok)) :
    effLattice q b = handAll d.id .group ((List.range (ceilDiv (d.f 12 4) 64)).map (fun g =>
        [{ no := g, need := coordTiles d.bytes (64 * g) (min 64 (d.f 12 4 - 64 * g)) }]))
      (startWork d.id (.units { d.pre with total := ceilDiv (d.f 12 4) 64 }) (b1.modDesc d.id (fun d => { d with started := true }))) := by
  simp only [effLattice, h, hz]

/-- One level that has been read takes its place in the grid buffer; the next follows (R121). -/
theorem loadLevels_of_read {p uid n : Nat} {c : Cls} {d : Desc} {g : GridLevel} {t : List (GridLevel × Nat)} {b b2 : Blk} {l : List PByte}
    (hr : rd (.pitch p) (.unit uid) c g.va n b = (b2, .ok l)) :
    loadLevels p uid c d ((g, n) :: t) b =
      let i := takeInject 5 b2
      loadLevels p uid c d t (pitchSectors c.ctx d.q (sectorsOf g.va n) (bump Ctr.ltBufferLoads c.ctx 1
        (i.1.setPitch p { i.1.pitch p with grid := (i.1.pitch p).grid ++ [{ g with data := l, ecc := i.2 }] }))) := by
  simp only [loadLevels, hr]

/-- GRID_BUFFER_LOAD of a group whose levels are not all held. -/
theorem effGridBufferLoad_of_missing {b : Blk} {p : Nat} {u : Machine.Unit} {d : Desc} {r : UnitsRun} {g : GridLevel × Nat} {t : List (GridLevel × Nat)}
    (hu : gridUnit (scrubGrid p b) p = some u) (hd : (scrubGrid p b).desc? u.op = some d) (hw : d.work = .units r)
    (hb : r.tabs.any (·.bad) = false) (hm : missingLevels (scrubGrid p b) p (clsOf (scrubGrid p b) d.q).ctx r = g :: t) :
    effGridBufferLoad p b =
      let b0 := scrubGrid p b
      let c := clsOf b0 d.q
      let keep := (b0.pitch p).grid.filter (fun h => (bufferedLevels c.ctx r).any (fun g => h.same g.1 && h.data.length == g.2))
      loadLevels p u.uid c d (g :: t) (b0.setPitch p { b0.pitch p with grid := keep }) := by
  simp only [effGridBufferLoad, hu, hd, hw, hb, hm, Bool.false_eq_true, if_false]

/-- LATTICE_POINT of a group whose levels are held. -/
theorem effLatticePoint_of_unit {b : Blk} {p : Nat} {u : Machine.Unit} {d : Desc} {r : UnitsRun} (hu : latticeUnit (scrubGrid p b) p = some u)
    (hd : (scrubGrid p b).desc? u.op = some d) (hw : d.work = .units r) (hb : r.tabs.any (·.bad) = false)
    (hm : missingLevels (scrubGrid p b) p (clsOf (scrubGrid p b) d.q).ctx r = []) (ho : mayOpen (scrubGrid p b) p = true) :
    effLatticePoint p b = encodeOne u d r (scrubGrid p b) := by
  have hReady : mayOpen (scrubGrid p b) p = true ∧ missingLevels (scrubGrid p b) p ((scrubGrid p b).q d.q).ctx r = [] := ⟨ho, hm⟩
  simp only [effLatticePoint, hu, hd, hw, hb, Bool.false_eq_true, if_false, if_pos hReady]

section
variable {b : Blk} {u : Machine.Unit} {d : Desc} {r : UnitsRun} {bytes : List PByte}
  (hi : u.input (coordAddr d.bytes (64 * u.no + u.next / r.levels.length)) (byteAt d.bytes 8 * coordBytes d.bytes) = some bytes)
include hi

/-- A point with a NaN coordinate, or a poisoned one, is dropped (R115, R389). -/
theorem encodeOne_of_nan (hn : (coordsOf d.bytes bytes).any (fun c => (rd32 c).isNan) = true) :
    encodeOne u d r b =
      let bad := (pieces (coordBytes d.bytes) bytes).filter (fun x => anyPoison x)
      dropPoint u d r.levels.length (u.next / r.levels.length) (if bad = [] then b else
        poisonNans (clsOf b d.q).ctx bad.length (poisonRecord d u.pitch (coordAddr d.bytes (64 * u.no + u.next / r.levels.length)) b)) := by
  simp only [encodeOne, hi, hn, if_true, List.isEmpty_iff]
  rfl

/-- The corners of a level, where each of them is read (R114 to R118). -/
theorem encodeOne_of_corners (hn : (coordsOf d.bytes bytes).any (fun c => (rd32 c).isNan) = false) {b1 : Blk} {at_ : Nat} {src : RowSrc}
    {rows : List (Serve × Nat × W32)}
    (hs : serveCorners u.pitch u.uid (clsOf b d.q) (r.levels.getD (u.next % r.levels.length) [])
      (levelTab r (r.levels.getD (u.next % r.levels.length) [])) (cornersOf d.bytes (r.levels.getD (u.next % r.levels.length) [])
        (levelTab r (r.levels.getD (u.next % r.levels.length) [])).rows (coordsOf d.bytes bytes)) b = (b1, .here at_ src, rows)) :
    encodeOne u d r b =
      let n := r.levels.length
      let e := r.levels.getD (u.next % n) []
      let t := levelTab r e
      let tag := b1.nextUid
      let bag : Bag := { tag := tag, op := u.op, unit := u.uid, cell := u.next, pitch := u.pitch, q := d.q, tab := t.table }
      let b2 := (takeCorners tag (rows.map (fun x => (x.1, x.2.1, cornerWeight t.fmt e x.2.2)))
        { b1 with nextUid := tag + 1, bags := b1.bags ++ [bag] }).modUnit u.uid (fun u => { u with next := u.next + 1 })
      sendAll u.pitch (closeBag tag (serveQueue u.pitch 1 d.q (if u.next % n + 1 = n then bump Ctr.ltPoints d.q 1 b2 else b2))) := by
  simp only [encodeOne, hi, hn, Bool.false_eq_true, if_false, hs]

end

/-- Settles O32: each command of the lattice unit, by what its group finds. -/
theorem latticePointsAreEncoded : Obligations.LatticePointsAreEncoded := by
  intro s hl
  refine ⟨fun q d b1 hq h => ?_, fun p u d r hp => ?_⟩
  · intro n hz
    refine (fireReady_queue hl hq _).trans ?_
    rw [effLattice_of_zeroed h hz]
  · intro b0 hd hw hb c
    refine ⟨fun g n t b2 l hu hm => ?_, fun b => rfl, fun bytes hu hm ho => ?_⟩
    · intro keep hr i
      refine (fireReady_live hl (decide_eq_true hp)).trans ?_
      rw [effGridBufferLoad_of_missing hu hd hw hb hm]
      exact congrArg (fun c => Host.Outcome.next (s.after c)) (loadLevels_of_read hr)
    · intro n pt va hi cs bad
      have hExec := (fireReady_live (f := effLatticePoint p) hl (decide_eq_true hp)).trans
        (congrArg (fun c => Host.Outcome.next (s.after c)) (effLatticePoint_of_unit hu hd hw hb hm ho))
      refine ⟨fun hn => ?_, fun hn => ?_⟩
      · exact hExec.trans (congrArg (fun c => Host.Outcome.next (s.after c)) (encodeOne_of_nan hi hn))
      · intro e t b1 at_ src rows hs
        exact hExec.trans (congrArg (fun c => Host.Outcome.next (s.after c)) (encodeOne_of_corners hi hn hs))

end Sys2Proof.Machine
end

section
/-! SUPPORT. The array's units: handing out, passes, panels and commit (R123 to R133, R139). -/
namespace Sys2Proof.Machine

theorem effArrayRun_of_zeroed {b b1 : Blk} {q : Nat} {d : Desc} (h : handedOf b q [0x13] = some d)
    (hz : zeroMask d.id (runBody d.bytes).mask (runBody d.bytes).units b = (b1, .ok)) :
    effArrayRun q b = handAll d.id .block (pieces 8 ((List.range (runBody d.bytes).units).map (fun u =>
        { no := u, need := (List.range (runBody d.bytes).passes).flatMap ((runBody d.bytes).passNeed u) })))
      (startWork d.id (.units { d.pre with total := (runBody d.bytes).units }) (b1.modDesc d.id (fun d => { d with started := true }))) := by
  simp only [effArrayRun, h, hz]

theorem effInteract_of_zeroed {b b1 : Blk} {q : Nat} {d : Desc} (h : handedOf b q [0x11] = some d)
    (hz : zeroMask d.id (d.f 56 8) (d.f 16 4) b = (b1, .ok)) :
    effInteract q b = handAll d.id .sample (pieces 8 ((List.range (d.f 16 4)).map (fun n => { no := n, need := [(d.f 32 8, 8 * d.f 12 2)] })))
      (startWork d.id (.units { d.pre with total := d.f 16 4 }) (b1.modDesc d.id (fun d => { d with started := true }))) := by
  simp only [effInteract, h, hz]

/-- Seating a panel can only take the decoder's weights away, never bring them. -/
theorem decoder_seatPanel {b : Blk} {p : Nat} {k : PanelKey} {id : Nat} (h : (b.pitch p).arr.decoder ≠ some id) :
    ((seatPanel p k b).pitch p).arr.decoder ≠ some id := by
  have hFill : ((seatPanel.fillPanel p k (b.pitch p) b).pitch p).arr.decoder ≠ some id := by
    unfold seatPanel.fillPanel
    split
    · exact h
    · simp
  simp only [seatPanel]
  split
  · split
    · exact h
    · exact hFill
  · split
    · exact h
    · split
      · simp
      · exact hFill
  · split
    · simp
    · exact hFill
  · exact hFill

/-- A command that acts in READY leaves what its effect is found to give. -/
theorem fireReady_eq {s : State} {ok : Bool} {f : Blk → Blk} {b : Blk} (hl : Live s) (hok : ok = true) (h : f s.b = b) :
    fireReady ok f s = .next (s.after b) := h ▸ fireReady_live hl hok

section
variable {b : Blk} {p : Nat} {u : Machine.Unit} {d : Desc} (hu : passUnit b p = some u) (hd : b.desc? u.op = some d)
include hu hd

theorem effArrayPass_of_forbidden (h : permitted (idleRamp p b) p = false) : effArrayPass p b = idleRamp p b := by
  simp only [effArrayPass, hu, hd, h, Bool.not_false, if_true]

variable (hp : permitted (idleRamp p b) p = true)
include hp

theorem effArrayPass_of_waiting (hk : u.kind ≠ .group)
    (h : activePanel (seatPanel p { op := d.id, unit := u.uid, pass := u.next } (idleRamp p b)) p
      { op := d.id, unit := u.uid, pass := u.next } = none) :
    effArrayPass p b = seatPanel p { op := d.id, unit := u.uid, pass := u.next } (idleRamp p b) := by
  simp only [effArrayPass, hu, hd, hp, Bool.not_true, Bool.false_eq_true, if_false, if_neg hk, h]

theorem effArrayPass_of_active {w : List W32} (hk : u.kind ≠ .group)
    (h : activePanel (seatPanel p { op := d.id, unit := u.uid, pass := u.next } (idleRamp p b)) p
      { op := d.id, unit := u.uid, pass := u.next } = some w) :
    effArrayPass p b =
      let b1 := seatPanel p { op := d.id, unit := u.uid, pass := u.next } (idleRamp p b)
      if u.kind = .block then
        if (runBody d.bytes).inf = 1 ∧ badInput d u ≠ [] then
          failUnit u.uid ((badInput d u).foldl (fun b e => poisonRecord d u.pitch e.1 b) b1)
        else blockPass u d w (notePoison d u b1)
      else samplePass u d w (if u.next = 0 then notePoison d u b1 else b1) := by
  simp only [effArrayPass, hu, hd, hp, Bool.not_true, Bool.false_eq_true, if_false, if_neg hk, h]

theorem effArrayPass_of_group {r : UnitsRun} (hk : u.kind = .group) (hr : d.run = some r) :
    effArrayPass p b =
      let b0 := idleRamp p b
      let b1 := if (b0.pitch p).arr.decoder = some d.id then b0 else seatPanel p (decoderKey d.id) b0
      if (b1.pitch p).arr.decoder = some d.id then
        match activePanel b1 p (decoderKey d.id) with
        | some w => decoderPass u d r.decoder d.encWidth w b1
        | none => b1
      else b1 := by
  simp only [effArrayPass, hu, hd, hp, Bool.not_true, Bool.false_eq_true, if_false, if_pos hk, hr] <;> rfl

end

section
variable {b : Blk} {p : Nat} {k : PanelKey} {u : Machine.Unit} {d : Desc} 

/-- SHADOW_FILL for a block or a sample. -/
theorem effShadowFill_of_panel (hf : (b.pitch p).arr.filling = some k) (hk : k ≠ decoderKey k.op) (hu : unitOf b k.unit = some (u, d)) :
    effShadowFill p b =
      let x := b.pitch p
      let n := b.clk.pitch - x.arr.fillAsked
      let ctx := (b.q d.q).ctx
      charge 1 n (some ctx) (some d.q) (bump Ctr.arBubbles ctx n
        (b.setPitch p { x with arr := { x.arr with shadow := some (k, panelOf d u k.pass), filling := none } })) := by
  simp only [effShadowFill, hf, if_neg hk, hu]

theorem effShadowFill_of_decoder (hf : (b.pitch p).arr.filling = some k) (hk : k = decoderKey k.op)
    (hu : b.units.find? (fun u => u.op = k.op && u.kind = .group && passReady b p u) = some u) (hd : b.desc? u.op = some d)
    {r : UnitsRun} (hr : d.run = some r) : effShadowFill p b = decoderLoad u d r.decoder d.encWidth b := by
  simp only [effShadowFill, hf, if_pos hk, hu, hd, hr]

theorem effShadowFill_of_ahead (hf : (b.pitch p).arr.filling = none) {w : PanelKey × List W32} (ha : aheadPanel b p = some w) :
    effShadowFill p b = b.setPitch p { b.pitch p with arr := { (b.pitch p).arr with shadow := some w } } := by
  simp only [effShadowFill, hf, ha]

theorem effShadowFill_of_none (hf : (b.pitch p).arr.filling = none) (ha : aheadPanel b p = none) : effShadowFill p b = b := by
  simp only [effShadowFill, hf, ha]

end

/-- A decoder's weights that have been read fill both buffers (R134). -/
theorem decoderLoad_of_read {u : Machine.Unit} {d : Desc} {r : List Byte} {e : Nat} {b b1 : Blk} {l : List PByte} {w : List W32}
    (h : loadLayers u d r e (byteAt r 0) b = (b1, .ok l, w)) :
    decoderLoad u d r e b =
      let y := b1.pitch u.pitch
      let n := b1.clk.pitch - y.arr.fillAsked
      let ctx := (b1.q d.q).ctx
      charge 1 n (some ctx) (some d.q) (bump Ctr.arBubbles ctx n (bump Ctr.arDecoderLoads ctx 1
        (b1.setPitch u.pitch { y with arr := { y.arr with active := some (decoderKey d.id, w), shadow := none, filling := none,
                                                          decoder := some d.id } }))) := by
  simp only [decoderLoad, h]

section
variable {b : Blk} {uid : Nat} {u : Machine.Unit} {d : Desc} {r : UnitsRun} (hu : unitOf b uid = some (u, d)) (hw : d.work = .units r)
  (hOpen : ¬(u.kind = .bag ∨ b.isParked (.unit uid) = true))
include hu hw hOpen

/-- UNIT_COMMIT writes the unit's output. -/
theorem effUnitCommit_of_combine {b1 : Blk} (hs : u.stage = .combine)
    (h : storeAll u.pitch uid (clsOf b d.q) (unitOutput d r u) b = (b1, .ok)) :
    effUnitCommit uid b = b1.modUnit uid (fun u => { u with stage := .write }) := by
  have hStage : u.stage ≠ .write := fun h => UStage.noConfusion (hs.symm.trans h)
  simp only [effUnitCommit, hu, hw, if_neg hOpen, if_neg hStage, if_pos hs, h]

/-- UNIT_COMMIT of a unit whose output is visible: its mask bit, then its commit. -/
theorem effUnitCommit_of_visible {b0 b1 : Blk} {u0 : Machine.Unit} (hb : flushUnit u b = b0) (h0 : (b0.unit? uid).getD u = u0)
    (hs : u.stage = .write) (hv : outputVisible b0 u0 = true)
    (h : (if unitMask d = 0 then (b0, Wr.ok) else setMaskBit u0.pitch u0.op uid (clsOf b0 d.q) (unitMask d) u0.no b0) = (b1, .ok)) :
    effUnitCommit uid b = commitUnit uid (unitCounts d u0 b1) := by
  simp only [effUnitCommit, hu, hw, if_neg hOpen, if_pos hs, hb, h0, hv, if_true, h]

end

/-- Settles O33: each command of the array, by what its unit and its buffers hold. -/
theorem arrayUnitsRunAndCommit : Obligations.ArrayUnitsRunAndCommit := by
  intro s hl
  refine ⟨fun q d b1 hq => ⟨fun h hz => ?_, fun h hz => ?_⟩, fun p u d hp hu hd => ?_, fun p hp => ?_, fun uid u d r hu hw hk hpk => ?_⟩
  · exact fireReady_eq hl (decide_eq_true hq) (effArrayRun_of_zeroed h hz)
  · exact fireReady_eq hl (decide_eq_true hq) (effInteract_of_zeroed h hz)
  · have hLt := decide_eq_true hp
    refine ⟨fun h => ?_, fun h hk ha => ?_, fun w h hk ha => ?_, fun w h hk ha => ?_, fun r h hk hr => ⟨fun hn => ?_, fun w hs ha => ?_⟩⟩
    · exact fireReady_eq hl hLt (effArrayPass_of_forbidden hu hd h)
    · exact fireReady_eq hl hLt (effArrayPass_of_waiting hu hd h hk ha)
    · have hPass := effArrayPass_of_active hu hd h (hk ▸ UKind.noConfusion) ha
      refine ⟨fun hBad => ?_, fun hGood => ?_⟩
      · exact fireReady_eq hl hLt (hPass.trans ((if_pos hk).trans (if_pos hBad)))
      · have hNot : ¬((runBody d.bytes).inf = 1 ∧ badInput d u ≠ []) := fun ⟨h1, h2⟩ => hGood.elim (absurd h1) h2
        exact fireReady_eq hl hLt (hPass.trans ((if_pos hk).trans (if_neg hNot)))
    · have hPass := effArrayPass_of_active hu hd h (hk ▸ UKind.noConfusion) ha
      exact fireReady_eq hl hLt (hPass.trans (if_neg (hk ▸ UKind.noConfusion)))
    · refine fireReady_eq hl hLt ((effArrayPass_of_group hu hd h hk hr).trans ?_)
      simp only [if_neg hn, if_neg (decoder_seatPanel hn)]
    · refine fireReady_eq hl hLt ((effArrayPass_of_group hu hd h hk hr).trans ?_)
      simp only [if_pos hs, ha]
      rfl
  · have hLt := decide_eq_true hp
    refine ⟨fun k u d hf hk hu => ?_, fun k u d r b1 l w hf hk hu hd hr h => ?_, fun w hf ha => ?_, fun hf ha => ?_⟩
    · exact fireReady_eq hl hLt (effShadowFill_of_panel hf hk hu)
    · exact fireReady_eq hl hLt ((effShadowFill_of_decoder hf hk hu hd hr).trans (decoderLoad_of_read h))
    · exact fireReady_eq hl hLt (effShadowFill_of_ahead hf ha)
    · exact fireReady_eq hl hLt (effShadowFill_of_none hf ha)
  · have hOpen : ¬(u.kind = .bag ∨ s.b.isParked (.unit uid) = true) := by simp [hk, hpk]
    refine ⟨fun b1 hs h => ?_, ?_⟩
    · exact fireReady_eq hl rfl (effUnitCommit_of_combine hu hw hOpen hs h)
    · intro hs b0 u0 hv
      refine ⟨fun hm => ?_, fun b1 hm h => ?_⟩
      · exact fireReady_eq hl rfl (effUnitCommit_of_visible hu hw hOpen rfl rfl hs hv (if_pos hm))
      · exact fireReady_eq hl rfl (effUnitCommit_of_visible hu hw hOpen rfl rfl hs hv ((if_neg hm).trans h))

end Sys2Proof.Machine
end

section
/-! SUPPORT. SCATTER at the requester: occurrences and acknowledgements (R145 to R149, R152, R166, R168). -/
namespace Sys2Proof.Machine

theorem effScatter_of_handed {b : Blk} {q : Nat} {d : Desc} (h : handedOf b q [0x20] = some d) :
    effScatter q b =
      let run : UnitsRun := { d.pre with segs := d.segments, total := forwardUnits d }
      let us := (List.range run.total).map (fun no =>
        ({ no := no, need := if useMask d then [(maskWord d no, 8)] else scatterTiles d run no } : NewUnit))
      let b0 := handAll d.id .scatter (if d.unitOp = 0x10 then pieces 64 us else pieces 1 us)
        (startWork d.id (.scatter { run := run, forward := d.forward }) b)
      modScatter d.id (fun r =>
        { r with open_ := ((b0.units.filter (fun u => u.op = d.id)).map (·.pitch)).eraseDups }) b0 := by
  simp only [effScatter, h]

/-- An index of a class that is counted names no row. -/
theorem IxClass.isValid_eq (c : IxClass) : (match c with
    | .valid _ => true
    | _ => false) = c.counter.isNone := by
  cases c <;> rfl

section
variable {b : Blk} {p : Nat} {u : Machine.Unit} {d : Desc} {r : ScatterRun}
  (hu : nextUnit b p 3 (b.units.filter (scatterReady b p)) = some u) (hd : b.desc? u.op = some d) (hr : d.scatter? = some r)
include hu hd hr

theorem effScatterOccurrence_of_mask (hm : useMask d = true) (ho : u.opened = false) :
    effScatterOccurrence p b = openScatter u d r.run b := by
  simp only [effScatterOccurrence, hu, hd, hr, hm, ho, Bool.not_false, Bool.and_self, if_true]

theorem effScatterOccurrence_of_open (h : useMask d = false ∨ u.opened = true) :
    effScatterOccurrence p b = if d.unitOp = 0x10 then bagOccurrence u d r.run b else cornerOccurrence u d r.run b := by
  have hOpen : (useMask d && !u.opened) = false := by
    rcases h with h | h <;> simp [h]
  simp only [effScatterOccurrence, hu, hd, hr, hOpen, Bool.false_eq_true, if_false]

end

/-- A mask bit that has been read ends its unit, or lets its input be fetched (R145). -/
theorem openScatter_of_clean {u : Machine.Unit} {d : Desc} {r : UnitsRun} {b : Blk} {w : List PByte}
    (h : u.input (maskWord d u.no) 8 = some w) (hw : anyPoison w = false) :
    openScatter u d r b = if maskBit w u.no
      then b.modUnit u.uid (fun u => { u with opened := true, need := scatterTiles d r u.no, have_ := [] })
      else endScatterUnit u b := by
  simp only [openScatter, h, hw, Bool.false_eq_true, if_false]

section
variable {b : Blk} {u : Machine.Unit} {d : Desc} {r : UnitsRun} (ht : (tabOfBag r u.no).bad = false)
  (hs : (bagSpan d.forward r u.no).2 ≠ 0)
  (hp : poisonIn u (field d.forward 48 8 + ixBytes (tabOfBag r u.no).ixFmt * (bagSpan d.forward r u.no).1)
    (ixBytes (tabOfBag r u.no).ixFmt * (bagSpan d.forward r u.no).2) = false)
include ht hs hp

/-- The next index of a bag is dropped by its class (R77, R148). -/
theorem bagOccurrence_of_dropped {k : Nat}
    (hk : (bagIndex u (tabOfBag r u.no) (field d.forward 48 8 + ixBytes (tabOfBag r u.no).ixFmt * (bagSpan d.forward r u.no).1
      + ixBytes (tabOfBag r u.no).ixFmt * u.next)).counter = some k) :
    bagOccurrence u d r b = nextItem u 1 (bagSpan d.forward r u.no).2 (scatterDrop d (bump k d.q 1 b)) := by
  simp only [bagOccurrence, ht, Bool.false_eq_true, if_false, if_neg hs, hp, and_false]
  split
  next row h => simp [h, IxClass.counter] at hk
  all_goals simp only [scatterDropIndex, hk]

/-- The next index of a bag whose row's home is known forms an occurrence (R148). -/
theorem bagOccurrence_of_away {row chip die : Nat} {b1 : Blk}
    (hv : bagIndex u (tabOfBag r u.no) (field d.forward 48 8 + ixBytes (tabOfBag r u.no).ixFmt * (bagSpan d.forward r u.no).1
      + ixBytes (tabOfBag r u.no).ixFmt * u.next) = .valid row) (hm : mayOccur b u.pitch (tabOfBag r u.no) = true)
    (hh : homeFor u d (tabOfBag r u.no) row b = (b1, .away chip die))
    (hg : poisonIn u (gradAddr d u.no) (gradBytes d * (tabOfBag r u.no).dim) = false)
    (hw : anyPoison ((u.input (field d.forward 56 8 + wtBytes d.forward * ((bagSpan d.forward r u.no).1 + u.next))
      (wtBytes d.forward)).getD []) = false) :
    bagOccurrence u d r b =
      let l := d.forward
      let t := tabOfBag r u.no
      let sp := bagSpan l r u.no
      let wt := (u.input (field l 56 8 + wtBytes l * (sp.1 + u.next)) (wtBytes l)).getD []
      let w : W32 := if wtBytes l = 2 then b16to32 (le (plain wt)) else BitVec.ofNat 32 (le (plain wt))
      let g := (gradVec d u (gradAddr d u.no) t.dim).map rd32
      let valid := (List.range sp.2).filter (fun i =>
        (bagIndex u t (field l 48 8 + ixBytes t.ixFmt * sp.1 + ixBytes t.ixFmt * i)).counter.isNone)
      nextItem u 1 sp.2 (occur u d t row chip die (if byteAt l 8 = 1 then valid.length else 1)
        (if byteAt l 8 = 2 then g.map (rd32 w).mul else g) (if t.sketch then sketchCount u.pitch t.table row b1 else b1)) := by
  simp only [bagOccurrence, ht, Bool.false_eq_true, if_false, if_neg hs, hp, and_false, hv, hm, Bool.not_true, hh, hg, hw,
    ← IxClass.isValid_eq] <;> rfl

end

section
variable {b : Blk} {u : Machine.Unit} {d : Desc} {r : UnitsRun} (ht : r.tabs.any (·.bad) = false)
  (hc : anyPoison ((u.input (coordAddr d.forward (64 * u.no + u.next / (r.levels.length * 2 ^ byteAt d.forward 8)))
    (byteAt d.forward 8 * coordBytes d.forward)).getD []) = false)
include ht hc

/-- A point with a NaN coordinate is dropped (R149). -/
theorem cornerOccurrence_of_nan
    (hn : (coordsOf d.forward ((u.input (coordAddr d.forward (64 * u.no + u.next / (r.levels.length * 2 ^ byteAt d.forward 8)))
      (byteAt d.forward 8 * coordBytes d.forward)).getD [])).any (fun c => (rd32 c).isNan) = true) :
    cornerOccurrence u d r b = nextItem u (r.levels.length * 2 ^ byteAt d.forward 8)
      (min 64 (field d.forward 12 4 - 64 * u.no) * (r.levels.length * 2 ^ byteAt d.forward 8)) (scatterDrop d b) := by
  simp only [cornerOccurrence, ht, Bool.false_eq_true, if_false, hc, and_false, hn, if_true]

/-- A corner of a point whose row's home is known forms an occurrence of its level's share (R149). -/
theorem cornerOccurrence_of_away {b1 : Blk} {chip die : Nat}
    (hn : (coordsOf d.forward ((u.input (coordAddr d.forward (64 * u.no + u.next / (r.levels.length * 2 ^ byteAt d.forward 8)))
      (byteAt d.forward 8 * coordBytes d.forward)).getD [])).any (fun c => (rd32 c).isNan) = false) :
    let l := d.forward
    let n := 2 ^ byteAt l 8
    let lv := r.levels.length
    let points := min 64 (field l 12 4 - 64 * u.no)
    let pt := u.next / (lv * n)
    let bytes := (u.input (coordAddr l (64 * u.no + pt)) (byteAt l 8 * coordBytes l)).getD []
    let lev := u.next / n % lv
    let e := r.levels.getD lev []
    let t := levelTab r e
    let c := (cornersOf l e t.rows (coordsOf l bytes)).getD (u.next % n) (0, 0)
    let gVa := gradAddr d (64 * u.no + pt)
    let off := ((r.levels.take lev).map (fun e => (levelTab r e).dim)).foldl (· + ·) 0
    mayOccur b u.pitch t = true → homeFor u d t c.1 b = (b1, .away chip die) → poisonIn u gVa (gradBytes d * d.encWidth) = false →
    cornerOccurrence u d r b = nextItem u 1 (points * (lv * n)) (occur u d t c.1 chip die 1
      (((gradVec d u (gVa + gradBytes d * off) t.dim).map rd32).map ((rd32 c.2).mul)) b1) := by
  dsimp only
  intro hm hh hg
  simp only [cornerOccurrence, ht, Bool.false_eq_true, if_false, hc, and_false, hn, hm, Bool.not_true, hh, hg]

end

/-- A value of an occurrence that is a NaN drops the occurrence (R143). -/
theorem occur_of_nan {u : Machine.Unit} {d : Desc} {t : Captured} {row chip die n : Nat} {xs : List Fp} {b : Blk}
    (h : (xs.map (toExact t.accExp n)).any Option.isNone = true) :
    occur u d t row chip die n xs b = bump Ctr.scDropNan d.q 1 (modScatter d.id (fun r => { r with dropNan := r.dropNan + 1 }) b) := by
  simp only [occur, h, if_true]

/-- An acknowledgement of a SCATTER's messages. -/
def isGradAck (r : Rx) : Bool :=
  match r.msg with
  | .gradAck _ => true
  | _ => false

theorem effGradAck_of_oldest {b : Blk} {i : Nat} {r : Rx} {m : GradAckB} {d : Desc} {x : ScatterRun} (ho : oldest b isGradAck = some (i, r))
    (hm : r.msg = .gradAck m) (ht : tagOwner (heard r.chip (takeRx i r b)) m.tag = some (d, x)) :
    effGradAck b =
      let b0 := heard r.chip (takeRx i r b)
      if (settleOut (m.tag % 32) m.chip m.die m.msgs x.out).2 = 0 then bump Ctr.sackItemsReplayed 0 1 b0
      else
        let b1 := modScatter d.id (fun x => { x with dropFrozen := x.dropFrozen + m.occFrozen }) b0
        let b2 := if m.overrange then addStatus d.id .overrange b1 else b1
        accounted d.id (m.tag % 32) m.chip m.die m.msgs
          (match m.status with
            | 1 => addStatus d.id .tableBusy b2
            | 2 => addStatus d.id .malformed b2
            | 3 => addStatus d.id .unreachable b2
            | _ => b2) := by
  unfold effGradAck
  split
  · next h => exact absurd (h.symm.trans ho) (by simp)
  · next h =>
    obtain ⟨rfl, rfl⟩ := Prod.mk.inj (Option.some.inj (h.symm.trans ho))
    simp only [hm, ht] <;> rfl

/-- The statuses of an acknowledgement, one after another. -/
theorem ackStatus_eq {α : Type} (n : Nat) (a b c e : α) : (match n with
    | 1 => a
    | 2 => b
    | 3 => c
    | _ => e) = if n = 1 then a else if n = 2 then b else if n = 3 then c else e := by
  split <;> simp_all

/-- Settles O34: each command by what the unit's next item, or the oldest acknowledgement, is. -/
theorem scatterFormsOccurrencesAndSettles : Obligations.ScatterFormsOccurrencesAndSettles := by
  intro s hl
  refine ⟨fun q d hq h => fireReady_eq hl (decide_eq_true hq) (effScatter_of_handed h), fun p u d r hp hu hd hr => ?_,
    fun i r m d x ho hm => ?_⟩
  · have hLt := decide_eq_true hp
    refine ⟨fun w hm hn h hw => ?_, fun hOpen hOp => ?_, fun hOpen hOp ht => ?_, fun t row chip die n xs b h => occur_of_nan h⟩
    · exact fireReady_eq hl hLt ((effScatterOccurrence_of_mask hu hd hr hm hn).trans (openScatter_of_clean h hw))
    · intro l t sp ixVa ht hs hp
      have hBag := (effScatterOccurrence_of_open hu hd hr hOpen).trans (if_pos hOp)
      refine ⟨fun k hk => ?_, fun row b1 chip die hv hm hh hg => ?_⟩
      · exact fireReady_eq hl hLt (hBag.trans (bagOccurrence_of_dropped ht hs hp hk))
      · intro wt w g valid hw
        exact fireReady_eq hl hLt (hBag.trans (bagOccurrence_of_away ht hs hp hv hm hh hg hw))
    · intro l n lv points pt bytes cs hc
      have hCorner := (effScatterOccurrence_of_open hu hd hr hOpen).trans (if_neg hOp)
      refine ⟨fun hn => ?_, fun hn => ?_⟩
      · exact fireReady_eq hl hLt (hCorner.trans (cornerOccurrence_of_nan ht hc hn))
      · intro lev e t c gVa off b1 chip die hm hh hg
        exact fireReady_eq hl hLt (hCorner.trans (cornerOccurrence_of_away ht hc hn hm hh hg))
  · intro b0 ht
    have hAck := effGradAck_of_oldest ho hm ht
    refine ⟨fun hn => ?_, fun hn => ?_⟩
    · exact fireReady_eq hl rfl (hAck.trans (if_pos hn))
    · refine fireReady_eq hl rfl (hAck.trans ((if_neg hn).trans ?_))
      exact congrArg (accounted d.id (m.tag % 32) m.chip m.die m.msgs) (ackStatus_eq ..)

end Sys2Proof.Machine
end

section
/-! SUPPORT. The slices: the dispatcher, placing, the overflow log and the timers (R156 to R167). -/
namespace Sys2Proof.Machine

/-! ### The dispatcher -/

section
variable {i : Nat} {r : Rx} {m : ContribB} {rest : List (Nat × Rx)} {b : Blk} (hm : r.msg = .contrib m)
include hm

theorem passContrib_of_parked (h : b.isParked (dispatchRef m.ctx m.table) = true) : passContrib ((i, r) :: rest) b = passContrib rest b := by
  simp only [passContrib, hm, h, if_true]

theorem passContrib_of_resolved (h : b.isParked (dispatchRef m.ctx m.table) = false) {b1 : Blk} {n l : Nat} {usable : Bool}
    (hr : resolveContrib r m b = (b1, .to n l usable)) :
    passContrib ((i, r) :: rest) b = if withholds b1 n then passContrib rest b1 else toSlice n i r m l usable b1 := by
  simp only [passContrib, hm, h, Bool.false_eq_true, if_false, hr]

theorem passContrib_of_waiting (h : b.isParked (dispatchRef m.ctx m.table) = false) {b1 : Blk}
    (hr : resolveContrib r m b = (b1, .wait)) : passContrib ((i, r) :: rest) b = b1 := by
  simp only [passContrib, hm, h, Bool.false_eq_true, if_false, hr]

end

/-- What the dispatcher makes of the home's descriptor. -/
def HomeRd.resolved (b : Blk) (m : ContribB) : HomeRd → Resolved
  | .ok t => .to (ownerSlice b (homeOf t m.row).lrow) (homeOf t m.row).lrow true
  | .bad => .to 0 0 false
  | .wait => .wait

theorem resolveContrib_of_read {r : Rx} {m : ContribB} {b b1 : Blk} {h : HomeRd}
    (hr : readHome 64 0 (dispatchRef m.ctx m.table) { rt := r.rt, stream := r.stream, ctx := m.ctx } m.table b = (b1, h)) :
    resolveContrib r m b = (b1, h.resolved b1 m) := by
  cases h <;> simp only [resolveContrib, hr, HomeRd.resolved]

/-! ### What a message's arrival keeps of the slices -/

@[simp] theorem giveD2d_gs (p vc n : Nat) (b : Blk) : (giveD2d p vc n b).gs = b.gs := by
  simp only [giveD2d]
  split
  · rfl
  · split <;> rfl
  all_goals rfl

@[simp] theorem giveRidge_gs (sp vc sub n : Nat) (b : Blk) : (giveRidge sp vc sub n b).gs = b.gs := by
  simp only [giveRidge]
  split
  · rfl
  · split <;> rfl
  all_goals rfl

@[simp] theorem takeRx_gs (i : Nat) (r : Rx) (b : Blk) : (takeRx i r b).gs = b.gs := by
  unfold takeRx release
  split <;> simp

@[simp] theorem slice_raise (e : ErrRec) (b : Blk) (n : Nat) : (raise e b).slice n = b.slice n := by simp [Blk.slice]

@[simp] theorem slice_bump (c k v : Nat) (b : Blk) (n : Nat) : (bump c k v b).slice n = b.slice n := rfl

@[simp] theorem slice_setSticky (n c t : Nat) (b : Blk) (k : Nat) : (setSticky n c t b).slice k = b.slice k := by
  unfold setSticky
  split
  · rfl
  · simp [Blk.slice]

@[simp] theorem slice_withheldRecords (n : Nat) (b : Blk) (k : Nat) : (withheldRecords n b).slice k = b.slice k := by
  unfold withheldRecords
  split
  · exact foldl_keeps (fun b : Blk => b.slice k) _ (fun b c => slice_raise _ b k) _ b
  · rfl

/-- A message that reaches its slice joins the slice's inbox, behind what waits there. -/
theorem inbox_toSlice (n i : Nat) (r : Rx) (m : ContribB) (l : Nat) (b : Blk) :
    ((toSlice n i r m l true b).slice n).inbox = (b.slice n).inbox ++
      [{ mid := b.gs.nextMid, b := m, lrow := l, usable := true, late := stepRunning b m.ctx m.table, rt := r.rt, stream := r.stream }] := by
  simp only [toSlice, Bool.true_and, apply_ite (Blk.slice · n), slice_withheldRecords, slice_setSticky, slice_bump, ite_self,
    slice_setSlice, if_true]
  simp [Blk.slice]

/-! ### Placing -/

/-- Where a message goes, by what the probes of its row's arena found (R161 to R163). -/
def Found.place (n : Nat) (m : SMsg) (t : Captured) (b : Blk) : Found → Blk
  | .bucket j h probes => addToBucket n m { rt := m.rt, stream := m.stream, ctx := m.b.ctx } t j h probes b
  | .none probes => toLog n m t (countProbes m.b.ctx probes b)
  | .wait => b
  | .fail va probes => unplaced n m va (countProbes m.b.ctx probes b)

section
variable {n : Nat} {m : SMsg} {b : Blk} (hm : nextMsg b [] (b.slice n).inbox = some m)
include hm

theorem effContribPlace_of_unusable (hu : m.usable = false) : effContribPlace n b = ackMsg n m 2 0 (dropMsg n m.mid b) := by
  simp only [effContribPlace, hm, hu, Bool.not_false, if_true]

variable (hu : m.usable = true)
include hu

theorem effContribPlace_of_bad {b1 : Blk}
    (hr : readHome n n (.msg m.mid) { rt := m.rt, stream := m.stream, ctx := m.b.ctx } m.b.table b = (b1, .bad)) :
    effContribPlace n b = ackMsg n m 2 0 (dropMsg n m.mid b1) := by
  simp only [effContribPlace, hm, hu, Bool.not_true, Bool.false_eq_true, if_false, hr]

variable {b1 : Blk} {t : Captured}
  (hr : readHome n n (.msg m.mid) { rt := m.rt, stream := m.stream, ctx := m.b.ctx } m.b.table b = (b1, .ok t))
include hr

theorem effContribPlace_of_empty (h0 : t.rowBase m.b.slot = 0) : effContribPlace n b = ackMsg n m 1 0 (dropMsg n m.mid b1) := by
  simp only [effContribPlace, hm, hu, Bool.not_true, Bool.false_eq_true, if_false, hr, if_pos h0]

variable (h0 : t.rowBase m.b.slot ≠ 0) {b2 : Blk}
include h0

theorem effContribPlace_of_frozen
    (hf : freezeCheck n (.msg m.mid) { rt := m.rt, stream := m.stream, ctx := m.b.ctx } t m.lrow b1 = (b2, .frozen)) :
    effContribPlace n b = ackMsg n m 0 m.b.occ (dropMsg n m.mid (bump Ctr.gsDropFrozen m.b.ctx m.b.occ b2)) := by
  simp only [effContribPlace, hm, hu, Bool.not_true, Bool.false_eq_true, if_false, hr, if_neg h0, hf]

variable (hf : freezeCheck n (.msg m.mid) { rt := m.rt, stream := m.stream, ctx := m.b.ctx } t m.lrow b1 = (b2, .free))
include hf

theorem effContribPlace_of_visit (hv : isVisit b2 m.b.ctx = true) : effContribPlace n b = addToRun n m t b2 := by
  simp only [effContribPlace, hm, hu, Bool.not_true, Bool.false_eq_true, if_false, hr, if_neg h0, hf, hv, if_true]

theorem effContribPlace_of_probed (hv : isVisit b2 m.b.ctx = false) {b3 : Blk} {f : Found}
    (hp : probeArena n (.msg m.mid) { rt := m.rt, stream := m.stream, ctx := m.b.ctx } t m.lrow 32 0 b2 = (b3, f)) :
    effContribPlace n b = f.place n m t b3 := by
  cases f <;> simp only [effContribPlace, hm, hu, Bool.not_true, Bool.false_eq_true, if_false, hr, if_neg h0, hf, hv, hp, Found.place]

end

/-- The sum of a value of a bucket and one of a message; a poisoned one stays as it is (R161, R389). -/
def bucketSum (sat : Bool) (o : Int × Bool) (x : Int) : (Int × Bool) × Bool :=
  if o.2 then ((o.1, false), true) else (exactAdd sat o.1 x, false)

/-- Where no value is poisoned, every value takes its sum. -/
theorem zipWith_bucketSum (sat : Bool) : ∀ (old : List (Int × Bool)) (xs : List Int), old.all (fun o => !o.2) = true →
    List.zipWith (bucketSum sat) old xs = (List.zipWith (fun (o : Int × Bool) x => exactAdd sat o.1 x) old xs).map (·, false)
  | [], _, _ => by simp
  | _ :: _, [], _ => by simp
  | o :: old, x :: xs, h => by
    simp only [List.all_cons, Bool.and_eq_true, Bool.not_eq_true'] at h
    simp [bucketSum, h.1, zipWith_bucketSum sat old xs h.2]

/-- A message is added into a bucket whose values are clean (R144, R161). -/
theorem addToBucket_of_clean {n : Nat} {m : SMsg} {c : Cls} {t : Captured} {j : Nat} {h : BucketH} {k : Nat} {b b1 b2 : Blk} {d : List PByte}
    (hr : rd (.slice n) (.msg m.mid) c (bucketAddr t j + 16 + 12 * (64 * m.b.chunk)) (12 * m.b.elems.length) b = (b1, .ok d))
    (hd : (exactValues d).all (fun o => !o.2) = true) :
    let va := bucketAddr t j
    let sat := h.sat || m.b.sat
    let new := List.zipWith (fun (o : Int × Bool) x => exactAdd sat o.1 x) (exactValues d) m.b.elems
    let sats := (new.filter (·.2)).length
    let hdr := bucketHeader m.lrow (sat || decide (0 < sats)) (min (h.occ + m.b.occ) 0xFFFFFFFF)
    wrAll (.slice n) (.msg m.mid) c [(va, clean hdr),
      (va + 16 + 12 * (64 * m.b.chunk), new.flatMap (fun e => clean (toLe 12 (ofSigned 96 e.1))))] b1 = (b2, .ok) →
    addToBucket n m c t j h k b = placed n m sats (countProbes c.ctx k b2) := by
  intro va sat new sats hdr hw
  have hNew : List.zipWith (fun (o : Int × Bool) x => if o.2 then ((o.1, false), true) else (exactAdd (h.sat || m.b.sat) o.1 x, false))
      (exactValues d) m.b.elems = new.map (·, false) := zipWith_bucketSum _ _ _ hd
  have hAny : (new.map (fun e => (e, false))).any (·.2) = false := by simp
  have hSats : ((new.map (fun e => (e, false))).filter (fun e => e.1.2)).length = sats := by
    simp [sats, List.filter_map, Function.comp_def]
  simp only [addToBucket, hr, hNew, hAny, hSats, Bool.false_eq_true, if_false, List.flatMap_map]
  rw [show wrAll _ _ _ _ b1 = _ from hw]

/-! ### The log and the timers -/

section
variable {r : LogRec} {b b1 : Blk} (hn : nextLog b b.gs.logq = some r)
include hn

theorem effOverflowAppend_of_done (h : appendTo r { ctx := r.ctx } 65536 b = (b1, .done)) :
    effOverflowAppend b =
      let b2 := if r.mode = 1 then bump Ctr.gsOverflowRecords r.ctx 1 (dropLog r b1) else dropLog r b1
      match r.msg with
      | some m => placed r.slice m 0 b2
      | none => b2 := by
  simp only [effOverflowAppend, hn, h] <;> rfl

theorem effOverflowAppend_of_full {va : Nat} (h : appendTo r { ctx := r.ctx } 65536 b = (b1, .full va)) :
    effOverflowAppend b = logFull r { ctx := r.ctx } va b1 := by
  simp only [effOverflowAppend, hn, h]

end

/-- A run buffer that is written out is empty, and its runs stand behind the records that wait. -/
theorem flushRun_spec (n : Nat) (b : Blk) :
    ((flushRun n b).slice n).run = [] ∧ b.gs.logq <+: (flushRun n b).gs.logq ∧ (flushRun n b).mem = b.mem := by
  have hGs (l : List (Nat × Nat)) : (l.foldl (fun b k => bump Ctr.gsRuns k.1 1 b) b).gs = b.gs :=
    foldl_keeps Blk.gs (fun b (k : Nat × Nat) => bump Ctr.gsRuns k.1 1 b) (fun _ _ => rfl) l b
  have hMem (l : List (Nat × Nat)) : (l.foldl (fun b k => bump Ctr.gsRuns k.1 1 b) b).mem = b.mem :=
    foldl_keeps Blk.mem (fun b (k : Nat × Nat) => bump Ctr.gsRuns k.1 1 b) (fun _ _ => rfl) l b
  refine ⟨?_, ?_, ?_⟩
  · simp [flushRun, Blk.slice]
  · simp [flushRun, hGs]
  · simp [flushRun, hMem]

/-- Settles O35: each command of the slices, by what the message or the record meets. -/
theorem slicesPlaceContributions : Obligations.SlicesPlaceContributions := by
  refine ⟨fun i r m rest b hm => ?_, fun s hl => ⟨fireReady_live hl rfl, ?_, fun n m hn hm => ?_, fun r b1 hr => ?_, fun n hn => ?_⟩⟩
  · refine ⟨passContrib_of_parked hm, fun hp => ⟨fun b1 t hr => ?_, fun b1 hr => ?_, fun b1 hr => ?_⟩⟩
    · exact passContrib_of_resolved hm hp (resolveContrib_of_read hr)
    · exact passContrib_of_resolved hm hp (resolveContrib_of_read hr)
    · exact passContrib_of_waiting hm hp (resolveContrib_of_read hr)
  · intro i r m rest b1 t hc hm hp hr l n hw
    have hPass : effContrib s.b = toSlice n i r m l true b1 := by
      rw [effContrib, hc]
      exact (passContrib_of_resolved hm hp (resolveContrib_of_read hr)).trans (if_neg (ne_true_of_eq_false hw))
    exact ⟨_, fireReady_eq hl rfl hPass, rfl, inbox_toSlice ..⟩
  · have hLt := decide_eq_true hn
    refine ⟨fun hu => ?_, fun b1 hu hr => ?_, fun b1 t hu hr => ⟨fun h0 => ?_, fun b2 h0 hf => ?_, fun b2 h0 hf => ⟨fun hv => ?_, fun hv b3 => ?_⟩⟩⟩
    · exact fireReady_eq hl hLt (effContribPlace_of_unusable hm hu)
    · exact fireReady_eq hl hLt (effContribPlace_of_bad hm hu hr)
    · exact fireReady_eq hl hLt (effContribPlace_of_empty hm hu hr h0)
    · exact fireReady_eq hl hLt (effContribPlace_of_frozen hm hu hr h0 hf)
    · exact fireReady_eq hl hLt (effContribPlace_of_visit hm hu hr h0 hf hv)
    · refine ⟨fun k hp => ?_, fun va k hp => ?_, fun j h k b4 d b5 hp => ?_⟩
      · exact fireReady_eq hl hLt (effContribPlace_of_probed hm hu hr h0 hf hv hp)
      · exact fireReady_eq hl hLt (effContribPlace_of_probed hm hu hr h0 hf hv hp)
      · intro va eva sat hrd hclean new sats hdr hw
        exact fireReady_eq hl hLt ((effContribPlace_of_probed hm hu hr h0 hf hv hp).trans (addToBucket_of_clean hrd hclean hw))
  · refine ⟨fun h => ?_, fun va h => fireReady_eq hl rfl (effOverflowAppend_of_full hr h)⟩
    intro b2
    refine ⟨fun m hm => ?_, fun hm => ?_⟩
    · exact fireReady_eq hl rfl ((effOverflowAppend_of_done hr h).trans (by simp only [hm] <;> rfl))
    · exact fireReady_eq hl rfl ((effOverflowAppend_of_done hr h).trans (by simp only [hm] <;> rfl))
  · have hLt := decide_eq_true hn
    refine ⟨fun h => ?_, fun h => fireReady_eq hl hLt (if_neg (by simp [h])), fireReady_live hl hLt⟩
    obtain ⟨hRun, hLog, hMem⟩ := flushRun_spec n s.b
    exact ⟨_, fireReady_eq hl hLt (if_pos h), hRun, hLog, congrArg Mem.norm hMem⟩

end Sys2Proof.Machine
end

section
/-! SUPPORT. STEP: what its phases do, one lemma per branch (R171 to R191). -/
namespace Sys2Proof.Machine

/-! ### A descriptor that is over stays over -/

/-- Nothing of the descriptor is left to do. -/
def Over (id : Nat) (b : Blk) : Prop := ∀ d, b.desc? id = some d → d.stage = .complete ∧ d.work = .none

theorem over_of_descs {id : Nat} {b c : Blk} (h : c.front.descs = b.front.descs) (ho : Over id b) : Over id c := fun d hd =>
  ho d ((desc?_of_descs h id).symm.trans hd)

theorem over_complete1_same {id : Nat} {b : Blk} {d : Desc} (h : b.desc? id = some d) (hs : d.stage ≠ .complete) : Over id (complete1 id b) := by
  intro e he
  rw [desc?_complete1 h hs, h, Option.map_some, if_pos (desc?_id h)] at he
  cases he
  exact ⟨rfl, rfl⟩

theorem over_complete1 {id : Nat} {b : Blk} (ho : Over id b) (i : Nat) : Over id (complete1 i b) := by
  cases h : b.desc? i with
  | none => rwa [complete1, h]
  | some d =>
    by_cases hs : d.stage = .complete
    · simpa only [complete1, h, if_pos hs] using ho
    · intro e he
      rw [desc?_complete1 h hs] at he
      obtain ⟨x, hx, rfl⟩ := Option.map_eq_some_iff.mp he
      by_cases hi : x.id = i
      · rw [if_pos hi]
        exact ⟨rfl, rfl⟩
      · rw [if_neg hi]
        exact ho x hx

theorem over_modDesc {id : Nat} {b : Blk} (ho : Over id b) {i : Nat} {f : Desc → Desc}
    (hf : ∀ e, (f e).id = e.id ∧ (f e).stage = e.stage ∧ (f e).work = e.work) : Over id (b.modDesc i f) := by
  intro e he
  rw [desc?_modDesc (fun e h => (hf e).1.trans h)] at he
  obtain ⟨x, hx, rfl⟩ := Option.map_eq_some_iff.mp he
  obtain ⟨hStage, hWork⟩ := ho x hx
  split
  · exact ⟨(hf x).2.1.trans hStage, (hf x).2.2.trans hWork⟩
  · exact ⟨hStage, hWork⟩

theorem over_addStatus {id : Nat} {b : Blk} (ho : Over id b) (i : Nat) (st : Status) : Over id (addStatus i st b) :=
  over_modDesc ho fun e => by split <;> exact ⟨rfl, rfl, rfl⟩

theorem over_endLate {id : Nat} {b : Blk} (ho : Over id b) (i : Nat) : Over id (endLate b i) :=
  over_complete1 (over_modDesc (i := i) (f := fun d => { d with aux := idleAux b d }) (over_addStatus ho i .late) fun _ => ⟨rfl, rfl, rfl⟩) i

theorem over_complete {id : Nat} {b : Blk} {d : Desc} (h : b.desc? id = some d) (hs : d.stage ≠ .complete) : Over id (complete id b) := by
  rw [complete_eq]
  have hFold (l : List Nat) : ∀ c : Blk, Over id c → Over id (l.foldl endLate c) := by
    induction l with
    | nil => exact fun c hc => hc
    | cons i l ih => exact fun c hc => ih _ (over_endLate hc i)
  exact hFold _ _ (over_complete1_same h hs)

/-- A STEP that is over advances no further. -/
theorem stepAdvance_of_over {id : Nat} {b : Blk} (ho : Over id b) : stepAdvance id b = b := by
  unfold stepAdvance
  split
  · rfl
  · next d h => rw [(ho d h).2]

/-! ### What changes of a STEP's run keep -/

theorem modStep_step {id : Nat} {b : Blk} {d : Desc} {r : StepRun} {w : Option BarWait} (h : b.desc? id = some d) (hw : d.work = .step r w)
    (f : StepRun → StepRun) : (modStep id f b).desc? id = some { d with work := .step (f r) w } := by
  rw [modStep, desc?_modDesc_same (fun e he => by split <;> exact he) h, hw]

theorem step?_of_work {d : Desc} {r : StepRun} {w : Option BarWait} (hw : d.work = .step r w) : d.step? = some r := by
  rw [Desc.step?, hw]

/-- The run that a descriptor's number names. -/
theorem bind_step? {id : Nat} {b : Blk} {d : Desc} {r : StepRun} {w : Option BarWait} (h : b.desc? id = some d) (hw : d.work = .step r w) :
    (b.desc? id).bind Desc.step? = some r := by
  rw [h, Option.bind_some, step?_of_work hw]

theorem addStatus_step {id : Nat} {b : Blk} {d : Desc} (h : b.desc? id = some d) (st : Status) :
    ∃ e, (addStatus id st b).desc? id = some e ∧ e.stage = d.stage ∧ e.work = d.work := by
  refine ⟨_, desc?_modDesc_same (fun e he => ?_) h, ?_⟩
  · split <;> exact he
  · split <;> exact ⟨rfl, rfl⟩

theorem forgetSort_front (d : Desc) (b : Blk) : (forgetSort d b).front = b.front := by
  simp only [forgetSort]
  split
  · rfl
  · refine foldl_keeps Blk.front _ (fun c p => ?_) _ b
    split
    · split
      · split <;> rfl
      · split <;> rfl
    · rfl

theorem flushRun_front (n : Nat) (b : Blk) : (flushRun n b).front = b.front :=
  foldl_keeps Blk.front (fun b (k : Nat × Nat) => bump Ctr.gsRuns k.1 1 b) (fun _ _ => rfl) _ b

theorem closeAccum_front (ctx table : Nat) (b : Blk) : (closeAccum ctx table b).front = b.front := by
  unfold closeAccum
  split
  · refine foldl_keeps Blk.front _ (fun c n => ?_) _ b
    split
    · exact flushRun_front n c
    · rfl
  · rfl

/-- A STEP that ends is over. -/
theorem over_stepFinish {id : Nat} {b : Blk} {d : Desc} {r : StepRun} {w : Option BarWait} (h : b.desc? id = some d) (hw : d.work = .step r w)
    (hs : d.stage ≠ .complete) : Over id (stepFinish id b) := by
  have hEnd (c : Blk) (f : Desc → Desc) (hf : ∀ x, (f x).id = x.id ∧ (f x).stage = x.stage)
      (hc : ∃ e, c.desc? id = some e ∧ e.stage ≠ .complete) : Over id (complete id (c.modDesc id f)) := by
    obtain ⟨e, hc, he⟩ := hc
    exact over_complete (desc?_modDesc_same (fun x hx => (hf x).1.trans hx) hc) fun hx => he ((hf e).2.symm.trans hx)
  have hStatus (c : Blk) (hc : c.desc? id = some d) : ∃ e, (if r.overIn then addStatus id .overrange c else c).desc? id = some e ∧
      e.stage ≠ .complete := by
    split
    · obtain ⟨e, he, hStage, -⟩ := addStatus_step hc .overrange
      exact ⟨e, he, hStage ▸ hs⟩
    · exact ⟨d, hc, hs⟩
  simp only [stepFinish, h, step?_of_work hw]
  refine hEnd _ _ (fun x => ⟨rfl, rfl⟩) ?_
  split
  · rw [desc?_of_front (forgetSort_front d _)]
    exact hStatus { b with gs := _ } h
  · exact hStatus b h

end Sys2Proof.Machine
end

section
/-! SUPPORT. STEP and PRECOND, branch by branch, and the obligation on them (R171 to R195). -/
namespace Sys2Proof.Machine

/-! ### STEP -/

section
variable {b : Blk} {q : Nat} {d : Desc} (h : handedOf b q [0x22] = some d)
include h

theorem effStep_of_checked (hs : d.statuses = []) :
    effStep q b = startWork d.id (.step { cap := d.tab (d.f 8 2 % 4096) } (if d.isLocal then none else
      some { barrier := d.f 10 1 % 16, gen := d.f 12 4, reduce := 1, count := 4, sentAt := none, own := none })) b := by
  simp only [effStep, h, hs, List.isEmpty_nil, if_true]

theorem effStep_of_failed (hs : d.statuses ≠ []) :
    effStep q b = if stepInstanceOk d.bytes && !d.isLocal then
        startWork d.id (.step { cap := { table := d.f 8 2 % 4096, bytes := [], slot := 0 }, begun := true, abort := true, phase := .one }
          (some { barrier := d.f 10 1 % 16, gen := d.f 12 4, reduce := 1, count := 4, sentAt := none, own := none })) b
      else complete d.id b := by
  have hEmpty : d.statuses.isEmpty = false := by simpa using hs
  simp only [effStep, h, hEmpty, Bool.false_eq_true, if_false]

end

/-! ### Phase one -/

/-- The array passes of a STEP's Gram matrix (R181). -/
def gramPasses (r : StepRun) : Nat := if (parseCoef r.coef).precond then ceilDiv r.live.length 128 * ceilDiv r.cap.dim 64 else 0

/-- Phase one's end: the statistics, once every row has been checked (R179, R181). -/
def closePhaseOne (id ctx q : Nat) (b : Blk) : Blk :=
  match (b.desc? id).bind Desc.step? with
  | some r =>
    if r.phase == .one && r.todo.isEmpty && !r.begun then
      ownPasses ctx q 0 (gramPasses r) r.cap.dim (modStep id StepRun.statistics b)
    else b
  | none => b

section
variable {id : Nat} {b : Blk} {d : Desc} {r : StepRun} {w : Option BarWait} (h : b.desc? id = some d) (hw : d.work = .step r w)
include h hw

theorem effPhaseOne_of_idle (hi : r.begun = true ∨ b.isParked (.desc id) = true ∨ (r.phase = .wait ∧ stepBlocked b d r.cap.table = true)) :
    effPhaseOne id b = b := by
  have hIdle : (r.begun || b.isParked (.desc id) || (r.phase == .wait && stepBlocked b d r.cap.table)) = true := by
    rcases hi with hi | hi | ⟨hi, hj⟩ <;> simp [*]
  simp only [effPhaseOne, h, step?_of_work hw, hIdle, if_true]

theorem closePhaseOne_of_checked (hp : r.phase = .one) (ht : r.todo = []) (hb : r.begun = false) (ctx q : Nat) :
    closePhaseOne id ctx q b = ownPasses ctx q 0 (gramPasses r) r.cap.dim (modStep id StepRun.statistics b) := by
  simp [closePhaseOne, bind_step? h hw, hp, ht, hb]

/-- Phase one of a STEP whose messages or run buffers are still on their way (R176). -/
theorem effPhaseOne_of_undrained (hb : r.begun = false) (hk : b.isParked (.desc id) = false) (hp : r.phase = .ready1) (hg : r.got = 3)
    (ha : accumDrained (closeAccum (b.q d.q).ctx r.cap.table b) (b.q d.q).ctx r.cap.table = false) :
    effPhaseOne id b = closeAccum (b.q d.q).ctx r.cap.table b := by
  have hFields : stepFields id b = b := by simp only [stepFields, h, step?_of_work hw, hg]
  have hDesc : (closeAccum (b.q d.q).ctx r.cap.table b).desc? id = b.desc? id := desc?_of_front (closeAccum_front ..) id
  have hSame : (if (StepPhase.ready1 == .one) = true then b else b) = b := ite_self b
  simp [effPhaseOne, h, step?_of_work hw, hb, hk, hp, hFields, List.range_succ, hDesc, ha]

/-- Phase one of a STEP that checks its rows (R178). -/
theorem effPhaseOne_of_one (hb : r.begun = false) (hk : b.isParked (.desc id) = false) (hp : r.phase = .one) :
    effPhaseOne id b = closePhaseOne id (b.q d.q).ctx d.q (stepFreeze id (r.rows.length + r.todo.length + r.todo.length + 1) b) := by
  simp [effPhaseOne, h, step?_of_work hw, hb, hk, hp, List.range_succ, closePhaseOne, gramPasses] <;> rfl

theorem stepFreeze_of_done (ht : r.todo = []) (fuel : Nat) : stepFreeze id fuel b = b := by
  cases fuel with
  | zero => rfl
  | succ n => simp only [stepFreeze, h, step?_of_work hw, ht]

variable {x : StepRow} {rest : List StepRow} (ht : r.todo = x :: rest) {b1 b2 : Blk} {t : Captured}
  (hf : freezeFields (ownerSlice b x.lrow) (.desc id) (clsOf b d.q) r.cap b = (b1, .ok t))
include ht hf

theorem stepFreeze_of_free (fuel : Nat) (hc : freezeCheck (ownerSlice b x.lrow) (.desc id) (clsOf b d.q) t x.lrow b1 = (b2, .free)) :
    stepFreeze id (fuel + 1) b = stepFreeze id fuel (modStep id (fun r => { r with todo := rest, rows := r.rows ++ [x] }) b2) := by
  simp only [stepFreeze, h, step?_of_work hw, ht, hf, hc]

theorem stepFreeze_of_frozen (fuel : Nat) (hc : freezeCheck (ownerSlice b x.lrow) (.desc id) (clsOf b d.q) t x.lrow b1 = (b2, .frozen)) :
    stepFreeze id (fuel + 1) b = stepFreeze id fuel (modStep id (fun r => { r with
        todo := rest, rows := r.rows ++ [{ x with frozen := true }], frozen := r.frozen + 1, occFrozen := r.occFrozen + x.occ })
      (bump Ctr.upRowsFrozen (clsOf b d.q).ctx 1 (bump Ctr.upOccFrozen (clsOf b d.q).ctx x.occ b2))) := by
  simp only [stepFreeze, h, step?_of_work hw, ht, hf, hc]

end

/-! ### What the freeze check keeps -/

theorem bufTable_rest (buf n : Nat) (u : UnitRef) (c : Cls) (table : Nat) (b : Blk) : (bufTable buf n u c table b).1.rest = b.rest := by
  unfold bufTable readTable
  split
  · rfl
  · split
    · next b1 l h =>
      have hRest : b1.rest = b.rest := rest_of_eq h (rdMeta_rest ..)
      exact hRest
    · exact rdMeta_rest ..

theorem freezeFields_rest (n : Nat) (u : UnitRef) (c : Cls) (t : Captured) (b : Blk) : (freezeFields n u c t b).1.rest = b.rest := by
  unfold freezeFields
  split <;> next h => exact rest_of_eq h (bufTable_rest ..)

theorem freezeCheck_rest (n : Nat) (u : UnitRef) (c : Cls) (t : Captured) (l : Nat) (b : Blk) : (freezeCheck n u c t l b).1.rest = b.rest := by
  simp only [freezeCheck]
  split
  · rfl
  · split
    · rfl
    · have hRead := rd_rest (.slice n) u c (t.freezeMap + 8 * (l / 64)) 8 b
      split <;> next h => rw [h] at hRead; simpa only [apply_ite Prod.fst, apply_ite Blk.rest, raise_rest, ite_self] using hRead

/-- The front end after a row's freeze check is what it was before. -/
theorem front_of_frozen {n : Nat} {u : UnitRef} {c : Cls} {t t' : Captured} {l : Nat} {f : Frz} {b b1 b2 : Blk}
    (hf : freezeFields n u c t b = (b1, .ok t')) (hc : freezeCheck n u c t' l b1 = (b2, f)) : b2.front = b.front :=
  (front_of_rest (rest_of_eq hc (freezeCheck_rest ..))).trans (front_of_rest (rest_of_eq hf (freezeFields_rest ..)))

section
variable {id : Nat} {b : Blk} {d : Desc} {r : StepRun} {w : Option BarWait} (h : b.desc? id = some d) (hw : d.work = .step r w)
  (hb : r.begun = false) (hk : b.isParked (.desc id) = false) (hp : r.phase = .one)
include h hw hb hk hp

theorem effPhaseOne_of_checked (ht : r.todo = []) : effPhaseOne id b =
    ownPasses (b.q d.q).ctx d.q 0 (gramPasses r) r.cap.dim (modStep id StepRun.statistics b) := by
  rw [effPhaseOne_of_one h hw hb hk hp, stepFreeze_of_done h hw ht, closePhaseOne_of_checked h hw hp ht hb]

variable {x : StepRow} (ht : r.todo = [x]) {b1 b2 : Blk} {t : Captured}
  (hf : freezeFields (ownerSlice b x.lrow) (.desc id) (clsOf b d.q) r.cap b = (b1, .ok t))
include ht hf

/-- The last row's freeze check ends phase one (R178, R179). -/
theorem effPhaseOne_of_free (hc : freezeCheck (ownerSlice b x.lrow) (.desc id) (clsOf b d.q) t x.lrow b1 = (b2, .free)) :
    let note (r : StepRun) : StepRun := { r with todo := [], rows := r.rows ++ [x] }
    effPhaseOne id b = ownPasses (b.q d.q).ctx d.q 0 (gramPasses (note r)) r.cap.dim
      (modStep id StepRun.statistics (modStep id note b2)) := by
  intro note
  have hDesc := modStep_step ((desc?_of_front (front_of_frozen hf hc) id).trans h) hw note
  rw [effPhaseOne_of_one h hw hb hk hp, ht, stepFreeze_of_free h hw ht hf _ hc, stepFreeze_of_done hDesc rfl rfl,
    closePhaseOne_of_checked hDesc rfl hp rfl hb]

theorem effPhaseOne_of_frozen (hc : freezeCheck (ownerSlice b x.lrow) (.desc id) (clsOf b d.q) t x.lrow b1 = (b2, .frozen)) :
    let note (r : StepRun) : StepRun :=
      { r with todo := [], rows := r.rows ++ [{ x with frozen := true }], frozen := r.frozen + 1, occFrozen := r.occFrozen + x.occ }
    effPhaseOne id b = ownPasses (b.q d.q).ctx d.q 0 (gramPasses (note r)) r.cap.dim (modStep id StepRun.statistics (modStep id note
      (bump Ctr.upRowsFrozen (clsOf b d.q).ctx 1 (bump Ctr.upOccFrozen (clsOf b d.q).ctx x.occ b2)))) := by
  intro note
  have hDesc := modStep_step (b := bump Ctr.upRowsFrozen (clsOf b d.q).ctx 1 (bump Ctr.upOccFrozen (clsOf b d.q).ctx x.occ b2))
    ((desc?_of_front (front_of_frozen hf hc) id).trans h) hw note
  rw [effPhaseOne_of_one h hw hb hk hp, ht, stepFreeze_of_frozen h hw ht hf _ hc, stepFreeze_of_done hDesc rfl rfl,
    closePhaseOne_of_checked hDesc rfl hp rfl hb]

end

/-! ### The barrier and phase two -/

section
variable {id : Nat} {b : Blk} {d : Desc} {r : StepRun} {w : Option BarWait} (h : b.desc? id = some d) (hw : d.work = .step r w)
include h hw

theorem effPhaseOneEnd_of_begun (hb : r.begun = true) (hp : r.phase = .one) :
    effPhaseOneEnd id b = match (generalizing := false) w with
      | none => modStep id (fun r => { r with phase := .barrier }) b
      | some v => if barrierHeld b d v then b else
          modStep id (fun r => { r with phase := .barrier }) (arriveNow id r.operands none b) := by
  simp [effPhaseOneEnd, h, hw, hb, hp] <;> rfl

omit h hw in
/-- PHASE_TWO of a STEP that is not parked: one stage after another, six at most. -/
theorem effPhaseTwo_of_free (hk : b.isParked (.desc id) = false) :
    effPhaseTwo id b = [1, 2, 3, 4, 5].foldl (fun b _ => if b.isParked (.desc id) then b else stepAdvance id b) (stepAdvance id b) := by
  have hStages : List.range 6 = [0, 1, 2, 3, 4, 5] := rfl
  simp only [effPhaseTwo, hk, Bool.false_eq_true, if_false, hStages, List.foldl_cons]

theorem stepAdvance_of_barrier (hp : r.phase = .barrier) :
    stepAdvance id b = match stepResult r w with
      | some x => stepDecide id d r x.1 x.2 b
      | none => b := by
  simp only [stepAdvance, h, hw, hp] <;> rfl

theorem stepAdvance_of_two (hp : r.phase = .two) :
    stepAdvance id b = match r.prog with
      | 0 => stepColumn id d r b
      | 1 => stepPrecond id d r b
      | _ => if r.todo.isEmpty then stepEmpty id d r b else stepRows id r.todo.length b := by
  simp only [stepAdvance, h, hw, hp] <;> rfl

end

/-- Further stages of a STEP that has ended leave it as it is. -/
theorem foldl_stepAdvance_of_over {id : Nat} {b : Blk} (ho : Over id b) : ∀ l : List Nat,
    l.foldl (fun b _ => if b.isParked (.desc id) then b else stepAdvance id b) b = b
  | [] => rfl
  | _ :: l => by rw [List.foldl_cons, stepAdvance_of_over ho, ite_self, foldl_stepAdvance_of_over ho l]

section
variable {id : Nat} {b : Blk} {d : Desc} {r : StepRun} {w : Option BarWait} (h : b.desc? id = some d) (hw : d.work = .step r w)
  (hk : b.isParked (.desc id) = false) (hp : r.phase = .barrier)
include h hw hk hp

theorem effPhaseTwo_of_waiting (hn : stepResult r w = none) : effPhaseTwo id b = b := by
  have hStay : stepAdvance id b = b := by rw [stepAdvance_of_barrier h hw hp, hn]
  simp [effPhaseTwo_of_free hk, hStay]

/-- PHASE_TWO of a STEP whose result aborts it (R182). -/
theorem effPhaseTwo_of_abort (hs : d.stage ≠ .complete) {code : Nat} {vals : List W64} (hr : stepResult r w = some (code, vals)) {c : Blk} {e : Desc}
    {st : Status} (hc : c.desc? id = some e) (hStage : e.stage = d.stage) {r' : StepRun} (hWork : e.work = .step r' w)
    (hd : stepDecide id d r code vals b = stepAbort id (addStatus id st c)) : effPhaseTwo id b = stepAbort id (addStatus id st c) := by
  obtain ⟨x, hx, hxs, hxw⟩ := addStatus_step hc st
  have hOver : Over id (stepAbort id (addStatus id st c)) := over_stepFinish hx (hxw.trans hWork) (hxs ▸ hStage ▸ hs)
  rw [effPhaseTwo_of_free hk, stepAdvance_of_barrier h hw hp, hr]
  simp only [hd]
  exact foldl_stepAdvance_of_over hOver _

end

/-! ### The statistics and the rows -/

theorem foldl_add_eq {α : Type} (f : α → Nat) (l : List α) (n : Nat) : l.foldl (fun a x => a + f x) n = n + (l.map f).sum := by
  induction l generalizing n with
  | nil => rfl
  | cons x l ih => rw [List.foldl_cons, ih, List.map_cons, List.sum_cons, Nat.add_assoc]

theorem statistics_eq (r : StepRun) : r.statistics.begun = true ∧ r.statistics.n = r.live.length ∧
    r.statistics.occ = (r.live.map StepRow.occ).sum ∧ r.statistics.s0 = sumSq64 r.cap.accExp ((r.live.map r.rowSq).sum) := by
  refine ⟨rfl, rfl, ?_, ?_⟩
  · exact (foldl_add_eq StepRow.occ r.live 0).trans (Nat.zero_add _)
  · exact congrArg (sumSq64 r.cap.accExp) ((foldl_add_eq r.rowSq r.live 0).trans (Nat.zero_add _))

theorem skipRow_of_written {id : Nat} {rq : Rq} {c : Cls} {t : Captured} {x : StepRow} {b b1 : Blk} (note : Blk → Blk)
    (h : wrAll rq (.desc id) c (zeroBucket t x) b = (b1, .ok)) : skipRow id rq c t x note b = (nextRow id (note b1), true) := by
  simp only [skipRow, h]

section
variable {id : Nat} {d : Desc} {r : StepRun} {x : StepRow} {b : Blk}

theorem stepRow_of_frozen (hx : x.frozen = true) : stepRow id d r x b =
    skipRow id (.slice (ownerSlice b x.lrow)) (clsOf b d.q) r.cap x (fun b => b) b := by
  simp only [stepRow, hx, if_true]

theorem stepRow_of_poisoned (hx : x.frozen = false) (hp : x.poisoned = true ∨ r.pcBad = true) : stepRow id d r x b =
    skipRow id (.slice (ownerSlice b x.lrow)) (clsOf b d.q) r.cap x (poisonRow id (clsOf b d.q).ctx) b := by
  have hPoisoned : (x.poisoned || r.pcBad) = true := by simpa using hp
  simp only [stepRow, hx, Bool.false_eq_true, if_false, hPoisoned, if_true]

/-- The new values of a row that has been read (R185). -/
def StepRun.newRow (r : StepRun) (x : StepRow) (rowD stD : List PByte) : List W32 × RowState :=
  rowUpdate r.fixed r.cap.dim (r.grads x) (meanSq r.cap.accExp (r.rowSq x) r.cap.dim) (rowElems r.cap rowD)
    (readState r.cap r.fixed.c (plain stD))

variable {b1 b2 b3 : Blk} {rowD stD : List PByte} {m : Marker}

/-- A row that is read well is written with its state and its empty bucket (R186). -/
theorem stepRow_of_read (hx : x.frozen = false) (hp : x.poisoned = false) (hc : r.pcBad = false)
    (hr : readItem id (.slice (ownerSlice b x.lrow)) (clsOf b d.q) (rowAddr r.cap r.cap.slot x.lrow) r.cap.rowBytes b = (b1, .ok rowD))
    (hs : readItem id (.slice (ownerSlice b x.lrow)) (clsOf b d.q) (r.cap.stateBase + x.lrow * r.cap.stateStride) r.cap.stateBytes b1 = (b2, .ok stD))
    (hf : allFinite ((r.newRow x rowD stD).1 ++ (r.newRow x rowD stD).2.m ++ (r.newRow x rowD stD).2.v
      ++ (if r.cap.rowScalar then [(r.newRow x rowD stD).2.vr] else [])) = true)
    (hm : findMarker (.slice (ownerSlice b x.lrow)) (.desc id) (clsOf b d.q) r.cap (globalRow b2 r.cap r.pos x.lrow) b2 = (b3, m))
    (hRoom : m = .unmarked ∨ (m = .marked ∧ treeRoom b3 b3.ident.chip b3.ident.die (id % 2 ^ 32) = true)) :
    stepRow id d r x b =
      let o := rowOut r.cap (globalRow b2 r.cap r.pos x.lrow) (d.f 16 8) b3.stamp (r.newRow x rowD stD).1
      putRow id d (.slice (ownerSlice b x.lrow)) (clsOf b d.q) r x o.1 (stateOut r.cap (r.newRow x rowD stD).2) o.2 (m == .marked)
        { b3 with stamp := b3.stamp + 1 } := by
  simp only [StepRun.newRow] at hf ⊢
  simp only [stepRow, hx, hp, hc, Bool.or_self, Bool.false_eq_true, if_false, hr, hs, hf, Bool.not_true]
  rcases hRoom with rfl | ⟨rfl, hRoom⟩
  · simp only [hm, show (Marker.unmarked == Marker.marked) = false from rfl, Bool.false_and, Bool.false_eq_true, if_false]
  · simp only [hm, hRoom, Bool.not_true, Bool.and_false, Bool.false_eq_true, if_false]

end

/-- A row that has been written is counted, and sent where it is marked (R186, R190, R197). -/
theorem putRow_of_written {id : Nat} {d : Desc} {rq : Rq} {c : Cls} {r : StepRun} {x : StepRow} {rowData stData : List Byte} {sat marked : Bool}
    {b b1 : Blk}
    (h : wrAll rq (.desc id) c ((rowAddr r.cap r.cap.slot x.lrow, clean (strideBytes r.cap rowData))
      :: (if stData.isEmpty then [] else [(r.cap.stateBase + x.lrow * r.cap.stateStride, clean stData)]) ++ zeroBucket r.cap x) b = (b1, .ok)) :
    putRow id d rq c r x rowData stData sat marked b =
      let counted := modStep id (fun r => { r with updated := r.updated + 1, occUpdated := r.occUpdated + x.occ })
        (charge 7 1 (some c.ctx) (some d.q) (bump Ctr.upRowsUpdated c.ctx 1 (solvePasses d r b1)))
      let noted := if sat then overrange id (fun r => { r with reqSat := true }) (bump Ctr.upReqSaturated c.ctx 1 counted) else counted
      (nextRow id (if marked then refreshRow id c r.cap (globalRow b r.cap r.pos x.lrow) (rowData.take r.cap.rowBytes)
        (modStep id (fun r => { r with refreshed := r.refreshed + 1 }) noted) else noted), true) := by
  simp only [putRow, h]

/-! ### PRECOND -/

section
variable {b : Blk} {q : Nat} {d : Desc} (h : handedOf b q [0x23] = some d)
include h

theorem effPrecond_of_busy (hb : d.stepBusy = true) : effPrecond q b = completeWith d.id .tableBusy 0 0 b := by
  simp only [effPrecond, h, hb, if_true]

variable (hb : d.stepBusy = false)
include hb

theorem effPrecond_of_yield (hy : arrayYields b 0 d.q = true) : effPrecond q b = b := by
  simp only [effPrecond, h, hb, Bool.false_eq_true, if_false, hy, if_true]

variable (hy : arrayYields b 0 d.q = false) {b1 : Blk} {hd : List PByte}
  (hr : rd (.pitch 0) (.desc d.id) (clsOf b q) (d.tab (d.f 8 2 % 4096)).precond 64 b = (b1, .ok hd))
include hy hr

theorem effPrecond_of_poison (hp : anyPoison hd = true) : effPrecond q b = completeWith d.id .cancelled 0 0
    (raise (d.err b1 0x12 2 (poisonSource (clsOf b q) (d.tab (d.f 8 2 % 4096)).precond b1) (d.tab (d.f 8 2 % 4096)).precond) b1) := by
  simp only [effPrecond, h, hb, Bool.false_eq_true, if_false, hy, hr, hp, if_true]

variable (hp : anyPoison hd = false)
include hp

theorem effPrecond_of_dim (hDim : field (plain hd) 0 2 ≠ (d.tab (d.f 8 2 % 4096)).dim) :
    effPrecond q b = completeWith d.id .malformed 0 0 b1 := by
  simp only [effPrecond, h, hb, Bool.false_eq_true, if_false, hy, hr, hp, if_pos hDim]

/-- A factorisation whose table and C have been read (R193, R194). -/
theorem effPrecond_of_read (hDim : field (plain hd) 0 2 = (d.tab (d.f 8 2 % 4096)).dim) {b2 b3 : Blk} {l m : List PByte}
    (hl : rdMeta (.pitch 0) (.desc d.id) (clsOf b q) (d.tab (d.f 8 2 % 4096)).coef 128 b1 = (b2, .ok l))
    (hm : rd (.pitch 0) (.desc d.id) (clsOf b q) ((d.tab (d.f 8 2 % 4096)).precond + 64)
      (4 * ((d.tab (d.f 8 2 % 4096)).dim * (d.tab (d.f 8 2 % 4096)).dim)) b2 = (b3, .ok m)) :
    effPrecond q b =
      let t := d.tab (d.f 8 2 % 4096)
      let noted := if anyPoison m then raise (d.err b3 0x12 2 (poisonSource (clsOf b q) t.precond b3) (t.precond + 64)) b3 else b3
      let cm := (pieces 4 m).map (fun x => if anyPoison x then poisonNan else BitVec.ofNat 32 (le (plain x)))
      let lambda := (parseCoef (plain l)).lambda
      precondWrite d t (plain hd) (factorise t.dim cm (pivotFloor t.dim cm) 5 1 lambda)
        (ownPasses (clsOf b q).ctx d.q 0 (factorReach t.dim cm (pivotFloor t.dim cm) 5 lambda) t.dim noted) := by
  simp only [effPrecond, h, hb, Bool.false_eq_true, if_false, hy, hr, hp, hDim, ne_eq, not_true_eq_false, hl, hm]

end

section
variable {d : Desc} {t : Captured} {hdr : List Byte} {b b1 : Blk}

/-- A factor that was found is written (R194, R195). -/
theorem precondWrite_of_factor {l : List W32} {lam : W32} {k : Nat}
    (h : wrAll (.pitch 0) (.desc d.id) (clsOf b d.q) [(t.precond + 2, clean [1]), (t.precond + 4, clean (toLe 4 lam.toNat)),
      (t.precond + 12, clean [BitVec.ofNat 8 k]), (t.precond + 64 + 4 * (t.dim * t.dim), clean (f32Bytes l))] b = (b1, .ok)) :
    precondWrite d t hdr (some (l, lam, k)) b = completeWith d.id .ok (k + 8) 0 b1 := by
  simp only [precondWrite, h, Option.isSome_some, if_true, Bool.true_or, boolNat]

/-- After its last try the preconditioner is SINGULAR (R194, R195). -/
theorem precondWrite_of_none
    (h : wrAll (.pitch 0) (.desc d.id) (clsOf b d.q) [(t.precond + 8, clean (toLe 4 (field hdr 8 4 + 1))), (t.precond + 12, clean [5])] b
      = (b1, .ok)) :
    precondWrite d t hdr none b = completeWith d.id .singular (5 + 8 * boolNat ((byteAt hdr 2).testBit 0)) 0
      (bump Ctr.upSingular (clsOf b d.q).ctx 1 b1) := by
  simp only [precondWrite, h, Option.isSome_none, Bool.false_or, Bool.false_eq_true, if_false]

end

end Sys2Proof.Machine
end

section
/-! SUPPORT. STEP's rows, and the obligation on STEP and PRECOND (R171 to R195). -/
namespace Sys2Proof.Machine

/-- A row that phase two has written: what it counts, and what it sends (R186, R190, R197). -/
theorem stepRow_of_written {id : Nat} {b : Blk} {d : Desc} {r : StepRun} {x : StepRow} :
    let t := r.cap
    let c := clsOf b d.q
    let rq := Rq.slice (ownerSlice b x.lrow)
    ∀ b1 b2 b3 b4 rowD stD m, x.frozen = false → x.poisoned = false → r.pcBad = false →
      readItem id rq c (rowAddr t t.slot x.lrow) t.rowBytes b = (b1, .ok rowD) →
      readItem id rq c (t.stateBase + x.lrow * t.stateStride) t.stateBytes b1 = (b2, .ok stD) →
      let u := r.newRow x rowD stD
      allFinite (u.1 ++ u.2.m ++ u.2.v ++ (if t.rowScalar then [u.2.vr] else [])) = true →
      findMarker rq (.desc id) c t (globalRow b2 t r.pos x.lrow) b2 = (b3, m) →
      m = .unmarked ∨ (m = .marked ∧ treeRoom b3 b3.ident.chip b3.ident.die (id % 2 ^ 32) = true) →
      let o := rowOut t (globalRow b2 t r.pos x.lrow) (d.f 16 8) b3.stamp u.1
      wrAll rq (.desc id) c ((rowAddr t t.slot x.lrow, clean (strideBytes t o.1))
        :: (if (stateOut t u.2).isEmpty then [] else [(t.stateBase + x.lrow * t.stateStride, clean (stateOut t u.2))]) ++ zeroBucket t x)
        { b3 with stamp := b3.stamp + 1 } = (b4, .ok) →
      let counted := modStep id (fun r => { r with updated := r.updated + 1, occUpdated := r.occUpdated + x.occ })
        (charge 7 1 (some c.ctx) (some d.q) (bump Ctr.upRowsUpdated c.ctx 1 (solvePasses d r b4)))
      let noted := if o.2 then addStatus id .overrange (modStep id (fun r => { r with reqSat := true })
        (bump Ctr.upReqSaturated c.ctx 1 counted)) else counted
      let sent := if m = .marked then refreshRow id c t (globalRow b3 t r.pos x.lrow) (o.1.take t.rowBytes)
        (modStep id (fun r => { r with refreshed := r.refreshed + 1 }) noted) else noted
      stepRow id d r x b = (nextRow id sent, true) := by
  intro t c rq b1 b2 b3 b4 rowD stD m hx hp hc hr hs u hf hm hRoom o hw counted noted sent
  rw [stepRow_of_read hx hp hc hr hs hf hm hRoom]
  refine (putRow_of_written hw).trans ?_
  rcases hRoom with rfl | ⟨rfl, -⟩
  · rfl
  · rfl

section
variable {s : State} {id : Nat} {d : Desc} {r : StepRun} {w : Option BarWait} (hl : Live s) (h : s.b.desc? id = some d) (hw : d.work = .step r w)
include hl h hw

/-- PHASE_TWO once the barrier has given its result (R182, R186). -/
theorem phaseTwo_of_result {code : Nat} {vals : List W64} (hs : d.stage ≠ .complete) (hk : s.b.isParked (.desc id) = false)
    (hp : r.phase = .barrier) (hr : stepResult r w = some (code, vals)) :
    (code ≠ 0 → exec (.phaseTwo id) s = .next (s.after (stepAbort id (addStatus id (resultStatus code) s.b)))) ∧
    (code = 0 → (rd64 0).lt (rd64 (vals.getD 3 0)) = true →
      exec (.phaseTwo id) s = .next (s.after (stepAbort id (addStatus id .tableBusy
        (modStep id (fun r => { r with global := some (vals.getD 0 0, vals.getD 3 0) }) s.b))))) ∧
    (code = 0 → (rd64 0).lt (rd64 (vals.getD 3 0)) = false →
      let stage (b : Blk) : Blk := if b.isParked (.desc id) then b else stepAdvance id b
      let sc := scaleOf (parseCoef r.coef) (vals.getD 0 0)
      let b1 := modStep id (fun r => { r with phase := .two, ran := true, sigma := sc.1, scale := sc.2, todo := r.rows })
        (invalidateTable (s.b.q d.q).ctx r.cap.table (bump Ctr.upSteps (s.b.q d.q).ctx 1
          (modStep id (fun r => { r with global := some (vals.getD 0 0, vals.getD 3 0) }) s.b)))
      exec (.phaseTwo id) s = .next (s.after (stage (stage (stage (stage (stage b1))))))) := by
  refine ⟨fun hn => ?_, fun h0 hv => ?_, fun h0 hv => ?_⟩
  · exact fireReady_eq hl rfl (effPhaseTwo_of_abort h hw hk hp hs hr h rfl hw (if_pos hn))
  · have hDecide : stepDecide id d r code vals s.b = stepAbort id (addStatus id .tableBusy
        (modStep id (fun r => { r with global := some (vals.getD 0 0, vals.getD 3 0) }) s.b)) := by
      simp only [stepDecide, h0, ne_eq, not_true_eq_false, if_false, hv, if_true]
    exact fireReady_eq hl rfl (effPhaseTwo_of_abort h hw hk hp hs hr (modStep_step h hw _) rfl rfl hDecide)
  · have hDecide : stepAdvance id s.b = modStep id (fun x => { x with
          phase := .two, ran := true, sigma := (scaleOf (parseCoef r.coef) (vals.getD 0 0)).1,
          scale := (scaleOf (parseCoef r.coef) (vals.getD 0 0)).2, todo := x.rows })
        (invalidateTable (s.b.q d.q).ctx r.cap.table (bump Ctr.upSteps (s.b.q d.q).ctx 1
          (modStep id (fun r => { r with global := some (vals.getD 0 0, vals.getD 3 0) }) s.b))) := by
      rw [stepAdvance_of_barrier h hw hp, hr]
      simp only [stepDecide, h0, ne_eq, not_true_eq_false, if_false, hv, Bool.false_eq_true]
      rfl
    intro stage sc b1
    refine fireReady_eq hl rfl ((effPhaseTwo_of_free hk).trans ?_)
    rw [hDecide]
    rfl

end

/-- Settles O36: STEP stage by stage, PRECOND by what it reads, and the statistics as sums over the live rows. -/
theorem stepRunsInTwoPhases : Obligations.StepRunsInTwoPhases := by
  refine ⟨fun s hl => ⟨fun q d hq h => ?_, fun id d r w h hw => ?_, fun q d hq h => ?_⟩, statistics_eq,
    fun id fuel b b1 b2 d r w x rest t h hw ht => ?_, fun id b d r w h hw hp => ?_, fun id b d r x => ?_⟩
  · have hLt := decide_eq_true hq
    intro w
    refine ⟨fun hs => ?_, fun hs hLoc hInst => ?_, fun hs hOr => ?_⟩
    · exact fireReady_eq hl hLt (effStep_of_checked h hs)
    · exact fireReady_eq hl hLt ((effStep_of_failed h hs).trans (if_pos (by rw [hInst, hLoc]; rfl)))
    · have hNot : ¬((stepInstanceOk d.bytes && !d.isLocal) = true) := by rcases hOr with hOr | hOr <;> simp [hOr]
      exact fireReady_eq hl hLt ((effStep_of_failed h hs).trans (if_neg hNot))
  · intro ctx passes sum
    refine ⟨fun hi => ?_, fun hb hk => ⟨fun hp hg ha => ?_, fun hp ht => ?_, fun x b1 b2 t hp ht hf => ⟨fun hc => ?_, fun hc => ?_⟩⟩, fun hb hp => ?_,
      fun hk hp hn => ?_, fun code vals hs hk hp hr => phaseTwo_of_result hl h hw hs hk hp hr⟩
    · exact fireReady_eq hl rfl (effPhaseOne_of_idle h hw hi)
    · exact fireReady_eq hl rfl (effPhaseOne_of_undrained h hw hb hk hp hg ha)
    · exact fireReady_eq hl rfl (effPhaseOne_of_checked h hw hb hk hp ht)
    · exact fireReady_eq hl rfl (effPhaseOne_of_free h hw hb hk hp ht hf hc)
    · exact fireReady_eq hl rfl (effPhaseOne_of_frozen h hw hb hk hp ht hf hc)
    · have hEnd := effPhaseOneEnd_of_begun h hw hb hp
      refine ⟨fun hn => ?_, fun v hv => ⟨fun hh => ?_, fun hh => ?_⟩⟩
      · subst hn
        exact fireReady_eq hl rfl hEnd
      · subst hv
        exact fireReady_eq hl rfl (hEnd.trans (if_pos hh))
      · subst hv
        exact fireReady_eq hl rfl (hEnd.trans (if_neg (ne_true_of_eq_false hh)))
    · exact fireReady_eq hl rfl (effPhaseTwo_of_waiting h hw hk hp hn)
  · have hLt := decide_eq_true hq
    intro c t u
    refine ⟨fun hb => fireReady_eq hl hLt (effPrecond_of_busy h hb), fun hb hy => fireReady_eq hl hLt (effPrecond_of_yield h hb hy),
      fun b1 hd hb hy hr => ⟨fun hp => ?_, fun hp hDim => ?_, fun b2 l b3 m b4 hp hDim hl2 hm => ?_⟩⟩
    · exact fireReady_eq hl hLt (effPrecond_of_poison h hb hy hr hp)
    · exact fireReady_eq hl hLt (effPrecond_of_dim h hb hy hr hp hDim)
    · intro noted cm lambda ran got
      have hRead := effPrecond_of_read h hb hy hr hp hDim hl2 hm
      refine ⟨fun f lam k hg hw => ?_, fun hg hw => ?_⟩
      · have hGot : precondWrite d t (plain hd) got ran = completeWith d.id .ok (k + 8) 0 b4 := by
          rw [hg]
          exact precondWrite_of_factor hw
        exact fireReady_eq hl hLt (hRead.trans hGot)
      · have hGot : precondWrite d t (plain hd) got ran = completeWith d.id .singular (5 + 8 * boolNat ((byteAt (plain hd) 2).testBit 0)) 0
            (bump Ctr.upSingular (clsOf ran d.q).ctx 1 b4) := by
          rw [hg]
          exact precondWrite_of_none hw
        exact fireReady_eq hl hLt (hRead.trans hGot)
  · intro n hf
    exact ⟨stepFreeze_of_free h hw ht hf fuel, stepFreeze_of_frozen h hw ht hf fuel⟩
  · have hTwo := stepAdvance_of_two h hw hp
    refine ⟨fun h0 => ?_, fun h1 => ?_, fun h2 ht => ?_, fun h2 ht => ?_, fun x rest b1 fuel ht hRow => ?_⟩
    · simp only [hTwo, h0]
    · simp only [hTwo, h1]
    · obtain ⟨n, hn⟩ := Nat.exists_eq_add_of_le' h2
      rw [hTwo, hn, ht]
      rfl
    · obtain ⟨n, hn⟩ := Nat.exists_eq_add_of_le' h2
      rw [hTwo, hn]
      exact if_neg (by simpa using ht)
    · simp only [stepRows, h, step?_of_work hw, ht, hRow]
  · intro t c rq
    refine ⟨fun b1 hx hWr => ?_, fun b1 hx hp hWr => ?_, stepRow_of_written⟩
    · exact (stepRow_of_frozen hx).trans (skipRow_of_written _ hWr)
    · exact (stepRow_of_poisoned hx hp).trans (skipRow_of_written _ hWr)

end Sys2Proof.Machine
end

section
/-! SUPPORT. REFRESH, its messages and its tree (R174, R197 to R199, R318, R319). -/
namespace Sys2Proof.Machine

/-! ### The operator -/

/-- A REFRESH of the queue that is under way goes through its items. -/
def refreshGo (q mode : Nat) (b : Blk) : Blk :=
  match refreshGoing b q mode with
  | some e => refreshRun e.id (((e.refresh?).map (refreshItems e)).getD 0 + 1) b
  | none => b

section
variable {b : Blk} {q mode : Nat} {d : Desc} (h : handedOf b q [0x24] = some d) (hm : d.f 10 1 = mode)
include h hm

theorem refreshOp_of_busy (hb : d.stepBusy = true) : refreshOp q mode b = refreshGo q mode (completeWith d.id .tableBusy 0 0 b) := by
  simp only [refreshOp, h, hm, ne_eq, not_true_eq_false, if_false, hb, if_true] <;> rfl

theorem refreshOp_of_noGroup (hb : d.stepBusy = false) (hg : (d.tab (d.f 8 2 % 4096)).group = 0xFFFF) :
    refreshOp q mode b = refreshGo q mode (completeWith d.id .ok 0 0 (invalidateTable (b.q q).ctx (d.tab (d.f 8 2 % 4096)).table b)) := by
  simp only [refreshOp, h, hm, ne_eq, not_true_eq_false, if_false, hb, Bool.false_eq_true, if_pos hg] <;> rfl

theorem refreshOp_of_group (hb : d.stepBusy = false) (hg : (d.tab (d.f 8 2 % 4096)).group ≠ 0xFFFF) :
    refreshOp q mode b = refreshGo q mode
      (startWork d.id (.refresh { cap := d.tab (d.f 8 2 % 4096) }) (invalidateTable (b.q q).ctx (d.tab (d.f 8 2 % 4096)).table b)) := by
  simp only [refreshOp, h, hm, ne_eq, not_true_eq_false, if_false, hb, Bool.false_eq_true, if_neg hg] <;> rfl

end

section
variable {id : Nat} {b : Blk} {d : Desc} {r : RefreshRun} (h : b.desc? id = some d) (hr : d.refresh? = some r)
include h hr

theorem refreshRun_of_done (f : Nat) (hn : refreshItems d r ≤ r.next) :
    refreshRun id (f + 1) b = refreshClose id (closeTree id (modRefresh id (fun r => { r with done := true }) b)) := by
  simp only [refreshRun, h, hr, if_pos hn]

/-- What the items of a REFRESH come to, from its next one on (R199). -/
theorem refreshRun_of_next (f : Nat) (hn : r.next < refreshItems d r) :
    refreshRun id (f + 1) b =
      let next (b : Blk) : Blk := modRefresh id (fun r => { r with next := r.next + 1 }) b
      match refreshItem d r r.next b with
      | (b, .row row) =>
        match refreshSend d r row b with
        | (b, true) => refreshRun id f b
        | (b, false) => b
      | (b, .skip) => refreshRun id f (next b)
      | (b, .drop) => refreshRun id f (modRefresh id (fun r => { r with skipped := r.skipped + 1 }) (next b))
      | (b, .bad s) => refreshRun id f (addStatus id s (next b))
      | (b, .wait) => b := by
  simp only [refreshRun, h, hr, if_neg (Nat.not_le.mpr hn)] <;> rfl

theorem refreshClose_of_tree (hd : r.done = true) {a : RefreshAgg} (ha : treeOf b id = some a) :
    refreshClose id b = if a.done then
      completeWith id (if a.failed then .unreachable else .ok) (min r.sent 0xFFFFFFFF) (min r.skipped 0xFFFFFFFF) (dropTree a b) else b := by
  simp only [refreshClose, h, Option.bind_some, hr, hd, Bool.not_true, Bool.false_eq_true, if_false, ha]

end

/-- A row that is read well is sent as it stands (R199). -/
theorem refreshSend_of_read {d : Desc} {r : RefreshRun} {row : Nat} {l : List PByte} {b b1 : Blk}
    (ht : treeRoom b b.ident.chip b.ident.die (d.id % 2 ^ 32) = true)
    (h : rd (.slice 0) (.desc d.id) (clsOf b d.q) (rowAddr r.cap r.cap.slot (homeOf r.cap row).lrow) r.cap.rowBytes b = (b1, .ok l))
    (hp : anyPoison l = false) :
    refreshSend d r row b = (modRefresh d.id (fun r => { r with sent := r.sent + 1 }) (modRefresh d.id (fun r => { r with next := r.next + 1 })
      (refreshRow d.id (clsOf b d.q) r.cap row (plain l) b1)), true) := by
  simp only [refreshSend, ht, Bool.not_true, Bool.false_eq_true, if_false, h, hp]

/-! ### The messages -/

/-- A refresh message that is not parked and whose tree has room. -/
def isOpenRefresh (b : Blk) (r : Rx) : Bool :=
  match r.msg with
  | .refresh m => !(b.isParked (refreshRef m)) && treeRoom b m.srcChip m.srcDie m.tag
  | _ => false

theorem effRefresh_of_oldest {b : Blk} {i : Nat} {r : Rx} {m : RefreshB} (ho : oldest b (isOpenRefresh b) = some (i, r))
    (hm : r.msg = .refresh m) :
    effRefresh b = if isMemberHere b r then
        match ownRefresh (r.cls m.ctx) m b with
        | (b, .done) => takeCopy i r m true false b
        | (b, .failed) => takeCopy i r m true true b
        | (b, .wait) => b
      else takeCopy i r m false false b := by
  unfold effRefresh
  split
  · next h => exact absurd (h.symm.trans ho) (by simp)
  · next h =>
    obtain ⟨rfl, rfl⟩ := Prod.mk.inj (Option.some.inj (h.symm.trans ho))
    simp only [hm] <;> rfl

section
variable {c : Cls} {m : RefreshB} {b b1 b2 : Blk} {l : List PByte} {va : Nat}
  (h : readTable (.slice 0) (refreshRef m) c m.table b = (b1, .ok l))
  (hs : ({ table := m.table, bytes := plain l, slot := m.slot } : Captured).shapeOk = true)
include h hs

/-- A replica that is here takes the row (R197). -/
theorem ownRefresh_of_hit {e : Nat} {b3 : Blk}
    (hp : probeReplica (.slice 0) (refreshRef m) c { table := m.table, bytes := plain l, slot := m.slot } m.slot m.row b1 = (b2, .hit e, va))
    (hw : wr (.slice 0) (refreshRef m) c va (clean (strideBytes { table := m.table, bytes := plain l, slot := m.slot } m.data)) b2 = (b3, .ok)) :
    ownRefresh c m b = (b3, .done) := by
  simp only [ownRefresh, h, hs, Bool.not_true, Bool.false_eq_true, if_false, hp, hw]

theorem ownRefresh_of_miss
    (hp : probeReplica (.slice 0) (refreshRef m) c { table := m.table, bytes := plain l, slot := m.slot } m.slot m.row b1 = (b2, .miss, va)) :
    ownRefresh c m b = (bump Ctr.upRefreshMisses c.ctx 1 b2, .done) := by
  simp only [ownRefresh, h, hs, Bool.not_true, Bool.false_eq_true, if_false, hp]

end

/-- An acknowledgement of refreshes. -/
def isRefreshAck (r : Rx) : Bool :=
  match r.msg with
  | .refreshAck .. => true
  | _ => false

theorem effRefreshAck_of_oldest {b : Blk} {i : Nat} {r : Rx} {tag rows : Nat} {bad : Bool} (ho : oldest b isRefreshAck = some (i, r))
    (hm : r.msg = .refreshAck tag rows bad) :
    effRefreshAck b = match ackedTree b tag (branchOf r.via) with
      | some a => finishTrees (bumpTree (ackBranch (branchOf r.via) rows bad) a (takeRx i r b))
      | none => takeRx i r b := by
  unfold effRefreshAck
  split
  · next h => exact absurd (h.symm.trans ho) (by simp)
  · next h =>
    obtain ⟨rfl, rfl⟩ := Prod.mk.inj (Option.some.inj (h.symm.trans ho))
    simp only [hm] <;> rfl

/-! ### Counting -/

theorem treeProgress_of_early {timer : Bool} {a : RefreshAgg} (h : a.op ≠ none ∨ (a.least - a.acked < 64 ∧ (timer = false ∨ a.least - a.acked = 0)))
    (b : Blk) : treeProgress timer a b = putTree a b := by
  unfold treeProgress
  split
  · rfl
  · next ho =>
    have hEarly := h.resolve_left fun hn => ho (Option.isSome_iff_ne_none.mpr hn)
    exact if_neg fun hDue => by
      obtain ⟨hn, ht⟩ := hEarly
      rcases hDue with hDue | ⟨hTimer, hDue⟩
      · omega
      · rcases ht with ht | ht
        · exact Bool.noConfusion (hTimer.symm.trans ht)
        · omega

theorem treeProgress_of_due {timer : Bool} {a : RefreshAgg} (ho : a.op = none)
    (h : 64 ≤ a.least - a.acked ∨ (timer = true ∧ 0 < a.least - a.acked)) (b : Blk) :
    treeProgress timer a b = if a.least = a.rows
      then dropTree { a with acked := a.least } (sendRefreshAck a (a.least - a.acked) b)
      else putTree { a with acked := a.least } (sendRefreshAck a (a.least - a.acked) b) := by
  simp only [treeProgress, ho, Option.isSome_none, Bool.false_eq_true, if_false, if_pos h]

/-- Settles O37: the operator item by item, each message by what it meets, and the counts by their bounds. -/
theorem refreshesAreSentAndAcknowledged : Obligations.RefreshesAreSentAndAcknowledged := by
  refine ⟨fun s hl => ⟨fun q d c mode hq hc h hm => ?_, fun i r m ho hm => ?_, fun i r tag rows bad ho hm => ?_, fireReady_live hl rfl, fun a ha => ?_⟩,
    fun id f b b1 d r h hr => ?_, fun d r row l b b1 ht => ?_, fun c m b b1 b2 b3 l e va => ?_, fun i r m own bad b => rfl,
    fun timer a b => ⟨fun h => treeProgress_of_early h b, fun ho h => treeProgress_of_due ho h b⟩, fun k n bad a b => ⟨rfl, rfl, rfl⟩⟩
  · intro ctx t go
    have hExec (x : Blk) (hx : refreshOp q mode s.b = x) : exec c s = .next (s.after x) := by
      rcases List.mem_pair.mp hc with hc | hc
      · obtain ⟨rfl, rfl⟩ := Prod.mk.inj hc
        exact fireReady_eq hl (decide_eq_true hq) hx
      · obtain ⟨rfl, rfl⟩ := Prod.mk.inj hc
        exact fireReady_eq hl (decide_eq_true hq) hx
    exact ⟨fun hb => hExec _ (refreshOp_of_busy h hm hb), fun hb hg => hExec _ (refreshOp_of_noGroup h hm hb hg),
      fun hb hg => hExec _ (refreshOp_of_group h hm hb hg)⟩
  · have hRefresh := effRefresh_of_oldest ho hm
    refine ⟨fun b1 hHere hOwn => ?_, fun b1 hHere hOwn => ?_, fun b1 hHere hOwn => ?_, fun hHere => ?_⟩
    · exact fireReady_eq hl rfl (hRefresh.trans ((if_pos hHere).trans (by rw [hOwn])))
    · exact fireReady_eq hl rfl (hRefresh.trans ((if_pos hHere).trans (by rw [hOwn])))
    · exact fireReady_eq hl rfl (hRefresh.trans ((if_pos hHere).trans (by rw [hOwn])))
    · exact fireReady_eq hl rfl (hRefresh.trans (if_neg (ne_true_of_eq_false hHere)))
  · have hAck := effRefreshAck_of_oldest ho hm
    refine ⟨fun a ha => ?_, fun ha => ?_⟩
    · exact fireReady_eq hl rfl (hAck.trans (by rw [ha]))
    · exact fireReady_eq hl rfl (hAck.trans (by rw [ha]))
  · refine fireReady_eq hl rfl ?_
    rw [effRefreshAckTimer, ha]
    rfl
  · intro next
    refine ⟨fun hn => refreshRun_of_done h hr f hn, fun hn => ?_, fun a hd ha => ⟨fun hn => ?_, fun hn => ?_⟩⟩
    · have hRun := refreshRun_of_next h hr f hn
      refine ⟨fun row b2 hItem hSend => ?_, fun hItem => ?_, fun hItem => ?_, fun st hItem => ?_, fun hItem => ?_⟩
      · simp only [hRun, hItem, hSend]
      · simp only [hRun, hItem, next]
      · simp only [hRun, hItem, next]
      · simp only [hRun, hItem, next]
      · simp only [hRun, hItem]
    · exact (refreshClose_of_tree h hr hd ha).trans (if_neg (ne_true_of_eq_false hn))
    · exact (refreshClose_of_tree h hr hd ha).trans (if_pos hn)
  · intro c h hp
    exact refreshSend_of_read ht h hp
  · intro t h hs
    exact ⟨fun hp hw => ownRefresh_of_hit h hs hp hw, fun hp => ownRefresh_of_miss h hs hp⟩

end Sys2Proof.Machine
end

section
/-! SUPPORT. TABLE_SWAP, COPY and BIAS_FLIP, branch by branch (R83, R84, R200, R244 to R248, R253 to R258). -/
namespace Sys2Proof.Machine

/-! ### TABLE_SWAP -/

section
variable {b b1 : Blk} {q : Nat} {d : Desc} (h : handedOf b q [0x28] = some d)
include h

theorem effTableSwap_of_fail {st : Status} (hr : rd .front (.desc d.id) (clsOf b q)
      ((ctxHdr b (clsOf b q).ctx).tableDir + 256 * (d.tab (d.f 8 2 % 4096)).table + 19) 1 b = (b1, .fail st)) :
    effTableSwap q b = completeWith d.id st 0 0 b1 := by
  simp only [effTableSwap, h, hr]

/-- TABLE_SWAP once ACTIVE has been read (R83, R174, R200). -/
theorem effTableSwap_of_read {a : List PByte} (hr : rd .front (.desc d.id) (clsOf b q)
      ((ctxHdr b (clsOf b q).ctx).tableDir + 256 * (d.tab (d.f 8 2 % 4096)).table + 19) 1 b = (b1, .ok a)) :
    effTableSwap q b =
      let c := clsOf b q
      let t := d.tab (d.f 8 2 % 4096)
      let v := d.f 10 1 % 4
      let dva := (ctxHdr b c.ctx).tableDir + 256 * t.table
      let old := byteAt (plain a) 0 % 4
      if anyPoison a then completeWith d.id .cancelled 0 0 (raise (d.err b1 0x12 0 (poisonSource c dva b1) dva) b1)
      else if v = old ∨ t.rowBase v = 0 then completeWith d.id .malformed 0 0 b1
      else if b1.retiring.any (fun r => r = (c.ctx, t.table, v)) ∨ d.stepBusy = true then completeWith d.id .tableBusy 0 0 b1
      else
        match wr .front (.desc d.id) c (dva + 19) [(BitVec.ofNat 8 v, false)] b1 with
        | (b, .ok) =>
          let b := recapture c.ctx t.table (invalidateTable c.ctx t.table (dropCached (tableLines c dva b) b))
          startWork d.id (.swap t old) { b with retiring := b.retiring ++ [(c.ctx, t.table, old)] }
        | (b, .fail s) => completeWith d.id s 0 0 b
        | (b, .badMeta) => completeWith d.id .cancelled 0 0 b
        | (b, .fault) => b
        | (b, .wait) => b := by
  simp only [effTableSwap, h, hr] <;> rfl

end

theorem effSlotRetired_of_swap {b : Blk} {id : Nat} {d : Desc} {t : Captured} {old : Nat} (h : b.desc? id = some d) (hw : d.work = .swap t old) :
    effSlotRetired id b = if slotHeld b id (b.q d.q).ctx t.table old || slotAsked b (b.q d.q).ctx t.table old then b
      else completeWith id .ok (t.vtag old) 0 { b with retiring := b.retiring.filter (· ≠ ((b.q d.q).ctx, t.table, old)) } := by
  simp only [effSlotRetired, h, hw]

/-! ### COPY -/

theorem effCopy_of_handed {b : Blk} {q : Nat} {d : Desc} (h : handedOf b q [0x30] = some d) :
    effCopy q b = startWork d.id (.copy
      { inbound := copyInbound b d, tiles := copyTiles d.bytes,
        engine := if byteAt d.bytes 11 = 0xFF then freeEngine b (copyInbound b d) else byteAt d.bytes 11 }) b := by
  simp only [effCopy, h]

section
variable {b : Blk} {id : Nat} {d : Desc} {r : CopyRun} (h : b.desc? id = some d) (hw : d.work = .copy r) (hk : b.isParked (.desc id) = false)
  (hn : r.next < r.tiles)
include h hw hk hn

theorem effCopyTile_of_writing {n : Nat} (hr : r.writing = some n) : effCopyTile id b = copyWritten id n b := by
  have hLeft : decide (r.tiles ≤ r.next) = false := decide_eq_false (Nat.not_le.mpr hn)
  simp only [effCopyTile, h, hw, hk, hLeft, Bool.or_self, Bool.false_eq_true, if_false, hr, Option.isSome_some, if_true, Option.getD_some]

/-- The COPY's next tile whose read does not give its data (R221, R256). -/
theorem effCopyTile_of_unread (hr : r.writing = none) {b1 : Blk} {x : Rd} (hx : ∀ l, x ≠ .ok l)
    (hRd : rdParts (if r.inbound then Rq.copyIn r.engine else Rq.copyOut r.engine) (.desc id) (clsOf b d.q)
      ((copyPieces d.bytes r.next).1.flatMap (fun p => partsOf p.1 p.2)) b = (b1, x)) :
    effCopyTile id b = match x with
      | .fail s => completeWith id s (r.committed % 2 ^ 32) 0 (forgetUnit (.desc id) b1)
      | .badMeta => copyTileFails id (forgetUnit (.desc id) b1)
      | _ => b1 := by
  have hLeft : decide (r.tiles ≤ r.next) = false := decide_eq_false (Nat.not_le.mpr hn)
  simp only [effCopyTile, h, hw, hk, hLeft, Bool.or_self, Bool.false_eq_true, if_false, hr, Option.isSome_none, hRd]
  cases x with
  | ok l => exact absurd rfl (hx l)
  | fail s => rfl
  | badMeta => rfl
  | fault => rfl
  | wait => rfl

/-- The COPY's next tile, read whole, is written whole (R221, R256). -/
theorem effCopyTile_of_read (hr : r.writing = none) {b1 b2 : Blk} {l : List PByte} {w : Wr}
    (hRd : rdParts (if r.inbound then Rq.copyIn r.engine else Rq.copyOut r.engine) (.desc id) (clsOf b d.q)
      ((copyPieces d.bytes r.next).1.flatMap (fun p => partsOf p.1 p.2)) b = (b1, .ok l))
    (hWr : wrAll (if r.inbound then Rq.copyIn r.engine else Rq.copyOut r.engine) (.desc id) (clsOf b d.q)
      (dealOut (copyPieces d.bytes r.next).2 (copyArrange d.bytes (copyPieces d.bytes r.next) l)) b1 = (b2, w)) :
    effCopyTile id b = match w with
      | .ok => copyWritten id l.length (copyPoison d r (copyPieces d.bytes r.next).1 l (forgetUnit (.desc id) b2))
      | .fail s => completeWith id s (r.committed % 2 ^ 32) 0 (forgetUnit (.desc id) b2)
      | .badMeta => copyTileFails id (forgetUnit (.desc id) b2)
      | _ => holdTile (.desc id) ((copyPieces d.bytes r.next).1.flatMap (fun p => partsOf p.1 p.2)) l b2 := by
  have hLeft : decide (r.tiles ≤ r.next) = false := decide_eq_false (Nat.not_le.mpr hn)
  simp only [effCopyTile, h, hw, hk, hLeft, Bool.or_self, Bool.false_eq_true, if_false, hr, Option.isSome_none, hRd, hWr]
  cases w <;> rfl

end

theorem copyWritten_eq {id n : Nat} {d : Desc} {b : Blk} (h : b.desc? id = some d) :
    copyWritten id n b = if b.writesDone (.desc id) then copyCommitted d n b else modCopy id (fun r => { r with writing := some n }) b := by
  simp only [copyWritten, h]

/-- Clean data stays clean when it is dealt out. -/
theorem clean_dealOut : ∀ (ps : List (Nat × Nat)) (l : List PByte), anyPoison l = false → ∀ e ∈ dealOut ps l, anyPoison e.2 = false
  | [], _, _, e, he => absurd he (by simp [dealOut])
  | (a, n) :: ps, l, h, e, he => by
    have hAll : ∀ x ∈ l, x.2 = false := by simpa [anyPoison] using h
    rcases List.mem_cons.mp he with rfl | he
    · simpa [anyPoison] using fun x p hx => hAll (x, p) (List.mem_of_mem_take hx)
    · refine clean_dealOut ps (l.drop n) ?_ e he
      simpa [anyPoison] using fun x p hx => hAll (x, p) (List.mem_of_mem_drop hx)

theorem copyPoison_of_clean (d : Desc) (r : CopyRun) (srcs : List (Nat × Nat)) {l : List PByte} (b : Blk) (h : anyPoison l = false) :
    copyPoison d r srcs l b = b := by
  have hNone : (dealOut srcs l).find? (fun p => anyPoison p.2) = none :=
    List.find?_eq_none.mpr fun e he => by simp [clean_dealOut srcs l h e he]
  simp only [copyPoison, hNone]

/-! ### BIAS_FLIP -/

theorem effBiasFlip_of_handed {b : Blk} {q : Nat} {d : Desc} (h : handedOf b q [0x31] = some d) :
    effBiasFlip q b = startWork d.id (.bias {}) b := by
  simp only [effBiasFlip, h]

section
variable {b : Blk} {id : Nat} {d : Desc} {r : BiasRun} (h : b.desc? id = some d) (hw : d.work = .bias r) (hk : b.isParked (.desc id) = false)
include h hw hk

theorem effBiasFlipGranule_of_waiting {g : Nat} (hr : r.waiting = true) (hf : b.host.flipping = some g) :
    effBiasFlipGranule id b = biasDevice id g (d.f 8 1 == 1) b := by
  simp only [effBiasFlipGranule, h, hw, hk, Bool.false_eq_true, if_false, hr, hf]

/-- A granule whose address has been translated (R248). -/
theorem effBiasFlipGranule_of_target (hr : r.waiting = false) {b1 : Blk} {pa seg gran : Nat} {host now : Bool}
    (ht : translate .front (.desc id) (clsOf b d.q) (d.f 16 8 + r.next * 2 ^ 21) false false b = (b1, .ok pa host seg gran now)) :
    effBiasFlipGranule id b =
      let c := clsOf b d.q
      let shared := d.f 8 1 == 1
      let g := paOff pa / 2 ^ 21
      if host then biasHost id c.ctx seg gran pa shared now b1
      else if paChip pa ≠ b1.ident.chip then biasNext id false true b1
      else if paDie pa ≠ b1.ident.die then
        match tryReach c.ctx (paChip pa) (paDie pa) b1 with
        | (b, some s) => completeWith id s r.changed r.skipped b
        | (b, none) => biasNext id (Config.peerBiasChanged b.stamp pa) false { b with stamp := b.stamp + 1 }
      else if b1.host.owned.get false g = !shared then biasNext id false false b1
      else if b1.host.flipping.isSome then b1
      else biasDevice id g shared (cleanGranule (b1.selfPa (g * 2 ^ 21)) (2 ^ 21)
        { b1 with host := { b1.host with flipping := some g } }) := by
  simp only [effBiasFlipGranule, h, hw, hk, Bool.false_eq_true, if_false, hr, ht] <;> rfl

end

theorem biasDevice_of_free (id g : Nat) {shared : Bool} {b : Blk} (h : shared = true ∨ granLines b g = []) : biasDevice id g shared b =
    biasNext id true false { b with host := { b.host with owned := b.host.owned.set g (!shared), flipping := none } } := by
  refine if_pos ?_
  rcases h with rfl | h
  · rfl
  · simp [h]

theorem biasDevice_of_held (id g : Nat) {b : Blk} (h : granLines b g ≠ []) : biasDevice id g false b =
    modBias id (fun r => { r with waiting := true }) (sendSnoops (granLines b g) b) :=
  if_neg (by simpa using h)

/-- The override entry of a host granule (R246). -/
theorem biasHost_eq (id ctx seg gran pa : Nat) (shared now : Bool) (b : Blk) :
    let mine (e : Nat × Nat × Nat × Bool) : Bool := e.1 = ctx && e.2.1 = seg && e.2.2.1 = gran
    let b1 := cleanGranule (lineKey pa true) (2 ^ 21) b
    biasHost id ctx seg gran pa shared now b =
      if b.straps.lead && b.host.state == 2 then biasNext id false true (addStatus id .hostLost b)
      else if now = shared then biasNext id false false b
      else if 256 ≤ b.host.override.length ∧ b.host.override.any mine = false then biasNext id false true b
      else biasNext id true false { b1 with host := { b1.host with
        override := b1.host.override.filter (fun e => !mine e) ++ [(ctx, seg, gran, shared)] } } := rfl

/-- Settles O38: a swap by what ACTIVE says, a tile by what its read and its write come to, a granule by where it lies. -/
theorem swapCopyAndBiasFlip : Obligations.SwapCopyAndBiasFlip := by
  refine ⟨fun s hl => ⟨fun q d hq h => ?_, fun id d t old h hw => ?_, fun q d hq h => fireReady_eq hl (decide_eq_true hq) (effCopy_of_handed h),
    fun id d r h hw hk hn => ?_, fun q d hq h => fireReady_eq hl (decide_eq_true hq) (effBiasFlip_of_handed h), fun id d r h hw hk => ?_⟩,
    fun id d n b h => ⟨fun hd => (copyWritten_eq h).trans (if_pos hd), fun hd => (copyWritten_eq h).trans (if_neg (ne_true_of_eq_false hd))⟩,
    fun d r srcs l b h => copyPoison_of_clean d r srcs b h, fun id g shared b => ?_, fun id ctx seg gran pa shared now b => ?_⟩
  · have hLt := decide_eq_true hq
    intro c t v dva
    refine ⟨fun b1 st hr => fireReady_eq hl hLt (effTableSwap_of_fail h hr), fun b1 a hr => ?_⟩
    intro old
    have hSwap := effTableSwap_of_read h hr
    refine ⟨fun hp => ?_, fun hp hv => ?_, fun hp hv h0 hBusy => ?_, fun b2 hp hv h0 hFree hBusy hWr => ?_⟩
    · exact fireReady_eq hl hLt (hSwap.trans (if_pos hp))
    · exact fireReady_eq hl hLt (hSwap.trans ((if_neg (ne_true_of_eq_false hp)).trans (if_pos hv)))
    · have hBad : ¬(v = old ∨ t.rowBase v = 0) := fun hx => hx.elim hv h0
      have hAny : b1.retiring.any (fun r => r = (c.ctx, t.table, v)) = true ∨ d.stepBusy = true := by simpa using hBusy
      exact fireReady_eq hl hLt (hSwap.trans ((if_neg (ne_true_of_eq_false hp)).trans ((if_neg hBad).trans (if_pos hAny))))
    · have hBad : ¬(v = old ∨ t.rowBase v = 0) := fun hx => hx.elim hv h0
      have hNone : ¬(b1.retiring.any (fun r => r = (c.ctx, t.table, v)) = true ∨ d.stepBusy = true) := by simpa [hBusy] using hFree
      refine fireReady_eq hl hLt (hSwap.trans ((if_neg (ne_true_of_eq_false hp)).trans ((if_neg hBad).trans ((if_neg hNone).trans ?_))))
      rw [hWr]
  · intro ctx used
    exact ⟨fun hu => fireReady_eq hl rfl ((effSlotRetired_of_swap h hw).trans (if_pos hu)),
      fun hu => fireReady_eq hl rfl ((effSlotRetired_of_swap h hw).trans (if_neg (ne_true_of_eq_false hu)))⟩
  · intro c rq pcs srcs aux freed
    refine ⟨fun n hr => fireReady_eq hl rfl (effCopyTile_of_writing h hw hk hn hr), fun hr => ?_⟩
    have hRead (b1 : Blk) (l : List PByte) (hRd : rdParts rq (.desc id) c srcs s.b = (b1, .ok l)) :=
      fun (b2 : Blk) (w : Wr) => effCopyTile_of_read (b2 := b2) (w := w) h hw hk hn hr hRd
    refine ⟨fun b1 l hRd b2 => ⟨fun hWr => ?_, fun st hWr => ?_, fun hWr => ?_, fun hWr => ?_⟩, fun b1 st hRd => ?_, fun b1 hRd => ?_, fun b1 hRd => ?_⟩
    · exact fireReady_eq hl rfl (hRead b1 l hRd b2 _ hWr)
    · exact fireReady_eq hl rfl (hRead b1 l hRd b2 _ hWr)
    · exact fireReady_eq hl rfl (hRead b1 l hRd b2 _ hWr)
    · obtain ⟨w, hMem, hWr⟩ := hWr
      rcases List.mem_pair.mp hMem with rfl | rfl
      · exact fireReady_eq hl rfl (hRead b1 l hRd b2 _ hWr)
      · exact fireReady_eq hl rfl (hRead b1 l hRd b2 _ hWr)
    · exact fireReady_eq hl rfl (effCopyTile_of_unread h hw hk hn hr (fun l => Rd.noConfusion) hRd)
    · exact fireReady_eq hl rfl (effCopyTile_of_unread h hw hk hn hr (fun l => Rd.noConfusion) hRd)
    · obtain ⟨x, hMem, hRd⟩ := hRd
      rcases List.mem_pair.mp hMem with rfl | rfl
      · exact fireReady_eq hl rfl (effCopyTile_of_unread h hw hk hn hr (fun l => Rd.noConfusion) hRd)
      · exact fireReady_eq hl rfl (effCopyTile_of_unread h hw hk hn hr (fun l => Rd.noConfusion) hRd)
  · intro c shared va
    refine ⟨fun g hr hf => fireReady_eq hl rfl (effBiasFlipGranule_of_waiting h hw hk hr hf), fun hr => ⟨fun b1 pa seg gran now ht => ?_,
      fun b1 pa seg gran now ht => ?_⟩⟩
    · exact fireReady_eq hl rfl ((effBiasFlipGranule_of_target h hw hk hr ht).trans (if_pos rfl))
    · intro g
      have hOwn := (effBiasFlipGranule_of_target h hw hk hr ht).trans (if_neg Bool.false_ne_true)
      refine ⟨fun hc => ?_, fun b2 hc hd => ⟨fun st hReach => ?_, fun hReach => ?_⟩, fun hc hd => ⟨fun ho => ?_, fun ho hf => ?_⟩⟩
      · exact fireReady_eq hl rfl (hOwn.trans (if_pos hc))
      · exact fireReady_eq hl rfl (hOwn.trans ((if_neg (not_not.mpr hc)).trans ((if_pos hd).trans (by rw [hReach]))))
      · exact fireReady_eq hl rfl (hOwn.trans ((if_neg (not_not.mpr hc)).trans ((if_pos hd).trans (by rw [hReach]))))
      · exact fireReady_eq hl rfl (hOwn.trans ((if_neg (not_not.mpr hc)).trans ((if_neg (not_not.mpr hd)).trans (if_pos ho))))
      · have hBias : ¬(b1.host.owned.get false g = !shared) := by simp [ho]
        have hIdle : ¬(b1.host.flipping.isSome = true) := by simp [hf]
        exact fireReady_eq hl rfl (hOwn.trans ((if_neg (not_not.mpr hc)).trans ((if_neg (not_not.mpr hd)).trans
          ((if_neg hBias).trans (if_neg hIdle)))))
  · intro ls
    refine ⟨biasDevice_of_free id g, fun hs hn => ?_⟩
    subst hs
    exact biasDevice_of_held id g hn
  · intro mine b1 lost
    have hHost := biasHost_eq id ctx seg gran pa shared now b
    refine ⟨fun hLost => ?_, fun hLost hn => ?_, fun hLost hn hf ha => ?_, fun hLost hn hf => ?_⟩
    · exact hHost.trans (if_pos hLost)
    · exact hHost.trans ((if_neg (ne_true_of_eq_false hLost)).trans (if_pos hn))
    · exact hHost.trans ((if_neg (ne_true_of_eq_false hLost)).trans ((if_neg hn).trans (if_pos ⟨hf, ha⟩)))
    · have hRoom : ¬(256 ≤ b.host.override.length ∧ b.host.override.any mine = false) := fun ⟨h1, h2⟩ =>
        hf.elim (fun h => absurd h1 (Nat.not_le.mpr h)) fun h => Bool.noConfusion (h2.symm.trans h)
      exact hHost.trans ((if_neg (ne_true_of_eq_false hLost)).trans ((if_neg hn).trans (if_neg hRoom)))

end Sys2Proof.Machine
end

section
/-! SUPPORT. Input tiles, prefetches, metadata fills, hints and write completions (R221, R229, R236, R401, R403). -/
namespace Sys2Proof.Machine

theorem effTileCommit_of_read {b b1 : Blk} {uid va n : Nat} {u : Machine.Unit} {d : Desc} {rest : List (Nat × Nat)} {l : List PByte}
    (hu : unitOf b uid = some (u, d)) (hk : b.isParked (.unit uid) = false) (hn : u.need = (va, n) :: rest)
    (hr : rd (.pitch u.pitch) (.unit uid) (clsOf b d.q) va n b = (b1, .ok l)) :
    effTileCommit uid b =
      let b2 := pitchSectors (b1.q d.q).ctx d.q (sectorsOf va n) b1
      openSample uid ((consumed d.id (va + n) u.pitch (feedTile u.pitch d va n b2)).modUnit uid (fun u' =>
        { u' with need := rest, have_ := u'.have_ ++ [(va, withPrefetched (b2.pitch u.pitch) d.id va l)] })) := by
  simp only [effTileCommit, hu, hk, Bool.false_eq_true, if_false, hn, hr]

/-- The oldest outstanding line of a pitch, by what its read gives (R229, R389). -/
theorem effMdcFill_of_read {b : Blk} {p key ctx : Nat} {shared : Bool} {rest : List (Nat × Nat × Bool)}
    (hm : (b.pitch p).mdc.misses = (key, ctx, shared) :: rest) {b0 : Blk} {r : PRd}
    (hr : readPhys (.mdc p) { ctx := ctx, shared := shared } (key % 2 ^ 63) 128 (decide (2 ^ 63 ≤ key)) b = (b0, r)) :
    effMdcFill p b =
      let b1 := b0.setPitch p { b0.pitch p with mdc := { (b0.pitch p).mdc with misses := (b0.pitch p).mdc.misses.drop 1 } }
      let given (l : List PByte) : Blk := { b1 with xlat := { b1.xlat with held := b1.xlat.held ++ [(.mdc p, key, l)] } }
      match (generalizing := false) r with
      | .ok d => if anyPoison d then given d else mdcInstall p { addr := key, data := d, dirty := false, ctx := ctx } b1
      | .fail _ => given []
      | .wait => b0 := by
  simp only [effMdcFill, hm, hr]
  cases r <;> rfl

section
variable {b : Blk} {h : Hint} {rest : List Hint} (hh : b.xlat.hints = h :: rest)
include hh

theorem effHintTake_of_hint : effHintTake b =
    recheckAgain (if h.dirty then hintWrite h { b with xlat := { b.xlat with hints := rest } } else { b with xlat := { b.xlat with hints := rest } }) := by
  simp only [effHintTake, hh]

theorem effHintDecline_of_hint : effHintDecline b =
    if h.dirty then raise { cause := 0x10, unit := 1, detail := 1 } (recheckAgain (hintWrite h { b with xlat := { b.xlat with hints := rest } }))
    else bump Ctr.mdHintDeclined 0 1 { b with xlat := { b.xlat with hints := rest } } := by
  simp only [effHintDecline, hh]

end

theorem effPrefetch_unit {b : Blk} {uid : Nat} {u : Machine.Unit} {d : Desc} (hu : unitOf b uid = some (u, d)) (hd : 0 < prefetchDepth b)
    (hk : b.isParked (.unit uid) = false) :
    effPrefetch (.unit uid) b = prefetchUnit u (clsOf b d.q) (unitAhead b u d (prefetchDepth b)) b := by
  have hOpen : ¬(prefetchDepth b = 0 ∨ b.isParked (.unit uid) = true) := by
    rw [hk]
    exact fun h => h.elim (Nat.pos_iff_ne_zero.mp hd) Bool.false_ne_true
  simp only [effPrefetch, hu, if_neg hOpen]

theorem effPrefetch_fetch {b : Blk} {n : Nat} (hd : 0 < prefetchDepth b) (he : b.obj Obj.descEn 0 ≠ 0) (hf : fetching b n = true)
    (ht : (b.q n).fetch < (b.q n).tailSlots) :
    effPrefetch (.fetch n) b =
      let x := b.q n
      let slot := x.fetch % x.span
      let first := x.ringBase.toNat + 64 * slot
      let last := first + 64 * (min (x.tailSlots - x.fetch) (x.span - slot) - 1)
      prefetchRing n (clsOf b n) (((x.det.next (prefetchDepth b)).map (128 * ·)).filter (fun va => first < va + 128 && va ≤ last)) b := by
  have hOpen : ¬(prefetchDepth b = 0 ∨ b.obj Obj.descEn 0 = 0 ∨ fetching b n = false ∨ (b.q n).tailSlots ≤ (b.q n).fetch) := by
    rw [hf]
    rintro (h | h | h | h)
    · exact Nat.pos_iff_ne_zero.mp hd h
    · exact he h
    · exact Bool.false_ne_true h.symm
    · exact Nat.not_le.mpr ht h
  simp only [effPrefetch, if_neg hOpen]

/-! ### Write completions -/

section
variable {b : Blk} {tag : Nat} {w : Nat × Nat × List PByte × UnitRef} (hw : b.gs.writes.find? (fun w => w.1 = tag) = some w)
  (hb : writeBlocked b.gs.writes w = false)
include hw hb

theorem effGsWdone_of_held (hs : snoopLines b w.2.1 w.2.2.1.length ≠ []) :
    effGsWdone tag b = sendSnoops (snoopLines b w.2.1 w.2.2.1.length) b := by
  simp only [effGsWdone, hw, hb, Bool.false_eq_true, if_false, if_pos hs]

theorem effGsWdone_of_free (hs : snoopLines b w.2.1 w.2.2.1.length = []) :
    effGsWdone tag b = recheckAgain (gsWrite (ctxOfRef b w.2.2.2) w.2.1 w.2.2.1
      { b with gs := { b.gs with writes := b.gs.writes.filter (fun v => v.1 ≠ tag) } }) := by
  simp only [effGsWdone, hw, hb, Bool.false_eq_true, if_false, hs, ne_eq, not_true_eq_false]

end

/-- A write of installed memory changes the memory and a counter alone. -/
theorem gsWrite_installed {b : Blk} {off : Nat} {d : List PByte} (h : off + d.length ≤ b.installed) (c : Option Nat) :
    (gsWrite c off d b).mem = b.mem.write off d ∧ (gsWrite c off d b).gs = b.gs ∧ (gsWrite c off d b).front = b.front ∧
      (gsWrite c off d b).xlat = b.xlat := by
  simp only [gsWrite, if_pos h]
  split <;> exact ⟨rfl, rfl, rfl, rfl⟩

/-! ### Detectors -/

theorem feedTile_of_stream {d : Desc} {va k lo len : Nat} (h : d.streamAt va = some (k, lo, len)) (p n : Nat) (b : Blk) :
    let lines := (List.range ((va + n - 1) / 128 + 1 - va / 128)).map (fun i => va / 128 + i)
    feedTile p d va n b = b.setPitch p
      { b.pitch p with det := (b.pitch p).det.set k (lines.foldl Detector.feed ((b.pitch p).det.get {} k)) } := by
  simp only [feedTile, h]

theorem prefetchUnit_of_read {u : Machine.Unit} {c : Cls} {va n : Nat} {rest : List (Nat × Nat)} {b b1 b2 : Blk} {pa seg gran : Nat}
    {host sh : Bool} {l : List PByte} (ht : translate (.pitch u.pitch) (.unit u.uid) c va false false b = (b1, .ok pa host seg gran sh))
    (hr : readPhys (.unit u.uid) (c.biased host sh) pa n host b1 = (b2, .ok l)) :
    prefetchUnit u c ((va, n) :: rest) b = prefetchUnit u c rest (bump Ctr.pfLines c.ctx 1
      (b2.setPitch u.pitch { b2.pitch u.pitch with ahead := (b2.pitch u.pitch).ahead ++ [(u.op, va, l)] })) := by
  simp only [prefetchUnit, ht, hr]

section
variable {n va : Nat} {c : Cls} {rest : List Nat} {b b1 : Blk} {pa seg gran : Nat} {host sh : Bool}
  (ht : translate .front (.fetch n) c va false false b = (b1, .ok pa host seg gran sh))
include ht

theorem prefetchRing_of_held (hk : b1.xlat.desc.find (lineKey pa host) ≠ none) : prefetchRing n c (va :: rest) b = prefetchRing n c rest b1 := by
  simp only [prefetchRing, ht, Option.isSome_iff_ne_none.mpr hk, if_true]

theorem prefetchRing_of_read {b2 : Blk} {l : List PByte} (hk : b1.xlat.desc.find (lineKey pa host) = none)
    (hr : readPhys (.fetch n) (c.biased host sh) pa 128 host b1 = (b2, .ok l)) :
    prefetchRing n c (va :: rest) b = prefetchRing n c rest (bump Ctr.pfLines c.ctx 1
      { b2 with xlat := { b2.xlat with desc := b2.xlat.desc.fillRr { addr := lineKey pa host, data := l, dirty := false, ctx := c.ctx } } }) := by
  simp only [prefetchRing, ht, hk, Option.isSome_none, Bool.false_eq_true, if_false, hr]

end

/-- Settles O39: each command by what its read, its line or its write meets. -/
theorem tilesFillsHintsAndWritesComplete : Obligations.TilesFillsHintsAndWritesComplete := by
  refine ⟨fun s hl => ⟨fun uid u d va n rest b1 l hu hk hn hr => fireReady_eq hl rfl (effTileCommit_of_read hu hk hn hr),
    fun p key ctx shared rest hp hm => ?_, fun h rest hh => ?_, fun uid u d hu hd hk => fireReady_eq hl rfl (effPrefetch_unit hu hd hk),
    fun n hd he hf ht => fireReady_eq hl rfl (effPrefetch_fetch hd he hf ht), fun tag w ht hw hb => ?_⟩,
    fun d x p va n k lo len b h hx => ?_, fun u c va n rest b b1 b2 pa host seg gran sh l ht hr => prefetchUnit_of_read ht hr,
    fun n c va rest b b1 b2 pa host seg gran sh l ht => ?_⟩
  · intro got x b1 given
    have hFill (r : PRd) (hg : got.2 = r) := effMdcFill_of_read hm (b0 := got.1) (r := r) (Prod.ext rfl hg)
    refine ⟨fun l hg hp' => ?_, fun l hg hp' => ?_, fun st hg => ?_, fun hg => ?_⟩
    · exact fireReady_eq hl (decide_eq_true hp) ((hFill _ hg).trans (if_neg (ne_true_of_eq_false hp')))
    · exact fireReady_eq hl (decide_eq_true hp) ((hFill _ hg).trans (if_pos hp'))
    · exact fireReady_eq hl (decide_eq_true hp) (hFill _ hg)
    · exact fireReady_eq hl (decide_eq_true hp) (hFill _ hg)
  · intro b0
    have hTake := effHintTake_of_hint hh
    have hDecline := effHintDecline_of_hint hh
    refine ⟨fun hd => ⟨?_, ?_⟩, fun hd => ⟨?_, ?_⟩⟩
    · exact fireReady_eq hl rfl (hTake.trans (congrArg recheckAgain (if_pos hd)))
    · exact fireReady_eq hl rfl (hDecline.trans (if_pos hd))
    · exact fireReady_eq hl rfl (hTake.trans (congrArg recheckAgain (if_neg (ne_true_of_eq_false hd))))
    · exact fireReady_eq hl rfl (hDecline.trans (if_neg (ne_true_of_eq_false hd)))
  · refine ⟨fun hs => fireReady_eq hl (decide_eq_true ht) (effGsWdone_of_held hw hb hs), fun hs hi hp => ?_⟩
    obtain ⟨hMem, hGs, hFront, hXlat⟩ := gsWrite_installed
      (b := { s.b with gs := { s.b.gs with writes := s.b.gs.writes.filter (fun v => v.1 ≠ tag) } }) hi (ctxOfRef s.b w.2.2.2)
    have hDone := (effGsWdone_of_free hw hb hs).trans (recheckAgain_of_none fun p hq => hp p (by rwa [hXlat] at hq))
    have hDescs := congrArg Front.descs hFront
    refine ⟨_, fireReady_eq hl (decide_eq_true ht) hDone, ?_, ?_, ?_, ?_⟩
    · exact congrArg Mem.norm hMem
    · exact congrArg Ground.writes hGs
    · exact hDescs
    · exact hXlat
  · intro lines y
    rw [feedTile_of_stream h, hx]
  · intro key
    exact ⟨prefetchRing_of_held ht, prefetchRing_of_read ht⟩

end Sys2Proof.Machine
end

section
/-! SUPPORT. Invalidations: which are accepted, what they drop, and their acknowledgement (R226, R227, R242). -/
namespace Sys2Proof.Machine

/-! ### Acceptance -/

section
variable {op fn : Nat} {v : W64} {b : Blk}

theorem invalidateBy_of_lost (h : hostReaches b = false) : invalidateBy op fn v b = b := by
  simp only [invalidateBy, h, Bool.not_false, if_true]

variable (h : hostReaches b = true)
include h

theorem invalidateBy_of_foreign (hf : fn ≠ 0) (ho : op = 4 ∨ ownsCtx b fn (bitsOf v.toNat 9 4) = false) :
    invalidateBy op fn v b = bump Ctr.hsForeignWrites 0 1 b := by
  simp only [invalidateBy, h, Bool.not_true, Bool.false_eq_true, if_false]
  exact if_pos ⟨hf, ho⟩

/-- An invalidation of a function that may make it (R242). -/
theorem invalidateBy_of_own (ho : fn = 0 ∨ (op ≠ 4 ∧ ownsCtx b fn (bitsOf v.toNat 9 4) = true)) :
    invalidateBy op fn v b = if 64 ≤ b.xlat.invals.length then bump Ctr.ftInvRefused 0 1 b
      else
        let b0 := invalHere v b
        toOthers fn 0x000 v { b0 with xlat := { b0.xlat with
          invals := b0.xlat.invals ++ [{ fn := fn, word := v, mine := underWay b, waiting := otherDies b0 }] } } := by
  simp only [invalidateBy, h, Bool.not_true, Bool.false_eq_true, if_false]
  refine if_neg ?_
  rintro ⟨hf, hx⟩
  obtain ⟨h4, hOwn⟩ := ho.resolve_left hf
  rcases hx with hx | hx
  · exact h4 hx
  · exact Bool.noConfusion (hOwn.symm.trans hx)

end

/-- The four commands that invalidate, by their operation (R211). -/
theorem exec_invalidate {s : State} (hl : Live s) {fn op : Nat} {v : W64} {c : Instr} (hf : fn < 64) (ho : bitsOf v.toNat 3 0 = op)
    (hc : (c, op) ∈ [(Instr.invalidateGranule fn v, 1), (.invalidateSegment fn v, 2), (.invalidateContext fn v, 3), (.invalidateAll fn v, 4)])
    {b : Blk} (h : invalidateBy op fn v s.b = b) : exec c s = .next (s.after b) := by
  have hOk (k : Nat) (hk : op = k) : (decide (fn < 64) && bitsOf v.toNat 3 0 == k) = true := by simp [hf, ho, hk]
  simp only [List.mem_cons, List.not_mem_nil, or_false, Prod.mk.injEq] at hc
  rcases hc with ⟨rfl, rfl⟩ | ⟨rfl, rfl⟩ | ⟨rfl, rfl⟩ | ⟨rfl, rfl⟩
  · exact fireReady_eq hl (hOk 1 rfl) h
  · exact fireReady_eq hl (hOk 2 rfl) h
  · exact fireReady_eq hl (hOk 3 rfl) h
  · exact fireReady_eq hl (hOk 4 rfl) h

/-! ### What is dropped -/

/-- A line that an INVALIDATE selects (R226). -/
def invHit (b : Blk) (v : W64) (l : Line) : Bool :=
  ((invRuns b v).map (fun r => (b.selfPa r.1, r.2))).any (fun r => decide (l.addr < r.1 + r.2 ∧ r.1 < l.addr + 128))

theorem invHit_of_run {b : Blk} {v : W64} {l : Line}
    (h : (invRuns b v).any (fun r => decide (l.addr < b.selfPa r.1 + r.2 ∧ b.selfPa r.1 < l.addr + 128)) = true) : invHit b v l = true := by
  rw [invHit, List.any_map]
  exact h

/-- A pitch without the lines that are selected. -/
def Pitch.without (x : Pitch) (hit : Line → Bool) : Pitch := { x with mdc := { x.mdc with lines := x.mdc.lines.filter (fun l => !hit l.2) } }

/-- Each pitch after an invalidation holds its lines but for the selected ones. -/
theorem pitch_invalHere (v : W64) (b : Blk) (p : Nat) : (invalHere v b).pitch p = (b.pitch p).without (invHit b v) := by
  simp only [Blk.pitch, invalHere]
  generalize hWritten : List.foldl _ b _ = c
  have hKeep : c.pitches = b.pitches := by
    rw [← hWritten]
    refine foldl_keeps Blk.pitches _ (fun c l => ?_) _ b
    split
    · exact writeLine_pitches ..
    · rfl
  rw [hKeep]
  exact Tbl.get_map {} (fun _ x => x.without (invHit b v)) p rfl b.pitches

theorem not_mem_of_invHit {b : Blk} {v : W64} {l : Line} (h : invHit b v l = true) :
    (∀ p k, (k, l) ∉ ((invalHere v b).pitch p).mdc.lines) ∧ (∀ k, (k, l) ∉ (invalHere v b).xlat.fault.lines) := by
  refine ⟨fun p k hMem => ?_, fun k hMem => ?_⟩
  · rw [pitch_invalHere] at hMem
    simpa [h] using (List.mem_filter.mp hMem).2
  · have hKept : (!invHit b v l) = true := (List.mem_filter.mp hMem).2
    rw [h] at hKept
    exact Bool.false_ne_true hKept

/-! ### Reports and acknowledgements -/

section
variable {die token : Nat} {accs : List Acc} {rest : List (Nat × Nat × List Acc)} {b : Blk} (h : b.xlat.reports = (die, token, accs) :: rest)
include h

theorem sendReports_of_unfinished (n : Nat) (hf : finished b accs = false) : sendReports (n + 1) b = b := by
  simp only [sendReports, h, hf, Bool.false_eq_true, if_false]

theorem sendReports_of_finished (n : Nat) (hf : finished b accs = true) :
    sendReports (n + 1) b =
      let b1 := { b with xlat := { b.xlat with reports := rest } }
      sendReports n (match reachFail b1 0 b1.ident.chip die with
        | some _ => b1
        | none => sendMsg b1.ident.chip die {} (.fwdReport token) b1) := by
  simp only [sendReports, h, hf, if_true] <;> rfl

end

section
variable {b b0 : Blk} (hb : sendReports (b.xlat.reports.length + 1) b = b0)
include hb

theorem effInvalidationDone_of_none (hi : b0.xlat.invals = []) : effInvalidationDone b = b0 := by
  simp only [effInvalidationDone, hb, hi]

theorem effInvalidationDone_of_oldest {i : Inval} {rest : List Inval} (hi : b0.xlat.invals = i :: rest) :
    effInvalidationDone b = if i.waiting.isEmpty && finished b0 i.mine then
        let token := bitsOf i.word.toNat 63 48
        let done := b0.xlat.done.get 0 i.fn + 1
        writeAck i.fn token done (bump Ctr.ftInvDone 0 1 { b0 with xlat := { b0.xlat with
          invals := rest, token := b0.xlat.token.set i.fn token, done := b0.xlat.done.set i.fn done } })
      else b0 := by
  simp only [effInvalidationDone, hb, hi]

end

/-- Settles O41: each command by its function and what waits, each line by its address, and the word by its address register. -/
theorem invalidationsDropAndAcknowledge : Obligations.InvalidationsDropAndAcknowledge := by
  refine ⟨fun s hl => ⟨fun fn v c op hf ho hc => ?_, ?_⟩, fun v b l h => not_mem_of_invHit (invHit_of_run h), fun n die token accs rest b h => ?_,
    fun fn token done b => ?_⟩
  · refine ⟨fun h => ?_, fun h hn hx => ?_, fun h hOwn => ?_⟩
    · exact exec_invalidate hl hf ho hc (invalidateBy_of_lost h)
    · exact exec_invalidate hl hf ho hc (invalidateBy_of_foreign h hn hx)
    · refine ⟨fun hFull => ?_, fun hRoom => ?_⟩
      · exact exec_invalidate hl hf ho hc ((invalidateBy_of_own h hOwn).trans (if_pos hFull))
      · exact exec_invalidate hl hf ho hc ((invalidateBy_of_own h hOwn).trans (if_neg (Nat.not_le.mpr hRoom)))
  · intro b0
    refine ⟨fun hi => fireReady_eq hl rfl (effInvalidationDone_of_none rfl hi), fun i rest hi => ?_⟩
    have hDone := effInvalidationDone_of_oldest rfl hi
    refine ⟨fun hx => ?_, fun hw hf => ?_⟩
    · have hNot : ¬((i.waiting.isEmpty && finished b0 i.mine) = true) := by
        rcases hx with hx | hx
        · simp [hx]
        · rw [hx, Bool.and_false]
          exact Bool.false_ne_true
      exact fireReady_eq hl rfl (hDone.trans (if_neg hNot))
    · have hBoth : (i.waiting.isEmpty && finished b0 i.mine) = true := by rw [hw, hf]; rfl
      exact fireReady_eq hl rfl (hDone.trans (if_pos hBoth))
  · intro b1
    refine ⟨fun hf => sendReports_of_unfinished h n hf, fun hf hr => ?_, fun st hf hr => ?_⟩
    · exact (sendReports_of_finished h n hf).trans (congrArg (sendReports n) (by rw [hr]))
    · exact (sendReports_of_finished h n hf).trans (congrArg (sendReports n) (by rw [hr]))
  · intro a addr word
    refine ⟨fun h => ?_, fun h h' => ?_, fun h h' => ?_⟩
    · simp only [writeAck, show (Tbl.get 0 b.xlat.ackAddr fn).toNat.testBit 0 = false from h, Bool.not_false, if_true]
    · simp only [writeAck, show (Tbl.get 0 b.xlat.ackAddr fn).toNat.testBit 0 = true from h,
        show (Tbl.get 0 b.xlat.ackAddr fn).toNat.testBit 63 = false from h', Bool.not_true, Bool.false_eq_true, if_false]
      rfl
    · simp only [writeAck, show (Tbl.get 0 b.xlat.ackAddr fn).toNat.testBit 0 = true from h,
        show (Tbl.get 0 b.xlat.ackAddr fn).toNat.testBit 63 = true from h', Bool.not_true, Bool.false_eq_true, if_false, if_true]
      rfl

end Sys2Proof.Machine
end

section
/-! SUPPORT. The host's accesses: the range, the snoop filter and the window (R238, R243 to R245, R251, R252). -/
namespace Sys2Proof.Machine

/-! ### Accesses to this die -/

section
variable {a : HdmAcc} {b : Blk} (hd : hdmDie a.off = b.ident.die)
include hd

theorem hdmTry_here : hdmTry a b = hdmHere a b := if_pos hd

theorem hdmTry_of_held (hs : snoopLines b (hdmLocal a.off) a.size ≠ []) :
    hdmTry a b = (sendSnoops (snoopLines b (hdmLocal a.off) a.size) b, false) := by
  have hHeld : (!(snoopLines b (hdmLocal a.off) a.size).isEmpty) = true := by simpa using hs
  simp only [hdmTry_here hd, hdmHere, hHeld, if_true]

variable (hs : snoopLines b (hdmLocal a.off) a.size = [])
include hs

theorem hdmTry_of_full (hf : filterRoom < b.host.filter.length + (newLines b a).length) : hdmTry a b = (evictVictim b, false) := by
  simp only [hdmTry_here hd, hdmHere, hs, List.isEmpty_nil, Bool.not_true, Bool.false_eq_true, if_false, if_pos hf]

variable (hf : b.host.filter.length + (newLines b a).length ≤ filterRoom)
include hf

theorem hdmTry_of_write (hw : a.write = true) (hi : hdmLocal a.off + a.size ≤ b.installed) :
    hdmTry a b = (gsWrite none (hdmLocal a.off) (a.data.map (·, false)) b, true) := by
  have hIn : decide (b.installed < hdmLocal a.off + a.size) = false := decide_eq_false (Nat.not_lt.mpr hi)
  simp only [hdmTry_here hd, hdmHere, hs, List.isEmpty_nil, Bool.not_true, Bool.false_eq_true, if_false, if_neg (Nat.not_lt.mpr hf), hIn, hw,
    if_true]

theorem hdmTry_of_beyond (hw : a.write = true) (hi : b.installed < hdmLocal a.off + a.size) :
    hdmTry a b = (raise { cause := 0x06, unit := 5, detail := a.off } b, true) := by
  simp only [hdmTry_here hd, hdmHere, hs, List.isEmpty_nil, Bool.not_true, Bool.false_eq_true, if_false, if_neg (Nat.not_lt.mpr hf),
    decide_eq_true hi, hw, if_true]

theorem hdmTry_of_read (hw : a.write = false) :
    hdmTry a b =
      let b1 := if b.installed < hdmLocal a.off + a.size then raise { cause := 0x06, unit := 5, detail := a.off } b else b
      (emit (.hostCpl ((List.range a.len).map (fun i =>
          if hdmLocal a.off + i < b1.installed then b1.mem.pbyte (hdmLocal a.off + i) else (0, true))))
        { b1 with host := { b1.host with filter := b1.host.filter ++ newLines b a } }, true) := by
  have hSize : a.size = a.len := by simp [HdmAcc.size, hw]
  rw [hSize] at hs
  simp only [hdmTry_here hd, hdmHere, hSize, hs, List.isEmpty_nil, Bool.not_true, Bool.false_eq_true, if_false, if_neg (Nat.not_lt.mpr hf), hw,
    decide_eq_true_eq, hdmBytes]

end

/-! ### Accesses to another die -/

section
variable {a : HdmAcc} {b : Blk} (hd : hdmDie a.off ≠ b.ident.die)
include hd

theorem hdmTry_there : hdmTry a b = hdmThere a b := if_neg hd

theorem hdmTry_of_training (hp : b.diePresent (hdmDie a.off) = true) (ht : (b.link (hdmDie a.off)).state = .training) :
    hdmTry a b = (b, false) := by
  have hWait : (b.diePresent (hdmDie a.off) && (b.link (hdmDie a.off)).state == .training) = true := by rw [hp, ht]; rfl
  simp only [hdmTry_there hd, hdmThere, hWait, if_true]

theorem hdmTry_of_up (hp : b.diePresent (hdmDie a.off) = true) (hu : b.linkUp (hdmDie a.off) = true)
    (ht : (b.link (hdmDie a.off)).state ≠ .training) :
    hdmTry a b = (if a.write then
        askWrites (.hostAcc a.id) {} b.ident.chip (hdmDie a.off) false
          (writePieces (mkPa b.ident.chip (hdmDie a.off) (hdmLocal a.off)) (a.data.map (·, false))) b
      else askRead (.hostAcc a.id) {} (mkPa b.ident.chip (hdmDie a.off) (hdmLocal a.off)) a.len b.ident.chip (hdmDie a.off) false b, true) := by
  have hGo : ¬((b.diePresent (hdmDie a.off) && (b.link (hdmDie a.off)).state == .training) = true) := by simp [ht]
  have hUp : (b.diePresent (hdmDie a.off) && b.linkUp (hdmDie a.off)) = true := by rw [hp, hu]; rfl
  simp only [hdmTry_there hd, hdmThere, if_neg hGo, hUp, if_true]

theorem hdmTry_of_lost (hl : b.diePresent (hdmDie a.off) = false ∨
      (b.linkUp (hdmDie a.off) = false ∧ (b.link (hdmDie a.off)).state ≠ .training)) :
    hdmTry a b = if a.write then (fwdDropped (hdmDie a.off) b, true) else (emit (.hostCpl (List.replicate a.len (0xFF, false))) b, true) := by
  have hGo : ¬((b.diePresent (hdmDie a.off) && (b.link (hdmDie a.off)).state == .training) = true) := by
    rcases hl with hl | ⟨-, hl⟩ <;> simp [hl]
  have hDown : ¬((b.diePresent (hdmDie a.off) && b.linkUp (hdmDie a.off)) = true) := by
    rcases hl with hl | ⟨hl, -⟩ <;> simp [hl]
  simp only [hdmTry_there hd, hdmThere, if_neg hGo, if_neg hDown]

end

/-! ### The commands -/

section
variable {b : Blk}

theorem effBisnpResponse_of_idle {line : Nat} (data : List Byte) (h : b.host.snooping.contains line = false) :
    effBisnpResponse line data b = b := if_neg (ne_true_of_eq_false h)

theorem effBisnpResponse_of_snooped {line : Nat} (data : List Byte) (h : b.host.snooping.contains line = true) :
    effBisnpResponse line data b =
      let b0 : Blk := { b with host := { b.host with snooping := b.host.snooping.erase line, filter := b.host.filter.erase line } }
      recheckAgain (retryHeld (if data = [] then b0 else gsWrite none (64 * line) (data.map (·, false)) b0)) := by
  cases data with
  | nil => exact if_pos h
  | cons x data => exact if_pos h

/-- An access that finds nothing waiting is tried at once. -/
theorem hdmAccess_of_alone (a : HdmAcc) (h : b.host.held = []) :
    hdmAccess a b =
      let x := { a with id := b.host.nextAcc }
      let r := hdmTry x { b with host := { b.host with nextAcc := b.host.nextAcc + 1 } }
      if r.2 then { r.1 with host := { r.1.host with held := [] } } else { r.1 with host := { r.1.host with held := [x] } } := by
  have hEmpty : ({ b with host := { b.host with nextAcc := b.host.nextAcc + 1, held := [] } } : Blk)
      = { b with host := { b.host with nextAcc := b.host.nextAcc + 1 } } := by rw [← h]
  simp only [hdmAccess, retryHeld, h, List.nil_append, retryList, List.any_nil, Bool.false_eq_true, if_false, hEmpty]
  split <;> rfl

variable (hr : hostReaches b = true)
include hr

theorem effHostMemAccess_of_reached (peer write caching : Bool) (off len : Nat) (data : List Byte) :
    effHostMemAccess peer write caching off len data b =
      hdmAccess { peer := peer, write := write, caching := caching, off := off, len := len, data := data } b := if_pos hr

theorem effHostSnoop_of_reached (addr : Nat) : effHostSnoop addr b = emit (.snoopRspIHitI addr) b := if_pos hr

theorem effBivouacBaseWrite_of_reached (v : W64) : effBivouacBaseWrite v b = bivouacBase v b := if_pos hr

theorem effBivouacWindowAccess_of_reached (write : Bool) (off len : Nat) (data : List Byte) :
    effBivouacWindowAccess write off len data b =
      if b.host.en then
        hdmAccess { peer := false, write := write, caching := false, off := windowOff b off, len := len, data := data } (bump Ctr.bvAccesses 0 1 b)
      else if write then b else emit (.hostCpl (List.replicate len (0xFF, false))) b := by
  simp only [effBivouacWindowAccess, hr, Bool.not_true, Bool.false_eq_true, if_false]

end

/-- The host's commands do nothing in a block that the host does not reach. -/
theorem exec_of_unreached {s : State} (hl : Live s) {c : Instr} {peer write caching : Bool} {off len addr : Nat} {data : List Byte} {v : W64}
    (ho : off < 2 ^ 32) (hLen : len ≤ 4096) (hData : data.length ≤ 4096) (ha : addr < 2 ^ 52) (hr : hostReaches s.b = false)
    (hc : c ∈ [Instr.hostMemAccess peer write caching off len data, .hostSnoop addr, .bivouacBaseWrite v,
      .bivouacWindowAccess write off len data]) : exec c s = .next (s.after s.b) := by
  have hNot : ¬(hostReaches s.b = true) := ne_true_of_eq_false hr
  simp only [List.mem_cons, List.not_mem_nil, or_false] at hc
  rcases hc with rfl | rfl | rfl | rfl
  · exact fireReady_eq hl (by simp only [Bool.and_eq_true, decide_eq_true_eq]; omega) (if_neg hNot)
  · exact fireReady_eq hl (decide_eq_true ha) (if_neg hNot)
  · exact fireReady_eq hl rfl (if_neg hNot)
  · exact fireReady_eq hl (by simp only [Bool.and_eq_true, decide_eq_true_eq]; omega) (if_pos (by rw [hr]; rfl))

/-- Settles O42: each command of the host, and each access by its die, its lines and the filter. -/
theorem hostAccessesReachMemory : Obligations.HostAccessesReachMemory := by
  refine ⟨fun s hl => ⟨fun c peer write caching off len data addr v ho hLen hData ha hr hc => exec_of_unreached hl ho hLen hData ha hr hc,
    fun line data hLine hData h => ?_, fun line data hLine hData h => ?_, fun hr => ⟨fun peer write caching off len data ho hLen hData => ?_,
      fun addr ha => ?_, fun v => ?_, fun write off len data ho hLen hData => ⟨fun hEn => ?_, fun hEn => ?_⟩⟩⟩,
    fun a b hd => ?_, fun a b hd => ?_⟩
  · have hOk : (decide (line < 2 ^ 35) && (data.length == 0 || data.length == 64)) = true := by
      simp only [Bool.and_eq_true, decide_eq_true_eq, Bool.or_eq_true, beq_iff_eq]
      exact ⟨hLine, hData⟩
    exact fireReady_eq hl hOk (effBisnpResponse_of_idle data h)
  · have hOk : (decide (line < 2 ^ 35) && (data.length == 0 || data.length == 64)) = true := by
      simp only [Bool.and_eq_true, decide_eq_true_eq, Bool.or_eq_true, beq_iff_eq]
      exact ⟨hLine, hData⟩
    exact fireReady_eq hl hOk (effBisnpResponse_of_snooped data h)
  · have hOk : (decide (off < 2 ^ 43) && decide (len ≤ 4096) && decide (data.length ≤ 4096)) = true := by
      simp only [Bool.and_eq_true, decide_eq_true_eq]
      exact ⟨⟨ho, hLen⟩, hData⟩
    intro a b0
    refine ⟨fireReady_eq hl hOk (effHostMemAccess_of_reached hr ..), fun hHeld => ?_⟩
    exact fireReady_eq hl hOk ((effHostMemAccess_of_reached hr ..).trans (hdmAccess_of_alone _ hHeld))
  · exact fireReady_eq hl (decide_eq_true ha) (effHostSnoop_of_reached hr addr)
  · exact fireReady_eq hl rfl (effBivouacBaseWrite_of_reached hr v)
  · have hOk : (decide (off < 2 ^ 32) && decide (len ≤ 4096) && decide (data.length ≤ 4096)) = true := by
      simp only [Bool.and_eq_true, decide_eq_true_eq]
      exact ⟨⟨ho, hLen⟩, hData⟩
    exact fireReady_eq hl hOk ((effBivouacWindowAccess_of_reached hr ..).trans (if_pos hEn))
  · have hOk : (decide (off < 2 ^ 32) && decide (len ≤ 4096) && decide (data.length ≤ 4096)) = true := by
      simp only [Bool.and_eq_true, decide_eq_true_eq]
      exact ⟨⟨ho, hLen⟩, hData⟩
    exact fireReady_eq hl hOk ((effBivouacWindowAccess_of_reached hr ..).trans (if_neg (ne_true_of_eq_false hEn)))
  · refine ⟨hdmTry_of_held hd, hdmTry_of_full hd, fun hs hf => ⟨hdmTry_of_write hd hs hf, fun hw hi => ?_, hdmTry_of_read hd hs hf⟩⟩
    exact (hdmTry_of_beyond hd hs hf hw hi).trans (congrArg (·, true) (if_pos hi).symm)
  · intro d pa
    refine ⟨hdmTry_of_training hd, fun hp hu ht => ⟨fun hw => ?_, fun hw => ?_⟩, fun hLost => ⟨fun hw => ?_, fun hw => ?_⟩⟩
    · exact (hdmTry_of_up hd hp hu ht).trans (congrArg (·, true) (if_pos hw))
    · exact (hdmTry_of_up hd hp hu ht).trans (congrArg (·, true) (if_neg (ne_true_of_eq_false hw)))
    · exact (hdmTry_of_lost hd hLost).trans (if_pos hw)
    · exact (hdmTry_of_lost hd hLost).trans (if_neg (ne_true_of_eq_false hw))

end Sys2Proof.Machine
end

section
/-! SUPPORT. Loss and return of the host (R259 to R263). -/
namespace Sys2Proof.Machine

/-! ### A WRITE of one value of its object -/

/-- A row that takes only some WRITEs of its object: what its action accepts is answered OK. -/
theorem runHead_written_ok {b c : Blk} {r : Req} {k n : Nat} {sel : Req → Bool} {act : WriteAct} (h : Written b k n r) (hs : sel r = true)
    (ha : act r.sub r.value b = .ok c) : runHead sel (runWrite act) b = c.answered r := by
  obtain ⟨hq, -, hx, row, hc⟩ := h
  simp [runHead, hq, hs, hx, runWrite, hc, ha, Blk.answered]

/-- What its action refuses is answered with the refusal. -/
theorem runHead_written_error {b : Blk} {r : Req} {k n : Nat} {sel : Req → Bool} {act : WriteAct} {e : DStatus} (h : Written b k n r)
    (hs : sel r = true) (ha : act r.sub r.value b = .error e) : runHead sel (runWrite act) b = refuse r e b := by
  obtain ⟨hq, -, hx, row, hc⟩ := h
  simp [runHead, hq, hs, hx, runWrite, hc, ha]

theorem isHostState_of_written {b : Blk} {r : Req} {v : Nat} (h : Written b Obj.hostState 1 r) (hv : r.value = v) : isHostState v r = true := by
  obtain ⟨-, hw, -, -⟩ := h
  simp [isHostState, hw, hv]

/-! ### Entries of the detach log -/

theorem gsWrite_hostState (c : Option Nat) (off : Nat) (d : List PByte) (b : Blk) : (gsWrite c off d b).host = b.host := by
  unfold gsWrite
  split
  · split <;> rfl
  · simp

theorem gsWriteB_hostState (off : Nat) (d : List Byte) (b : Blk) : (gsWriteB off d b).host.state = b.host.state := by
  unfold gsWriteB
  split
  · rw [gsWrite_hostState]
  · rfl

theorem gsWriteB_front (off : Nat) (d : List Byte) (b : Blk) : (gsWriteB off d b).front = b.front := front_of_rest (gsWriteB_rest off d b)

theorem detachEntry_hostState (ev : Nat) (fn q ctx : Option Nat) (a c : Nat) (b : Blk) :
    (detachEntry ev fn q ctx a c b).host.state = b.host.state := by
  simp only [detachEntry]
  split <;> simp only [gsWriteB_hostState] <;> split <;> rfl

theorem detachEntry_front (ev : Nat) (fn q ctx : Option Nat) (a c : Nat) (b : Blk) : (detachEntry ev fn q ctx a c b).front = b.front := by
  simp only [detachEntry]
  split <;> simp only [gsWriteB_front] <;> split <;> simp only [gsWriteB_front]

/-! ### Down, retrained, lost -/

section
variable {b : Blk}

theorem effHostLinkDown_of_attached (hl : b.straps.lead = true) (ha : b.host.active = true) (hs : b.host.state = 0) :
    effHostLinkDown b =
      detachEntry 1 none none none 0 0 (alert 2 { b with host := { b.host with active := false, state := 1, downAt := b.clk.aon } }) := by
  simp [effHostLinkDown, hl, ha, hs]

theorem effLinkRetrained_of_late (h : b.host.state ≠ 1 ∨ b.host.downAt + 200000 ≤ b.clk.aon) : effLinkRetrained b = b :=
  if_neg fun ⟨hs, ht⟩ => h.elim (· hs) (Nat.not_le.mpr ht)

theorem effHostLost_of_early {n : Nat} (h : b.host.state ≠ 1 ∨ b.clk.aon < b.host.downAt + 200000) : effHostLost false n b = b :=
  (if_neg (by decide)).trans (if_neg fun ⟨hs, ht⟩ => h.elim (· hs) (Nat.not_lt.mpr ht))

theorem effHostLost_of_late {n : Nat} (hs : b.host.state = 1) (ht : b.host.downAt + 200000 ≤ b.clk.aon) :
    effHostLost false n b = loseHost 0 n b := (if_neg (by decide)).trans (if_pos ⟨hs, ht⟩)

theorem effHostLinkActive_of_inactive (hl : b.straps.lead = true) (ha : b.host.active = false) (hs : b.host.state ≠ 1) :
    effHostLinkActive b = { b with host := { b.host with active := true, trainings := b.host.trainings + 1 } } :=
  if_pos (by simp [hl, ha, hs])

theorem hostPut_of_taken {u : UnitRef} {ctx : Option Nat} {shared : Bool} {pa : Nat} {d : List PByte} (h : hostRefuses b pa d.length = false) :
    (hostPut u ctx shared pa d b).2 = true ∧ (hostPut u ctx shared pa d b).1.hostMem = b.hostMem.write pa d ∧
      (hostPut u ctx shared pa d b).1.mem = b.mem := by
  unfold hostRefuses at h
  cases ctx <;> simp [hostPut, hostRefuses, bump, h]

theorem hostPut_of_refused {u : UnitRef} {ctx : Option Nat} {shared : Bool} {pa : Nat} {d : List PByte} (h : hostRefuses b pa d.length = true) :
    (hostPut u ctx shared pa d b).2 = false ∧ (hostPut u ctx shared pa d b).1.hostMem = b.hostMem := by
  unfold hostRefuses at h
  cases ctx <;> simp [hostPut, hostRefuses, bump, h, hostRefusal]

theorem issueOne_of_taken {w : HeldWrite} (h : (hostPut (w.unit.getD .block) w.ctx w.shared w.addr w.data b).2 = true) :
    issueOne w b = heldAnswer w (hostPut (w.unit.getD .block) w.ctx w.shared w.addr w.data b).1 := by
  unfold issueOne
  split
  next c hc => rw [hc]
  next c hc => exact absurd (h.symm.trans (congrArg Prod.snd hc)) (by simp)

theorem issueOne_of_refused {w : HeldWrite} (h : (hostPut (w.unit.getD .block) w.ctx w.shared w.addr w.data b).2 = false) :
    issueOne w b = heldAnswer w (heldGone .unreachable w (hostPut (w.unit.getD .block) w.ctx w.shared w.addr w.data b).1) := by
  unfold issueOne
  split
  next c hc => exact absurd (h.symm.trans (congrArg Prod.snd hc)) (by simp)
  next c hc => rw [hc]

/-! ### Queues with a ring in host memory -/

theorem detachOne_of_ring {n : Nat} (hx : (b.q n).st ∈ [QState.stopped, .running, .stalledEarly]) (hr : hostRings b n = true) :
    detachOne n b = detachQueue 4 n ((b.q n).fetch % 2 ^ 32) ((b.q n).written % 2 ^ 32)
      (b.setQ n { b.q n with st := .detached, burst := none, poll := none, stopping := false }) := by
  simp only [List.mem_cons, List.not_mem_nil, or_false] at hx
  obtain hx | hx | hx := hx <;> simp only [detachOne, hx, hr, if_true]

theorem detachOne_of_other {n : Nat} (h : (b.q n).st ∉ [QState.stopped, .running, .stalledEarly] ∨ hostRings b n = false) :
    detachOne n b = b := by
  simp only [detachOne]
  split <;> simp_all

/-! ### The return -/

/-- What re-attachment does to a queue (R263): a DETACHED one is STOPPED once nothing of it is in flight. -/
def reattachQueue (inflight : Nat) (x : Queue) : Queue :=
  match x.st with
  | .detached => if inflight = 0 then { x with st := .stopped } else { x with reattach := true }
  | _ => x

theorem reattachQueue_of_detached {n : Nat} {x : Queue} (h : x.st = .detached) :
    reattachQueue n x = if n = 0 then { x with st := .stopped } else { x with reattach := true } := by
  simp only [reattachQueue, h]

/-- Re-attachment of the first `k` queues. -/
def reattachTo (k : Nat) (b : Blk) : Blk := (List.range k).foldl (fun b n => b.modQ n (reattachQueue (b.inflight n))) b

theorem attachHost_of_lost (hs : b.host.state = 2) (ha : b.host.active = true) :
    attachHost b = .ok (detachEntry 7 none none none 0 0 (reattachTo 256 { b with host := { b.host with state := 0 } })) :=
  (if_pos ⟨hs, ha⟩).trans rfl

theorem attachHost_of_other (h : b.host.state ≠ 2 ∨ b.host.active = false) : attachHost b = .error .range :=
  if_neg fun ⟨hs, ha⟩ => h.elim (· hs) (fun hf => absurd (ha.symm.trans hf) (by decide))

theorem reattachTo_host (k : Nat) : (reattachTo k b).host = b.host := 
  foldl_keeps Blk.host (fun b n => b.modQ n (reattachQueue (b.inflight n))) (fun _ _ => rfl) _ b

theorem reattachTo_inflight (k n : Nat) : (reattachTo k b).inflight n = b.inflight n :=
  foldl_keeps (fun b : Blk => b.inflight n) (fun b n => b.modQ n (reattachQueue (b.inflight n))) (fun _ _ => rfl) _ b

theorem reattachTo_q (k n : Nat) : (reattachTo k b).q n = if n < k then reattachQueue (b.inflight n) (b.q n) else b.q n := by
  induction k with
  | zero => rfl
  | succ k ih =>
    have hstep : reattachTo (k + 1) b = (reattachTo k b).modQ k (reattachQueue ((reattachTo k b).inflight k)) := by
      simp only [reattachTo, List.range_succ, List.foldl_append, List.foldl_cons, List.foldl_nil]
    rw [hstep, Blk.modQ, q_setQ, reattachTo_inflight]
    by_cases hn : n = k
    · subst hn
      simp [ih]
    · rw [if_neg hn, ih]
      exact if_congr (by omega) rfl rfl

end

/-! ### The host's loss -/

theorem loseHost_of_lost {cause n : Nat} {b : Blk} (h : b.host.state = 2) : loseHost cause n b = b := if_pos h

/-- The writes that are discarded when the host is lost are counted (R261). -/
theorem counter_discarded (n : Nat) (b : Blk) (h : HostSide) :
    counter (bump Ctr.hsWritesDiscarded 0 n { (if b.host.state = 0 then alert 2 b else b) with host := h }) Ctr.hsWritesDiscarded 0 =
      (counter b Ctr.hsWritesDiscarded 0 + n) % 2 ^ 64 := by
  rw [counter_bump _ _ (by decide) (by decide), if_pos ⟨rfl, rfl⟩]
  split <;> rfl

/-- Settles O43: the link's events by the host's state and time, a held write by whether the host refuses it, and re-attachment queue by
queue over their table. -/
theorem hostLossDetachesAndReattaches : Obligations.HostLossDetachesAndReattaches := by
  refine ⟨fun s hl => ⟨fun hlead ha hs => fireReady_eq hl rfl (effHostLinkDown_of_attached hlead ha hs),
      fun hs ht => fireReady_eq hl rfl (if_pos ⟨hs, ht⟩), fun h => fireReady_eq hl rfl (effLinkRetrained_of_late h),
      fun n hn => ⟨fun hs ht => fireReady_eq hl (decide_eq_true hn) (effHostLost_of_late hs ht),
        fun h => fireReady_eq hl (decide_eq_true hn) (effHostLost_of_early h)⟩,
      fun n r hn hw => ⟨fun hv => fireReady_eq hl (decide_eq_true hn) (runHead_written_ok hw (isHostState_of_written hw hv) rfl),
        fun hv => ⟨fun c hc => fireReady_eq hl rfl (runHead_written_ok hw (isHostState_of_written hw hv) hc),
          fun h => fireReady_eq hl rfl (runHead_written_error hw (isHostState_of_written hw hv) (attachHost_of_other h))⟩⟩,
      fun hlead ha hs => fireReady_eq hl rfl (effHostLinkActive_of_inactive hlead ha hs)⟩,
    fun b => rfl,
    fun w b => ⟨fun h => ⟨(hostPut_of_taken h).1, (hostPut_of_taken h).2.1, (hostPut_of_taken h).2.2, issueOne_of_taken (hostPut_of_taken h).1⟩,
      fun h => ⟨(hostPut_of_refused h).1, (hostPut_of_refused h).2, issueOne_of_refused (hostPut_of_refused h).1⟩,
      fun h => by simp only [heldAnswer, h], fun x h => by simp only [heldAnswer, h]⟩,
    fun cause n b => ⟨loseHost_of_lost, fun h => ⟨?_, ?_, ?_⟩⟩,
    fun q b => ⟨detachOne_of_ring, detachOne_of_other⟩,
    fun b hs ha => ⟨_, attachHost_of_lost hs ha, ?_, fun n hn hd => ?_⟩⟩
  · simp only [bump]
    split <;> rfl
  · exact (counter_discarded _ b _).trans (by rw [Nat.add_assoc])
  · refine (if_neg h).trans ?_
    rfl
  · rw [detachEntry_hostState, reattachTo_host]
  · rw [Blk.q, detachEntry_front, ← Blk.q, reattachTo_q, if_pos hn]
    exact reattachQueue_of_detached hd

end Sys2Proof.Machine
end

section
/-! SUPPORT. Functions that are disabled and drained (R264 to R267). -/
namespace Sys2Proof.Machine

/-! ### A function's queues and peg counters -/

theorem fnQueues_contains {b : Blk} {f q : Nat} (hq : q < 256) : (fnQueues b f).contains q = owns b f q := by
  rw [Bool.eq_iff_iff]
  simp [fnQueues, hq]

theorem fnQueues_not_contains {b : Blk} {f q : Nat} (h : owns b f q = false) : (fnQueues b f).contains q = false := by
  simp [fnQueues, h]

/-- The block without the queues and peg counters of a function that has drained (R267). -/
def Blk.emptied (b : Blk) (f : Nat) : Blk :=
  { b with front := { b.front with
      queues := b.front.queues.filter (fun e => !(fnQueues b f).contains e.1)
      pegs := b.front.pegs.filter (fun e => !ownsCtx b f (e.1 / 64)) } }

section
variable {b : Blk} {f : Nat}

theorem emptied_q_of_owned {q : Nat} (hq : q < 256) (h : owns b f q = true) : (b.emptied f).q q = {} := by
  refine (Tbl.get_filter {} (fun k => !(fnQueues b f).contains k) q b.front.queues).trans (if_neg ?_)
  rw [fnQueues_contains hq, h]
  decide

theorem emptied_q_of_other {q : Nat} (h : owns b f q = false) : (b.emptied f).q q = b.q q := by
  refine (Tbl.get_filter {} (fun k => !(fnQueues b f).contains k) q b.front.queues).trans (if_pos ?_)
  rw [fnQueues_not_contains h]
  rfl

theorem emptied_peg {c n : Nat} (hn : n < 64) : (b.emptied f).peg c n = if ownsCtx b f c then 0 else b.peg c n := by
  refine (Tbl.get_filter 0 (fun k => !ownsCtx b f (k / 64)) (pegKey c n) b.front.pegs).trans ?_
  rw [show pegKey c n / 64 = c by unfold pegKey; omega]
  cases ownsCtx b f c <;> rfl

/-! ### The events that disable -/

theorem effFlr_of_reached (h : hostReaches b = true) :
    effFlr f b = disableFn 1 f (if f = 0 then { b with host := { b.host with base := 0, en := false } } else b) := if_pos h

theorem effFlr_of_unreached (h : hostReaches b = false) : effFlr f b = b := if_neg (ne_true_of_eq_false h)

theorem effVfEnable_of_unreached {on : Bool} (h : hostReaches b = false) : effVfEnable on b = b := if_pos (by rw [h]; rfl)

theorem effVfEnable_false (h : hostReaches b = true) :
    effVfEnable false b = ((List.range 63).map (· + 1)).foldl (fun b f => disableOne 2 f b)
      { b with host := { b.host with vfEnable := false } } := (if_neg (by rw [h]; decide)).trans rfl

theorem effVfEnable_true (h : hostReaches b = true) :
    effVfEnable true b = ((List.range 63).map (· + 1)).foldl (fun b f => enableFn f b)
      { b with host := { b.host with vfEnable := true } } := (if_neg (by rw [h]; decide)).trans rfl

theorem effBusMaster_of_unreached {on : Bool} (h : hostReaches b = false) : effBusMaster f on b = b := if_pos (by rw [h]; rfl)

theorem effBusMaster_false (h : hostReaches b = true) :
    effBusMaster f false b = disableFn 3 f (b.setFn f { b.fn f with busMasterOff := true }) := (if_neg (by rw [h]; decide)).trans rfl

theorem effBusMaster_true (h : hostReaches b = true) :
    effBusMaster f true b = enableFn f (b.setFn f { b.fn f with busMasterOff := false }) := (if_neg (by rw [h]; decide)).trans rfl

theorem disableFn_of_physical {tr : Nat} (hl : b.straps.lead = true) :
    disableFn tr 0 b = (List.range 64).foldl (fun b f => disableOne tr f b) b := if_pos (by simp [hl])

theorem disableFn_of_other {tr : Nat} (h : f ≠ 0 ∨ b.straps.lead = false) : disableFn tr f b = disableOne tr f b :=
  if_neg (by obtain h | h := h <;> simp [h])

theorem disableOne_of_disabled {tr : Nat} (ht : (b.fn f).trigger ≠ none) (h : (b.fn f).drained = false ∨ tr ≠ 1) : disableOne tr f b = b :=
  if_pos (by obtain h | h := h <;> simp [Option.isSome_iff_ne_none, ht, h])

/-- A disable that begins: the dies that serve the function's queues are told, and its queues drain (R265). -/
theorem disableOne_of_enabled {tr : Nat} (h : (b.fn f).trigger = none ∨ ((b.fn f).drained = true ∧ tr = 1)) :
    let dies := fnDies f b
    let b1 := b.setFn f { b.fn f with
      trigger := some (tr, b.clk.half), drained := false, graceOver := false, told := ((b.fn f).told ++ dies).eraseDups }
    let b2 := dies.foldl (fun b d => tellDie f 1 d b) b1
    disableOne tr f b = (fnQueues b2 f).foldl (fun b n => drainQueue n b) (detachEntry 8 (some f) none none tr 0 b2) := by
  have hc : ¬ ((b.fn f).trigger.isSome && !((b.fn f).drained && tr == 1)) = true := by
    obtain h | ⟨h, ht⟩ := h
    · simp [h]
    · simp [h, ht]
  exact if_neg hc

theorem enableFn_of_drained (hd : (b.fn f).drained = true) (hm : (b.fn f).busMasterOff = false) (hv : f = 0 ∨ b.host.vfEnable = true)
    (ho : b.obj (Obj.fnDisable + f) 0 = 0) : enableFn f b = (b.fn f).told.foldl (fun b d => tellDie f 0 d b) (b.setFn f {}) :=
  if_pos (by
    rw [hd, hm, show b.obj (Obj.fnDisable + f) 0 = 0 from ho]
    obtain hv | hv := hv <;> simp [hv])

theorem enableFn_of_held (h : (b.fn f).drained = false ∨ (b.fn f).busMasterOff = true ∨ (f ≠ 0 ∧ b.host.vfEnable = false) ∨
    b.obj (Obj.fnDisable + f) 0 ≠ 0) : enableFn f b = b :=
  if_neg (by
    intro hc
    simp only [Bool.and_eq_true, Bool.or_eq_true, Bool.not_eq_true', beq_iff_eq] at hc
    obtain ⟨⟨⟨hd, hm⟩, hv⟩, ho⟩ := hc
    obtain h | h | ⟨h, hn⟩ | h := h
    · exact absurd (hd.symm.trans h) (by decide)
    · exact absurd (hm.symm.trans h) (by decide)
    · exact hv.elim h (fun hv => absurd (hv.symm.trans hn) (by decide))
    · exact h ho)

/-! ### A queue that drains -/

/-- The queue of a drain, on the die that serves it: no fetching and no waiting (R265). -/
def Blk.draining (b : Blk) (n : Nat) : Blk :=
  b.modQ n (fun x => { x with st := .draining, burst := none, poll := none, stopping := false, reattach := false })

/-- What a drain does to one descriptor (R265, R266). -/
def drainDesc (b : Blk) (id : Nat) : Blk :=
  match b.desc? id with
  | none => b
  | some d =>
    if d.stage = .complete then b
    else if d.hasStarted then (if d.opcode = 0x05 then completeWith id .ok 0 0 b else b)
    else stopDesc id .disabled b

theorem drainQueue_of_served {n : Nat} (h : servedBy b n = b.ident.die) :
    drainQueue n b = (((b.draining n).descsOf n).map (·.id)).foldl drainDesc (b.draining n) := by
  simp only [drainQueue, Blk.draining, h, ne_eq, not_true_eq_false, if_false]
  rfl

theorem drainQueue_of_empty {n : Nat} (h : servedBy b n = b.ident.die) (hd : (b.draining n).descsOf n = []) :
    drainQueue n b = b.draining n := by
  rw [drainQueue_of_served h, hd]
  rfl

theorem drainQueue_of_one {n : Nat} {d : Desc} (h : servedBy b n = b.ident.die) (hd : (b.draining n).descsOf n = [d]) :
    drainQueue n b = drainDesc (b.draining n) d.id := by
  rw [drainQueue_of_served h, hd]
  rfl

section
variable {d : Desc} (hd : b.desc? d.id = some d)
include hd

theorem drainDesc_of_complete (hs : d.stage = .complete) : drainDesc b d.id = b := by
  simp only [drainDesc, hd, hs, if_true]

theorem drainDesc_of_waiting (hs : d.stage ≠ .complete) (hn : d.hasStarted = false) : drainDesc b d.id = stopDesc d.id .disabled b := by
  simp only [drainDesc, hd, if_neg hs, hn]
  rfl

theorem drainDesc_of_started (hs : d.stage ≠ .complete) (hn : d.hasStarted = true) :
    drainDesc b d.id = if d.opcode = 0x05 then completeWith d.id .ok 0 0 b else b := by
  simp only [drainDesc, hd, if_neg hs, hn, if_true]

/-! ### The end of the grace period -/

theorem graceEnd_of_complete (hs : d.stage = .complete) : graceEnd d.id b = (b, false) := by
  simp only [graceEnd, hd, hs, if_true]

theorem graceEnd_of_units (hs : d.stage ≠ .complete) (ho : tileStop d.opcode = true ∨ d.opcode = 0x03 ∨ d.opcode = 0x23) :
    graceEnd d.id b = (stopDesc d.id .cancelled b, true) := by
  have hc : (tileStop d.opcode || d.opcode == 0x03 || d.opcode == 0x23) = true := by
    obtain ho | ho | ho := ho <;> simp [ho]
  simp only [graceEnd, hd, if_neg hs, hc, if_true]

theorem graceEnd_of_bias {r : BiasRun} (hs : d.stage ≠ .complete) (hw : d.work = .bias r) (ho : d.opcode = 0x31) :
    graceEnd d.id b =
      (let b1 := modBias d.id (fun r => { r with stopped := true }) (forgetUnit (.desc d.id) b)
       (if r.waiting then b1 else biasEnd d.id b1, true)) := by
  have hc : (tileStop d.opcode || d.opcode == 0x03 || d.opcode == 0x23) = false := by rw [ho]; rfl
  simp only [graceEnd, hd, if_neg hs, hc, hw]
  rfl

theorem graceEnd_of_refresh {r : RefreshRun} (hs : d.stage ≠ .complete) (hw : d.work = .refresh r) (ho : d.opcode = 0x24) :
    graceEnd d.id b =
      (let b1 := modRefresh d.id (fun r => { r with done := true }) (addStatus d.id .cancelled b)
       (refreshClose d.id (forgetUnit (.desc d.id) (closeTree d.id b1)), true)) := by
  have hc : (tileStop d.opcode || d.opcode == 0x03 || d.opcode == 0x23) = false := by rw [ho]; rfl
  simp only [graceEnd, hd, if_neg hs, hc, hw]
  rfl

end

section
variable {tr t : Nat} (ht : (b.fn f).trigger = some (tr, t))
include ht

theorem effGraceExpiry_of_idle (h : (b.fn f).graceOver = true ∨ (b.fn f).drained = true ∨ b.clk.half < t + 180000) :
    effGraceExpiry f b = b := by
  have hc : ((b.fn f).graceOver || (b.fn f).drained || decide (b.clk.half < t + 180000)) = true := by
    obtain h | h | h := h <;> simp [h]
  simp only [effGraceExpiry, ht, hc, if_true]

theorem effGraceExpiry_of_due (hg : (b.fn f).graceOver = false) (hd : (b.fn f).drained = false) (hh : t + 180000 ≤ b.clk.half) :
    let b1 := b.setFn f { b.fn f with graceOver := true }
    let r := ((fnQueues b1 f).flatMap (fun n => (b1.descsOf n).map (·.id))).foldl
      (fun (a : Blk × Nat) id => ((graceEnd id a.1).1, a.2 + boolNat (graceEnd id a.1).2)) (b1, 0)
    effGraceExpiry f b = detachEntry 9 (some f) none none r.2 0 (bump Ctr.fnAborted 0 r.2 r.1) := by
  have hc : ((b.fn f).graceOver || (b.fn f).drained || decide (b.clk.half < t + 180000)) = false := by simp [hg, hd, hh]
  simp only [effGraceExpiry, ht, hc]
  rfl

theorem effFunctionDrained_of_live (h : (b.fn f).drained = true ∨ b.front.descs.any (fun d => (fnQueues b f).contains d.q) = true) :
    effFunctionDrained f b = b := by
  have hc : ((b.fn f).drained || b.front.descs.any (fun d => (fnQueues b f).contains d.q)) = true := by
    obtain h | h := h <;> rw [h] <;> simp
  simp only [effFunctionDrained, ht]
  exact if_pos hc

variable (hd : (b.fn f).drained = false) (hn : b.front.descs.any (fun d => (fnQueues b f).contains d.q) = false)
include hd hn

theorem effFunctionDrained_of_away (h : b.front.queueDie.any (fun e => (fnQueues b f).contains e.1) = true) :
    effFunctionDrained f b = askDrained f b := by
  simp only [effFunctionDrained, ht]
  exact (if_neg (by rw [hd, hn]; decide)).trans (if_pos h)

theorem effFunctionDrained_of_empty (h : b.front.queueDie.any (fun e => (fnQueues b f).contains e.1) = false) :
    effFunctionDrained f b =
      enableFn f ((if tr = 1 ∨ tr = 2 then b.emptied f else (b.emptied f).setObj (Obj.fnDisable + f) 1).setFn f
        { b.fn f with drained := true }) := by
  simp only [effFunctionDrained, ht]
  exact (if_neg (by rw [hd, hn]; decide)).trans (if_neg (ne_true_of_eq_false h))

end

theorem effGraceExpiry_of_enabled (ht : (b.fn f).trigger = none) : effGraceExpiry f b = b := by simp only [effGraceExpiry, ht]

theorem effFunctionDrained_of_enabled (ht : (b.fn f).trigger = none) : effFunctionDrained f b = b := by simp only [effFunctionDrained, ht]

end

/-- Settles O44: each disabling event by its condition, the drain descriptor by descriptor, and the emptied tables by their keys. -/
theorem functionsDisableAndDrain : Obligations.FunctionsDisableAndDrain := by
  refine ⟨fun s hl => ⟨fun f on hf hr c hc => ?_, fun f hf hr => ⟨fireReady_eq hl (decide_eq_true hf) (effFlr_of_reached hr),
        fireReady_eq hl (decide_eq_true hf) (effBusMaster_false hr), fireReady_eq hl (decide_eq_true hf) (effBusMaster_true hr)⟩,
      fun hr => ⟨fireReady_eq hl rfl (effVfEnable_false hr), fireReady_eq hl rfl (effVfEnable_true hr)⟩,
      fun r hw => fireReady_eq hl rfl (onWrite_ok hw rfl),
      fun f hf ht => ⟨fireReady_eq hl (decide_eq_true hf) (effGraceExpiry_of_enabled ht),
        fireReady_eq hl (decide_eq_true hf) (effFunctionDrained_of_enabled ht)⟩,
      fun f tr t hf ht => ⟨fun h => fireReady_eq hl (decide_eq_true hf) (effGraceExpiry_of_idle ht h),
        fun hg hd hh => fireReady_eq hl (decide_eq_true hf) (effGraceExpiry_of_due ht hg hd hh),
        fun h => fireReady_eq hl (decide_eq_true hf) (effFunctionDrained_of_live ht h),
        fun hd hn h => fireReady_eq hl (decide_eq_true hf) (effFunctionDrained_of_away ht hd hn h),
        fun hd hn h => ⟨fireReady_eq hl (decide_eq_true hf) (effFunctionDrained_of_empty ht hd hn h),
          fun q hq ho => emptied_q_of_owned hq ho, fun q ho => emptied_q_of_other ho, fun c n hn => emptied_peg hn⟩⟩⟩,
    fun tr f b => ⟨fun hf h => hf ▸ disableFn_of_physical h, disableFn_of_other, disableOne_of_disabled, disableOne_of_enabled,
      enableFn_of_drained, enableFn_of_held⟩,
    fun n b hs => ⟨drainQueue_of_empty hs, fun d hd hf => ⟨fun h => (drainQueue_of_one hs hd).trans (drainDesc_of_complete hf h),
      fun h hn => (drainQueue_of_one hs hd).trans (drainDesc_of_waiting hf h hn),
      fun h hn => (drainQueue_of_one hs hd).trans (drainDesc_of_started hf h hn)⟩⟩,
    fun d b hd => ⟨graceEnd_of_complete hd, graceEnd_of_units hd, fun r => graceEnd_of_bias hd, fun r => graceEnd_of_refresh hd⟩⟩
  simp only [List.mem_cons, List.not_mem_nil, or_false] at hc
  obtain rfl | rfl | rfl := hc
  · exact fireReady_eq hl (decide_eq_true hf) (effFlr_of_unreached hr)
  · exact fireReady_eq hl rfl (effVfEnable_of_unreached hr)
  · exact fireReady_eq hl (decide_eq_true hf) (effBusMaster_of_unreached hr)

end Sys2Proof.Machine
end

section
/-! SUPPORT. Flits of the die-to-die link (R273, R280, R281). -/
namespace Sys2Proof.Machine

theorem hcrcOk_iff (l : List Byte) : hcrcOk l = true ↔ field l 14 2 = crc16 (l.take 14) := beq_iff_eq

/-! ### Acknowledgement and credits -/

section
variable {p : Nat} {b : Blk}

theorem takeCredit_of_valid {w : Nat} (h : w.testBit 3 = true) :
    ((takeCredit p w b).link p).credits = (b.link p).credits.set (w % 8) ((b.link p).credits.getD (w % 8) 0 + w / 16) := by
  rw [takeCredit, if_pos h, link_setLink, if_pos rfl]

theorem takeCredit_of_empty {w : Nat} (h : w.testBit 3 = false) : takeCredit p w b = b := if_neg (ne_true_of_eq_false h)

section
variable {ack : Nat} {f : FlitR} {rest : List FlitR} (hr : (b.link p).replay = f :: rest)
include hr

theorem ackTo_of_covered (hk : (ack + 4096 - f.seq) % 4096 + 1 ≤ rest.length + 1) :
    ((ackTo p ack b).link p).replay = (f :: rest).drop ((ack + 4096 - f.seq) % 4096 + 1) ∧
      ((ackTo p ack b).link p).inFlight =
        (b.link p).inFlight.filter (fun e => decide ((ack + 4096 - f.seq) % 4096 + 1 ≤ (e.1 + 4096 - f.seq) % 4096)) := by
  simp only [ackTo, hr, List.length_cons, if_pos hk, link_setLink, if_true, and_self]

theorem ackTo_of_uncovered (hk : rest.length + 1 < (ack + 4096 - f.seq) % 4096 + 1) : ackTo p ack b = b := by
  simp only [ackTo, hr, List.length_cons, if_neg (Nat.not_le.mpr hk)]

end

/-! ### A flit -/

variable {bytes : List Byte}

theorem effD2dFlit_of_down (h : b.linkUp p = false) : effD2dFlit p bytes b = b := if_pos (by rw [h]; rfl)

theorem effD2dFlit_of_badHeader (h : b.linkUp p = true) (hc : field bytes 14 2 ≠ crc16 (bytes.take 14)) :
    effD2dFlit p bytes b = sendNak p (bump Ctr.ddCrcErrors p 1 b) := by
  have hc' : hcrcOk bytes = false := Bool.eq_false_iff.mpr (mt (hcrcOk_iff bytes).mp hc)
  exact (if_neg (by rw [h]; decide)).trans (if_pos (by rw [hc']; rfl))

/-- What a flit with a sound header does before its payload: its acknowledgement and credits act, what waited goes out, and a NAK acts. -/
def flitWords (p : Nat) (bytes : List Byte) (b : Blk) : Blk :=
  let b0 := takeWords p bytes b
  let b1 := d2dPump p ((b0.link p).wait.length + 1) b0
  if bitsOf (field bytes 0 2) 13 12 < 2 ∧ (field bytes 2 2).testBit 12 = true then takeNak p (field bytes 2 2 % 4096) b1 else b1

/-- The payload of a flit with a sound header (R281). -/
def flitData (p : Nat) (bytes : List Byte) (b : Blk) : Blk :=
  if bitsOf (field bytes 0 2) 13 12 = 0 ∧ b.linkUp p = true then
    if field bytes 0 2 % 4096 = (b.link p).rxNext then takeData p bytes b
    else
      let b3 := bump Ctr.ddCrcErrors p 1 b
      if (b3.link p).nakOut then b3 else sendNak p b3
  else b

theorem effD2dFlit_of_sound (h : b.linkUp p = true) (hc : field bytes 14 2 = crc16 (bytes.take 14)) :
    effD2dFlit p bytes b = flitData p bytes (flitWords p bytes b) := by
  refine (if_neg (by rw [h]; decide)).trans ((if_neg (by rw [(hcrcOk_iff bytes).mpr hc]; decide)).trans ?_)
  simp only [Bool.and_eq_true, decide_eq_true_eq]
  rfl

theorem flitData_of_other (h : bitsOf (field bytes 0 2) 13 12 ≠ 0 ∨ b.linkUp p = false) : flitData p bytes b = b :=
  if_neg fun ⟨ht, hu⟩ => h.elim (· ht) (fun hf => absurd (hu.symm.trans hf) (by decide))

theorem flitData_of_expected (ht : bitsOf (field bytes 0 2) 13 12 = 0) (hu : b.linkUp p = true)
    (hs : field bytes 0 2 % 4096 = (b.link p).rxNext) : flitData p bytes b = takeData p bytes b := (if_pos ⟨ht, hu⟩).trans (if_pos hs)

theorem flitData_of_unexpected (ht : bitsOf (field bytes 0 2) 13 12 = 0) (hu : b.linkUp p = true)
    (hs : field bytes 0 2 % 4096 ≠ (b.link p).rxNext) :
    flitData p bytes b =
      (let b3 := bump Ctr.ddCrcErrors p 1 b
       if (b3.link p).nakOut then b3 else sendNak p b3) := (if_pos ⟨ht, hu⟩).trans (if_neg hs)

/-! ### The payload of the expected flit -/

/-- The walk over the slots of the expected flit of die p. -/
def dataWalk (p : Nat) (bytes : List Byte) (b : Blk) : Walk :=
  let l := b.link p
  let seq := field bytes 0 2 % 4096
  let i := if l.rxBuf = [] then max (byteAt bytes 8 % 16) l.rxSkip else 0
  walkSlots true seq i ((pieces 16 (bytes.drop 16)).drop i) l.rxBuf (l.rxStart, l.rxSlot) []

theorem takeData_of_ok {buf : List Byte} {at_ : Nat × Nat} {ks : List (List Byte)} (h : dataWalk p bytes b = .ok buf at_ ks) :
    let b1 := b.setLink p { b.link p with
      rxNext := (field bytes 0 2 % 4096 + 1) % 4096, rxBuf := buf, rxStart := at_.1, rxSlot := at_.2, rxSkip := 0, nakOut := false }
    takeData p bytes b = ks.foldl (fun b k => acceptD2d p k b) (d2dIdle p 0 0 false (b1.link p).ackSeq b1) := by
  simp only [dataWalk] at h
  simp only [takeData, List.isEmpty_iff, h]

theorem takeData_of_bad {at_ : Nat × Nat} {ks : List (List Byte)} (h : dataWalk p bytes b = .bad at_ ks) :
    let b1 := b.setLink p { b.link p with rxNext := at_.1, rxBuf := [], rxStart := at_.1, rxSlot := 0, rxSkip := at_.2 }
    takeData p bytes b = sendNak p (bump Ctr.ddCrcErrors p 1 (ks.foldl (fun b k => acceptD2d p k b) b1)) := by
  simp only [dataWalk] at h
  simp only [takeData, List.isEmpty_iff, h]

theorem sendNak_nakOut : ((sendNak p b).link p).nakOut = true :=
  congrArg Link.nakOut ((link_setLink b p p _).trans (if_pos rfl))

theorem sendNak_out : (sendNak p b).out = b.out ++ [.d2dFlit p (d2dFlitBytes 0 1 (lastSeq (b.link p).rxNext) true 0 0 15 [])] := rfl

end

/-- Settles O45: a flit by its link, its header and its type; the walk's outcomes; and the words of an acknowledgement by cases. -/
theorem d2dFlitsAreTakenInOrder : Obligations.D2dFlitsAreTakenInOrder := by
  refine ⟨fun s p bytes hl hp hn => ?_, fun p bytes b => rfl, fun p b w => ⟨takeCredit_of_valid, takeCredit_of_empty⟩,
    fun p ack f rest b hr => ⟨ackTo_of_covered hr, ackTo_of_uncovered hr⟩,
    fun p bytes b => ⟨fun buf at_ ks => takeData_of_ok, fun at_ ks => takeData_of_bad⟩,
    fun p b => ⟨sendNak_nakOut, sendNak_out⟩⟩
  have hOk : (decide (p < 4) && bytes.length == 256) = true := by simp [hp, hn]
  refine ⟨fun hu => fireReady_eq hl hOk (effD2dFlit_of_down hu), fun hu hc => fireReady_eq hl hOk (effD2dFlit_of_badHeader hu hc),
    fun hu hc => ⟨fun h => fireReady_eq hl hOk ((effD2dFlit_of_sound hu hc).trans (flitData_of_other h)),
      fun ht hw => ⟨fun hs => fireReady_eq hl hOk ((effD2dFlit_of_sound hu hc).trans (flitData_of_expected ht hw hs)),
        fun hs => fireReady_eq hl hOk ((effD2dFlit_of_sound hu hc).trans (flitData_of_unexpected ht hw hs))⟩⟩⟩

end Sys2Proof.Machine
end

section
/-! SUPPORT. Training and capabilities of the die-to-die link (R283 to R288). -/
namespace Sys2Proof.Machine

section
variable {p : Nat} {b : Blk}

/-! ### Training -/

theorem answers_eq (p : Nat) (b : Blk) : answers p b = (decide (p ≠ b.ident.die) && decide (b.moduleMap p ≠ 0)) := by
  simp [answers]

/-- What RETRAIN of the peer does in each state of the link (R285). -/
theorem effRetrain_eq : effRetrain p b =
    match (b.link p).state with
    | .up => propose p (retrainNow p b)
    | .training => propose p b
    | .absent => if answers p b then propose p (startTrain p 1 false b) else b
    | .down => b := by
  unfold effRetrain
  cases (b.link p).state <;> rfl

/-- What LINK_RESET of the peer does in each state of the link (R283). -/
theorem effLinkReset_eq : effLinkReset p b =
    match (b.link p).state with
    | .up | .down => propose p (startTrain p 1 false (clearLink p 1 b))
    | .training => let b0 := if (b.link p).keep then clearLink p 1 b else b
      propose p (b0.setLink p ((b0.link p).fresh false))
    | .absent => if answers p b then propose p (startTrain p 1 false b) else b := by
  unfold effLinkReset
  cases (b.link p).state <;> rfl

section
variable {port q : Nat} {high : Bool}

theorem effD2dHalfFail_of_up (h : (List.range 4).find? (fun q => (b.moduleMap q).testBit port && b.linkUp q) = some p) :
    effD2dHalfFail port high b = retrainNow p { b with d2d := { b.d2d with bad := b.d2d.bad.set (2 * port + boolNat high) true } } := by
  unfold effD2dHalfFail
  dsimp only
  split
  next q hq => rw [Option.some.inj (h.symm.trans hq)]
  next hq => exact absurd (h.symm.trans hq) (by simp)

theorem effD2dHalfFail_of_none (h : (List.range 4).find? (fun q => (b.moduleMap q).testBit port && b.linkUp q) = none) :
    effD2dHalfFail port high b = { b with d2d := { b.d2d with bad := b.d2d.bad.set (2 * port + boolNat high) true } } := by
  unfold effD2dHalfFail
  dsimp only
  split
  next q hq => exact absurd (h.symm.trans hq) (by simp)
  next hq => rfl

end

/-- Firmware's reset of a link (R283): one that has not trained stays as it is. -/
theorem whenTrue_linkReset {s v : Nat} (hv : v = 1) :
    whenTrue (fun p b => match (b.link p).state with
      | .absent => b
      | _ => linkResetNow p 0 b) s v b = .ok (if (b.link s).state = .absent then b else startTrain s 2 false (clearLink s 0 b)) := by
  simp only [whenTrue, if_pos hv]
  split
  next hs => rw [if_pos hs]
  next hs => rw [if_neg hs, linkResetNow]

section
variable {attempt halves : Nat}

theorem effProposal_of_waiting (hs : (b.link p).state = .training) (ha : (b.link p).attempts = 0) :
    effProposal p 1 halves b = attemptAt p 1 (((propose p b).link p).vector &&& halves) (propose p b) := if_pos ⟨hs, ha, rfl⟩

theorem effProposal_of_other (h : (b.link p).state ≠ .training ∨ (b.link p).attempts ≠ 0) : effProposal p 1 halves b = b :=
  if_neg fun ⟨hs, ha, _⟩ => h.elim (· hs) (· ha)

section
variable (hat : attempting (b.link p) = true)
include hat

theorem effTrainingAttemptEnd_of_attempting (hm : (b.link p).mine = none) :
    let l := b.link p
    let m := halves &&& l.vector
    let ms := modulesOf b p
    let bad := (List.range ms.length).flatMap (fun i => [0, 1].filterMap (fun h =>
      if l.vector.testBit (2 * i + h) && !(m.testBit (2 * i + h)) then some (2 * ms.getD i 0 + h) else none))
    let b0 : Blk := { b with d2d := { b.d2d with bad := bad.foldl (fun t k => t.set k true) b.d2d.bad } }
    effTrainingAttemptEnd p halves b = judgeAttempt p (sideband p 4 l.attempts m 0 (b0.setLink p { l with mine := some m })) :=
  if_pos (by rw [hat, hm]; rfl)

theorem effResult_of_attempting (ht : (b.link p).theirs = none) :
    effResult p (b.link p).attempts halves b = judgeAttempt p (b.setLink p { b.link p with theirs := some halves }) :=
  if_pos (by rw [hat, ht, beq_self_eq_true]; rfl)

theorem effTrainingTimeout_of_due (hd : (b.link p).began + 20000 ≤ b.clk.aon) (h : (b.link p).mine = none ∨ (b.link p).theirs = none) :
    effTrainingTimeout p b = judgeAttempt p
      (b.setLink p { b.link p with mine := some ((b.link p).mine.getD 0), theirs := some ((b.link p).theirs.getD 0) }) := by
  have hn : ((b.link p).mine.isNone || (b.link p).theirs.isNone) = true := by obtain h | h := h <;> simp [h]
  exact if_pos (by rw [hat, decide_eq_true hd, hn]; rfl)

end
end

theorem judgeAttempt_of_both {m t : Nat} (hm : (b.link p).mine = some m) (ht : (b.link p).theirs = some t) :
    judgeAttempt p b = if m = t ∧ m ≠ 0 then agreed p m b else attemptAt p ((b.link p).attempts + 1) (m &&& t) b := by
  simp only [judgeAttempt, hm, ht]

theorem judgeAttempt_of_waiting (h : (b.link p).mine = none ∨ (b.link p).theirs = none) : judgeAttempt p b = b := by
  unfold judgeAttempt
  dsimp only
  split
  next m t hm ht => exact h.elim (fun h => absurd (hm.symm.trans h) (by simp)) (fun h => absurd (ht.symm.trans h) (by simp))
  next => rfl

/-! ### HOLD_DOWN and CAP -/

theorem effHoldDown_of_alive {cause : Nat} (h : (b.link p).state = .training ∨ (b.link p).state = .up) :
    effHoldDown p cause b = downLink p cause b := by
  obtain h | h := h <;> simp only [effHoldDown, h]

theorem effHoldDown_of_dead {cause : Nat} (h : (b.link p).state = .absent ∨ (b.link p).state = .down) : effHoldDown p cause b = b := by
  obtain h | h := h <;> simp only [effHoldDown, h]

section
variable {bytes : List Byte}

theorem effCap_of_other (h : field bytes 14 2 ≠ crc16 (bytes.take 14) ∨ bitsOf (field bytes 0 2) 13 12 ≠ 2) : effCap p bytes b = b := by
  refine if_pos ?_
  obtain h | h := h
  · rw [Bool.eq_false_iff.mpr (mt (hcrcOk_iff bytes).mp h)]
    rfl
  · rw [decide_eq_true h, Bool.or_true]

variable (hc : field bytes 14 2 = crc16 (bytes.take 14)) (ht : bitsOf (field bytes 0 2) 13 12 = 2)
include hc ht

theorem effCap_of_cap : effCap p bytes b =
    match (b.link p).state with
    | .training =>
      let b0 := takeWords p bytes b
      if (b0.link p).capSent then linkUpNow p (parseCap bytes) b0 else b0.setLink p { b0.link p with capGot := some (parseCap bytes) }
    | .up => takeFeatures (parseCap bytes) (takeWords p bytes b)
    | .absent | .down => b := by
  have hn : ¬ (!(hcrcOk bytes) || decide (bitsOf (field bytes 0 2) 13 12 ≠ 2)) = true := by simp [(hcrcOk_iff bytes).mpr hc, ht]
  refine (if_neg hn).trans ?_
  cases (b.link p).state <;> rfl

theorem effCap_of_agreed (hs : (b.link p).state = .training) (hg : ((takeWords p bytes b).link p).capSent = true) :
    effCap p bytes b = linkUpNow p (parseCap bytes) (takeWords p bytes b) := by
  simp only [effCap_of_cap hc ht, hs]
  exact if_pos hg

theorem effCap_of_early (hs : (b.link p).state = .training) (hg : ((takeWords p bytes b).link p).capSent = false) :
    effCap p bytes b = (takeWords p bytes b).setLink p { (takeWords p bytes b).link p with capGot := some (parseCap bytes) } := by
  simp only [effCap_of_cap hc ht, hs]
  exact if_neg (ne_true_of_eq_false hg)

theorem effCap_of_up (hs : (b.link p).state = .up) : effCap p bytes b = takeFeatures (parseCap bytes) (takeWords p bytes b) := by
  simp only [effCap_of_cap hc ht, hs]

theorem effCap_of_dead (hs : (b.link p).state = .absent ∨ (b.link p).state = .down) : effCap p bytes b = b := by
  obtain hs | hs := hs <;> simp only [effCap_of_cap hc ht, hs]

end

/-! ### The link goes UP -/

/-- The link UP with the agreed protocol and the chip's features (R287, R288). -/
def raiseLink (p : Nat) (c : CapB) (credits : List Nat) (b : Blk) : Blk :=
  takeFeatures c (b.setLink p { b.link p with
    state := .up, proto := min 3 c.minor, peerRev := if 3 ≤ c.minor then c.revision else 0, peerLead := c.lead,
    credits := credits, rxValid := true, keep := true, halves := (b.link p).vector })

/-- What waited for the link goes on. -/
def resumeLink (p : Nat) (b : Blk) : Blk := retryHeld (d2dPump p ((b.link p).wait.length + 1) b)

section
variable {c : CapB}

theorem linkUpNow_of_refused (h : capCause b c ≠ 0) : linkUpNow p c b = holdDown p (capCause b c) b := if_pos h

variable (h : capCause b c = 0)
include h

theorem linkUpNow_of_fresh (hk : (b.link p).keep = false) : linkUpNow p c b = resumeLink p (raiseLink p c c.credits b) := by
  refine (if_neg (not_not.mpr h)).trans ((if_neg (by simp [hk])).trans ?_)
  simp only [hk]
  rfl

theorem linkUpNow_of_kept (hk : (b.link p).keep = true) (hv : c.rxValid = true)
    (hr : inReplay (b.link p).replay (b.link p).txSeq c.rxNext = true) :
    linkUpNow p c b = resumeLink p (payCredits p (bump Ctr.ddRetrains p 1
      (replayFrom p (takenFlits (b.link p) c.rxNext) (raiseLink p c (b.link p).credits b)))) := by
  refine (if_neg (not_not.mpr h)).trans ((if_neg (by simp [hv, hr])).trans ?_)
  simp only [hk]
  rfl

theorem linkUpNow_of_lost (hk : (b.link p).keep = true)
    (hr : c.rxValid = false ∨ inReplay (b.link p).replay (b.link p).txSeq c.rxNext = false) :
    linkUpNow p c b = startTrain p 2 false (clearLink p 3 b) := (if_neg (not_not.mpr h)).trans (if_pos ⟨hk, hr⟩)

end

theorem d2dSend_of_dead {k : DPkt} (h : (b.link p).state = .down ∨ (b.link p).state = .absent) : d2dSend p k b = b := by
  obtain h | h := h <;> simp only [d2dSend, h]

end

/-- Settles O47: each training event by the link's state, the judged attempt by its two results, and CAP by the state and what it agrees. -/
theorem d2dLinksTrain : Obligations.D2dLinksTrain := by
  refine ⟨fun s p hl hp => ?_, fun p b => ⟨fun m t => judgeAttempt_of_both, judgeAttempt_of_waiting, fun n v => rfl,
      fun c => ⟨linkUpNow_of_refused, fun h => ⟨linkUpNow_of_fresh h, linkUpNow_of_kept h, linkUpNow_of_lost h⟩⟩,
      fun k => d2dSend_of_dead⟩,
    fun c b => ⟨fun h => if_pos h, fun h => if_neg h⟩⟩
  have hP : decide (p < 4) = true := decide_eq_true hp
  have hThree {n halves : Nat} (hn : n < 4) (hh : halves < 2 ^ 24) : (decide (p < 4) && decide (n < 4) && decide (halves < 2 ^ 24)) = true := by
    simp only [Bool.and_eq_true, decide_eq_true_eq]
    exact ⟨⟨hp, hn⟩, hh⟩
  have hTwo {n k : Nat} (hn : n < k) : (decide (p < 4) && decide (n < k)) = true := by simp [hp, hn]
  refine ⟨?_, ?_, fun port high hport => ⟨fun h => fireReady_eq hl (decide_eq_true hport) (effD2dHalfFail_of_up h),
      fun h => fireReady_eq hl (decide_eq_true hport) (effD2dHalfFail_of_none h)⟩,
    fun r hw hv => fireReady_eq hl rfl (onWrite_ok hw (congrArg Except.ok (if_pos hv))),
    fun r hw hv => fireReady_eq hl rfl (onWrite_ok hw (whenTrue_linkReset hv)),
    fun halves hh => ⟨fun hs ha => fireReady_eq hl (hThree (by decide) hh) (effProposal_of_waiting hs ha),
      fun h => fireReady_eq hl (hThree (by decide) hh) (effProposal_of_other h)⟩,
    fun halves hh hat hm => fireReady_eq hl (hTwo hh) (effTrainingAttemptEnd_of_attempting hat hm),
    fun halves hh hat ha ht => fireReady_eq hl (hThree ha hh) (effResult_of_attempting hat ht),
    fun hat hd h => fireReady_eq hl hP (effTrainingTimeout_of_due hat hd h),
    fun cause hc => ⟨fun h => fireReady_eq hl (hTwo hc) (effHoldDown_of_alive h), fun h => fireReady_eq hl (hTwo hc) (effHoldDown_of_dead h)⟩,
    fun bytes hn => ?_⟩
  · rw [← answers_eq]
    exact (fireReady_eq hl hP effRetrain_eq).trans rfl
  · rw [← answers_eq]
    exact (fireReady_eq hl hP effLinkReset_eq).trans rfl
  · have hOk : (decide (p < 4) && bytes.length == 256) = true := by simp [hp, hn]
    exact ⟨fun h => fireReady_eq hl hOk (effCap_of_other h), fun hc ht => ⟨fun hs hg => fireReady_eq hl hOk (effCap_of_agreed hc ht hs hg),
      fun hs hg => fireReady_eq hl hOk (effCap_of_early hc ht hs hg), fun hs => fireReady_eq hl hOk (effCap_of_up hc ht hs),
      fun hs => fireReady_eq hl hOk (effCap_of_dead hc ht hs)⟩⟩

end Sys2Proof.Machine
end

section
/-! SUPPORT. Forwarded accesses, reports and dictionary messages (R270, R277, R278, R227, R365). -/
namespace Sys2Proof.Machine

/-! ### The kinds of packets -/

/-- A forwarded register write. -/
def isFwdWrite (r : Rx) : Bool :=
  match r.msg with
  | .fwdWrite _ => true
  | _ => false

/-- A forwarded register read. -/
def isFwdRead (r : Rx) : Bool :=
  match r.msg with
  | .fwdRead _ => true
  | _ => false

/-- The answer of a forwarded read. -/
def isFwdData (r : Rx) : Bool :=
  match r.msg with
  | .fwdData _ => true
  | _ => false

/-- The report of an invalidation. -/
def isFwdReport (r : Rx) : Bool :=
  match r.msg with
  | .fwdReport _ => true
  | _ => false

/-- A segment of a dictionary message. -/
def isDict (r : Rx) : Bool :=
  match r.msg with
  | .dict _ => true
  | _ => false

section
variable {b : Blk} {i : Nat} {r : Rx}

/-! ### Register accesses -/

theorem effFwdWrite_of_oldest {m : FwdB} (ho : oldest b isFwdWrite = some (i, r)) (hm : r.msg = .fwdWrite m) :
    effFwdWrite b =
      let b0 := takeRx i r b
      if !(fromLead b r) then b0
      else if m.kind = 1 then pageWriteHere m.fn m.queue m.off m.value b0
      else if m.kind = 2 then xlatWriteHere m.fn m.off m.value r.die b0
      else if m.kind = 3 then bivouacWrite m.off m.value b0
      else b0 := by
  unfold effFwdWrite
  split
  · next h =>
    obtain ⟨rfl, rfl⟩ := Prod.mk.inj (Option.some.inj (h.symm.trans ho))
    simp only [hm]
  · next h => exact absurd (h.symm.trans ho) (by simp)

/-- The register of a forwarded read, with the kind and the offset side by side (R277). -/
theorem fwdValue_eq (m : FwdB) (b : Blk) :
    fwdValue m b = if m.kind = 1 then pageRead m.queue m.off b else if m.kind = 2 then xlatRead m.fn m.off b
      else if m.kind = 3 ∧ m.off = 0 then b.host.base else if m.kind = 3 ∧ m.off = 8 then BitVec.ofNat 64 (boolNat b.host.en) else 0 := by
  unfold fwdValue
  by_cases hk : m.kind = 3 <;> simp [hk]

theorem effFwdRead_of_oldest {m : FwdB} (ho : oldest b isFwdRead = some (i, r)) (hm : r.msg = .fwdRead m) :
    effFwdRead b = if fromLead b r then answer r (.fwdData { m with value := fwdValue m b }) (takeRx i r b) else takeRx i r b := by
  unfold effFwdRead
  split
  · next h =>
    obtain ⟨rfl, rfl⟩ := Prod.mk.inj (Option.some.inj (h.symm.trans ho))
    simp only [hm]
  · next h => exact absurd (h.symm.trans ho) (by simp)

theorem effFwdData_of_oldest {m : FwdB} (ho : oldest b isFwdData = some (i, r)) (hm : r.msg = .fwdData m) :
    let b0 := takeRx i r b
    let b1 : Blk := { b0 with out := b0.out ++ [.regData m.value], d2d := { b0.d2d with reads := b0.d2d.reads.erase r.die } }
    effFwdData b = if m.kind = 1 ∧ m.off = 0x030 then stateTold r.die m.queue m.value b1 else b1 := by
  unfold effFwdData
  split
  · next h =>
    obtain ⟨rfl, rfl⟩ := Prod.mk.inj (Option.some.inj (h.symm.trans ho))
    simp only [hm]
    rfl
  · next h => exact absurd (h.symm.trans ho) (by simp)

theorem stateTold_of_asked {die n : Nat} {v : W64} {m : Nat × Nat × Nat × W64}
    (h : b.d2d.moves.find? (fun m => m.1 = die && m.2.2.1 = n) = some m) :
    let b1 : Blk := { b with d2d := { b.d2d with moves := b.d2d.moves.erase m } }
    stateTold die n v b = if v.toNat % 16 ∈ [0, 1, 6] then moveQueue die m.2.1 n m.2.2.2 b1 else b1 := by
  simp only [stateTold, h, List.mem_cons, List.not_mem_nil, or_false]

theorem stateTold_of_unasked {die n : Nat} {v : W64} (h : b.d2d.moves.find? (fun m => m.1 = die && m.2.2.1 = n) = none) :
    stateTold die n v b = if v.toNat % 16 = 0 ∧ servedBy b n = die
      then { b with front := { b.front with queueDie := b.front.queueDie.del n } } else b := by
  simp only [stateTold, h]

/-! ### Reports -/

theorem effFwdReport_of_oldest {t : Nat} (ho : oldest b isFwdReport = some (i, r)) (hm : r.msg = .fwdReport t) :
    let b0 := takeRx i r b
    effFwdReport b = { b0 with xlat := { b0.xlat with invals := reported r.die t b0.xlat.invals } } := by
  unfold effFwdReport
  split
  · next h =>
    obtain ⟨rfl, rfl⟩ := Prod.mk.inj (Option.some.inj (h.symm.trans ho))
    simp only [hm]
  · next h => exact absurd (h.symm.trans ho) (by simp)

theorem reported_of_waiting {die token : Nat} {i : Inval} {rest : List Inval} (ht : bitsOf i.word.toNat 63 48 = token) (hd : die ∈ i.waiting) :
    reported die token (i :: rest) = { i with waiting := i.waiting.erase die } :: rest :=
  if_pos ⟨ht, List.contains_iff_mem.mpr hd⟩

theorem reported_of_other {die token : Nat} {i : Inval} {rest : List Inval} (h : bitsOf i.word.toNat 63 48 ≠ token ∨ die ∉ i.waiting) :
    reported die token (i :: rest) = i :: reported die token rest :=
  if_neg fun ⟨ht, hd⟩ => h.elim (· ht) (· (List.contains_iff_mem.mp hd))

/-! ### Dictionary messages -/

/-- The message that die p's segments have not finished is given up. -/
def asmGone (p : Nat) (b : Blk) : Blk := { b with d2d := { b.d2d with asm := b.d2d.asm.del p } }

/-- A segment joins the message that is under way: number, next segment and bytes (R278). -/
def dictJoin (p : Nat) (m : DictSegB) (cur : Nat × Nat × List Byte) (b : Blk) : Blk :=
  if cur.1 ≠ m.msgId ∨ cur.2.1 ≠ m.seg ∨ 4097 < (cur.2.2 ++ m.data).length then asmGone p b
  else if m.last then dictMessage p cur.1 (cur.2.2 ++ m.data) (asmGone p b)
  else { b with d2d := { b.d2d with asm := Tbl.set b.d2d.asm p (cur.1, cur.2.1 + 1, cur.2.2 ++ m.data) } }

section
variable {m : DictSegB} (ho : oldest b isDict = some (i, r)) (hm : r.msg = .dict m)
include ho hm

theorem effDict_of_oldest : effDict b =
    let b0 := takeRx i r b
    match (if m.seg = 0 then some (m.msgId, 0, []) else (b0.d2d.asm.find? (fun e => e.1 = r.die)).map (·.2)) with
    | some cur => dictJoin r.die m cur b0
    | none => asmGone r.die b0 := by
  unfold effDict
  split
  · next i r h =>
    obtain ⟨rfl, rfl⟩ := Prod.mk.inj (Option.some.inj (h.symm.trans ho))
    simp only [hm]
    generalize (if m.seg = 0 then some (m.msgId, 0, []) else ((takeRx i r b).d2d.asm.find? (fun e => e.1 = r.die)).map (·.2)) = cur
    obtain _ | ⟨id, n, l⟩ := cur <;> rfl
  · next h => exact absurd (h.symm.trans ho) (by simp)

theorem effDict_of_first (hs : m.seg = 0) : effDict b = dictJoin r.die m (m.msgId, 0, []) (takeRx i r b) := by
  rw [effDict_of_oldest ho hm]
  simp only [hs, if_true]

theorem effDict_of_next {e : Nat × Nat × Nat × List Byte} (hs : m.seg ≠ 0)
    (he : (takeRx i r b).d2d.asm.find? (fun e => e.1 = r.die) = some e) : effDict b = dictJoin r.die m e.2 (takeRx i r b) := by
  rw [effDict_of_oldest ho hm]
  simp only [if_neg hs, he, Option.map_some]

theorem effDict_of_stray (hs : m.seg ≠ 0) (he : (takeRx i r b).d2d.asm.find? (fun e => e.1 = r.die) = none) :
    effDict b = asmGone r.die (takeRx i r b) := by
  rw [effDict_of_oldest ho hm]
  simp only [if_neg hs, he, Option.map_none]

end

section
variable {p : Nat} {m : DictSegB} {cur : Nat × Nat × List Byte}

theorem dictJoin_of_broken (h : cur.1 ≠ m.msgId ∨ cur.2.1 ≠ m.seg ∨ 4097 < (cur.2.2 ++ m.data).length) : dictJoin p m cur b = asmGone p b :=
  if_pos h

variable (hi : cur.1 = m.msgId) (hs : cur.2.1 = m.seg) (hn : (cur.2.2 ++ m.data).length ≤ 4097)
include hi hs hn

theorem dictJoin_of_last (hl : m.last = true) : dictJoin p m cur b = dictMessage p m.msgId (cur.2.2 ++ m.data) (asmGone p b) :=
  (if_neg (by simp only [not_or, not_not, not_lt]; exact ⟨hi, hs, hn⟩)).trans ((if_pos hl).trans (by rw [hi]))

theorem dictJoin_of_more (hl : m.last = false) :
    dictJoin p m cur b = { b with d2d := { b.d2d with asm := Tbl.set b.d2d.asm p (m.msgId, m.seg + 1, cur.2.2 ++ m.data) } } :=
  (if_neg (by simp only [not_or, not_not, not_lt]; exact ⟨hi, hs, hn⟩)).trans
    ((if_neg (ne_true_of_eq_false hl)).trans (by rw [hi, hs]))

end

/-! ### The answer of a forwarded request -/

section
variable {t id d : Nat} {q : Req} (hf : b.mg.fwd = some (t, id, d)) (hq : b.mg.sack.head? = some q)
include hf hq

theorem effDictForwardTimeout_of_early (h : b.clk.mgmt < t) : effDictForwardTimeout b = b := by
  simp only [effDictForwardTimeout, hf, hq, if_neg (Nat.not_le.mpr h)]

theorem effDictForwardTimeout_of_due (h : t ≤ b.clk.mgmt) :
    effDictForwardTimeout b = finishReq q (respBody b q .dieUnreachable q.index q.sub (typeOf b q.index q.sub) 0 []) b := by
  simp only [effDictForwardTimeout, hf, hq, if_pos h, finishStatus]

end
end

/-- Settles O48: the oldest packet of each kind by its sender and its fields, and a segment by the message that it joins. -/
theorem forwardedItemsAreServed : Obligations.ForwardedItemsAreServed := by
  refine fun s hl => ⟨fun i r m ho hm => ?_, fun i r m ho hm => ?_, fun i r m ho hm => fireReady_eq hl rfl (effFwdData_of_oldest ho hm),
    fun die n v b => ⟨fun m => stateTold_of_asked, stateTold_of_unasked⟩,
    fun i r t ho hm => fireReady_eq hl rfl (effFwdReport_of_oldest ho hm),
    fun die token i rest => ⟨reported_of_waiting, reported_of_other⟩, fun i r m ho hm => ?_,
    fun t id d r hf hq h => fireReady_eq hl rfl (effDictForwardTimeout_of_early hf hq h),
    fun t id d r hf hq h => fireReady_eq hl rfl (effDictForwardTimeout_of_due hf hq h)⟩
  · have h := effFwdWrite_of_oldest ho hm
    refine ⟨fun hf => fireReady_eq hl rfl (h.trans (if_pos (by rw [hf]; rfl))), fun hf => ?_⟩
    have h := h.trans (if_neg (by rw [hf]; decide))
    refine ⟨fun hk => fireReady_eq hl rfl (h.trans (if_pos hk)), fun hk => ?_, fun hk => ?_, fun hk => ?_⟩ <;>
      refine fireReady_eq hl rfl (h.trans ?_)
    · simp [hk]
    · simp [hk]
    · simp only [List.mem_cons, List.not_mem_nil, or_false, not_or] at hk
      obtain ⟨h1, h2, h3⟩ := hk
      rw [if_neg h1, if_neg h2, if_neg h3]
  · have h := effFwdRead_of_oldest ho hm
    rw [fwdValue_eq] at h
    exact ⟨fun hf => fireReady_eq hl rfl (h.trans (if_pos hf)), fun hf => fireReady_eq hl rfl (h.trans (if_neg (ne_true_of_eq_false hf)))⟩
  · refine ⟨fun hs hn => ?_, fun hs hn hlast => ?_, fun hs hn hlast => ?_, fun e hs he => ⟨fun h => ?_, fun hi hg hn hlast => ?_,
      fun hi hg hn hlast => ?_⟩, fun hs he => fireReady_eq hl rfl (effDict_of_stray ho hm hs he)⟩
    · exact fireReady_eq hl rfl ((effDict_of_first ho hm hs).trans (dictJoin_of_broken (Or.inr (Or.inr hn))))
    · exact fireReady_eq hl rfl ((effDict_of_first ho hm hs).trans (dictJoin_of_last rfl hs.symm hn hlast))
    · refine fireReady_eq hl rfl ((effDict_of_first ho hm hs).trans ((dictJoin_of_more (cur := (m.msgId, 0, [])) rfl hs.symm hn hlast).trans ?_))
      rw [hs]
      rfl
    · exact fireReady_eq hl rfl ((effDict_of_next ho hm hs he).trans (dictJoin_of_broken h))
    · exact fireReady_eq hl rfl ((effDict_of_next ho hm hs he).trans (dictJoin_of_last hi hg hn hlast))
    · exact fireReady_eq hl rfl ((effDict_of_next ho hm hs he).trans (dictJoin_of_more hi hg hn hlast))

end Sys2Proof.Machine
end

section
/-! SUPPORT. Memory packets between dies (R243, R276, R388). -/
namespace Sys2Proof.Machine

/-! ### The kinds of packets -/

/-- A read of memory. -/
def isMemRead (r : Rx) : Bool :=
  match r.msg with
  | .memRead _ => true
  | _ => false

/-- A write of memory. -/
def isMemWrite (r : Rx) : Bool :=
  match r.msg with
  | .memWrite _ => true
  | _ => false

/-- Data of a read. -/
def isMemData (r : Rx) : Bool :=
  match r.msg with
  | .memData _ => true
  | _ => false

/-- The end of a write. -/
def isMemDone (r : Rx) : Bool :=
  match r.msg with
  | .memDone _ => true
  | _ => false

section
variable {b : Blk} {i : Nat} {r : Rx} {m : MemB}

/-! ### MEM_READ -/

section
variable (ho : oldest b isMemRead = some (i, r)) (hm : r.msg = .memRead m)
include ho hm

theorem effMemRead_of_oldest : effMemRead b =
    if m.host then
      if b.host.state = 1 then b else memAnswer r m (hostServe m b).2 (takeRx i r (hostServe m b).1)
    else
      match mustWait b none (paOff m.addr) m.bytes with
      | some ls => sendSnoops ls b
      | none => memAnswer r m (gsRead none (paOff m.addr) m.bytes b).2 (takeRx i r (gsRead none (paOff m.addr) m.bytes b).1) := by
  unfold effMemRead
  split
  · next h =>
    obtain ⟨rfl, rfl⟩ := Prod.mk.inj (Option.some.inj (h.symm.trans ho))
    simp only [hm] <;> rfl
  · next h => exact absurd (h.symm.trans ho) (by simp)

theorem effMemRead_of_free (hh : m.host = false) (hw : mustWait b none (paOff m.addr) m.bytes = none) :
    effMemRead b = memAnswer r m (gsRead none (paOff m.addr) m.bytes b).2 (takeRx i r (gsRead none (paOff m.addr) m.bytes b).1) := by
  rw [effMemRead_of_oldest ho hm, if_neg (ne_true_of_eq_false hh)]
  simp only [hw]

theorem effMemRead_of_snooped {ls : List Nat} (hh : m.host = false) (hw : mustWait b none (paOff m.addr) m.bytes = some ls) :
    effMemRead b = sendSnoops ls b := by
  rw [effMemRead_of_oldest ho hm, if_neg (ne_true_of_eq_false hh)]
  simp only [hw]

end

theorem hostServe_of_lost (h : b.host.state ≠ 0) : hostServe m b = (b, List.replicate m.bytes (0, true)) := if_pos h

theorem hostServe_of_taken (h : b.host.state = 0) (hr : hostRefuses b m.addr m.bytes = false) :
    (hostServe m b).2 = b.hostMem.read m.addr m.bytes ∧ (hostServe m b).1 = { b with out := b.out ++ hostReadReq b false m.addr m.bytes } := by
  have hs : hostServe m b = ({ b with out := b.out ++ hostReadReq b false m.addr m.bytes }, b.hostMem.read m.addr m.bytes) :=
    (if_neg (not_not.mpr h)).trans (if_neg (ne_true_of_eq_false hr))
  rw [hs]
  exact ⟨rfl, rfl⟩

theorem hostServe_of_refused (h : b.host.state = 0) (hr : hostRefuses b m.addr m.bytes = true) :
    (hostServe m b).2 = List.replicate m.bytes (0, true) :=
  congrArg Prod.snd ((if_neg (not_not.mpr h)).trans (if_pos hr))

/-! ### MEM_WRITE -/

section
variable (ho : oldest b isMemWrite = some (i, r)) (hm : r.msg = .memWrite m)
include ho hm

theorem effMemWrite_of_oldest : effMemWrite b =
    if m.host then
      match (takeRx i r b).host.state with
      | 0 => writeAnswer r (hostPut .block none false m.addr (m.data.map (·, m.poison)) (takeRx i r b)).1
      | 1 => holdWrite { no := 0, ctx := none, addr := m.addr, data := m.data.map (·, m.poison), ask := some r } (takeRx i r b)
      | _ => writeAnswer r (takeRx i r b)
    else
      match mustWait b none (paOff m.addr) m.bytes with
      | some ls => sendSnoops ls b
      | none => writeAnswer r (gsWrite none (paOff m.addr) (m.data.map (·, m.poison)) (takeRx i r b)) := by
  unfold effMemWrite
  split
  · next h =>
    obtain ⟨rfl, rfl⟩ := Prod.mk.inj (Option.some.inj (h.symm.trans ho))
    simp only [hm] <;> rfl
  · next h => exact absurd (h.symm.trans ho) (by simp)

omit ho in
theorem writeAnswer_of_write (c : Blk) : writeAnswer r c = answer r (.memDone { m with data := [] }) c := by
  simp only [writeAnswer, hm]

theorem effMemWrite_of_free (hh : m.host = false) (hw : mustWait b none (paOff m.addr) m.bytes = none) :
    effMemWrite b = answer r (.memDone { m with data := [] }) (gsWrite none (paOff m.addr) (m.data.map (·, m.poison)) (takeRx i r b)) := by
  rw [effMemWrite_of_oldest ho hm, if_neg (ne_true_of_eq_false hh), ← writeAnswer_of_write hm]
  simp only [hw]

theorem effMemWrite_of_snooped {ls : List Nat} (hh : m.host = false) (hw : mustWait b none (paOff m.addr) m.bytes = some ls) :
    effMemWrite b = sendSnoops ls b := by
  rw [effMemWrite_of_oldest ho hm, if_neg (ne_true_of_eq_false hh)]
  simp only [hw]

theorem effMemWrite_of_attached (hh : m.host = true) (hs : (takeRx i r b).host.state = 0) :
    effMemWrite b = answer r (.memDone { m with data := [] })
      (hostPut .block none false m.addr (m.data.map (·, m.poison)) (takeRx i r b)).1 := by
  rw [effMemWrite_of_oldest ho hm, if_pos hh, ← writeAnswer_of_write hm]
  simp only [hs]

theorem effMemWrite_of_linkDown (hh : m.host = true) (hs : (takeRx i r b).host.state = 1) :
    effMemWrite b = holdWrite { no := 0, ctx := none, addr := m.addr, data := m.data.map (·, m.poison), ask := some r } (takeRx i r b) := by
  rw [effMemWrite_of_oldest ho hm, if_pos hh]
  simp only [hs]

theorem effMemWrite_of_lost (hh : m.host = true) (h0 : (takeRx i r b).host.state ≠ 0) (h1 : (takeRx i r b).host.state ≠ 1) :
    effMemWrite b = answer r (.memDone { m with data := [] }) (takeRx i r b) := by
  rw [effMemWrite_of_oldest ho hm, if_pos hh, ← writeAnswer_of_write hm]
  split
  next h => exact absurd h h0
  next h => exact absurd h h1
  next => rfl

end

/-! ### MEM_DATA -/

/-- A request that this die passed on for another chip, by the die's answer under its tag. -/
def proxyOf (r : Rx) (tag : Nat) (b : Blk) : Option Proxy := b.d2d.proxies.find? (fun x => x.tag = tag && r.via = .d2d x.die)

/-- The read data of a packet join their read. -/
def dataJoined (r : Rx) (m : MemB) (b : Blk) : Blk :=
  { b with xlat := { b.xlat with rreads := b.xlat.rreads.map (fun q =>
      if q.tag = m.tag ∧ q.chip = r.chip ∧ q.die = r.die then { q with got := q.got ++ m.data.map (·, m.poison) } else q) } }

/-- A host's read of another die's memory that has all its data. -/
def hostWhole (m : MemB) (b : Blk) : Option RRead :=
  b.xlat.rreads.find? (fun q => q.tag = m.tag && decide (q.n ≤ q.got.length) && (match q.unit with
    | .hostAcc _ => true
    | _ => false))

section
variable (ho : oldest b isMemData = some (i, r)) (hm : r.msg = .memData m)
include ho hm

theorem effMemData_of_mine {o : Option RRead} (hp : proxyOf r m.tag (heard r.chip (takeRx i r b)) = none)
    (hw : hostWhole m (dataJoined r m (heard r.chip (takeRx i r b))) = o) :
    effMemData b =
      match (generalizing := false) o with
      | some q => emit (.hostCpl q.got) (dropRread q.tag (dataJoined r m (heard r.chip (takeRx i r b))))
      | none => dataJoined r m (heard r.chip (takeRx i r b)) := by
  subst hw
  unfold proxyOf at hp
  unfold effMemData
  split
  · next h =>
    obtain ⟨rfl, rfl⟩ := Prod.mk.inj (Option.some.inj (h.symm.trans ho))
    simp only [hm, hp] <;> rfl
  · next h => exact absurd (h.symm.trans ho) (by simp)

theorem effMemData_of_passed {x : Proxy} (hp : proxyOf r m.tag (heard r.chip (takeRx i r b)) = some x) :
    effMemData b =
      let b0 := heard r.chip (takeRx i r b)
      let ps : List Proxy :=
        if x.left - m.bytes = 0 then b0.d2d.proxies.filter (fun y => y.tag ≠ x.tag)
        else b0.d2d.proxies.map (fun y => if y.tag = x.tag then { y with left := x.left - m.bytes } else y)
      proxyAnswer x (.memData { m with tag := x.otag }) { b0 with d2d := { b0.d2d with proxies := ps } } := by
  unfold proxyOf at hp
  unfold effMemData
  split
  · next h =>
    obtain ⟨rfl, rfl⟩ := Prod.mk.inj (Option.some.inj (h.symm.trans ho))
    simp only [hm, hp]
  · next h => exact absurd (h.symm.trans ho) (by simp)

theorem effMemData_of_last {x : Proxy} (hp : proxyOf r m.tag (heard r.chip (takeRx i r b)) = some x) (hl : x.left ≤ m.bytes) :
    let b0 := heard r.chip (takeRx i r b)
    effMemData b = proxyAnswer x (.memData { m with tag := x.otag })
      { b0 with d2d := { b0.d2d with proxies := b0.d2d.proxies.filter (fun y => y.tag ≠ x.tag) } } := by
  rw [effMemData_of_passed ho hm hp]
  simp only [if_pos (Nat.sub_eq_zero_of_le hl)]

theorem effMemData_of_more {x : Proxy} (hp : proxyOf r m.tag (heard r.chip (takeRx i r b)) = some x) (hl : m.bytes < x.left) :
    let b0 := heard r.chip (takeRx i r b)
    effMemData b = proxyAnswer x (.memData { m with tag := x.otag }) { b0 with d2d := { b0.d2d with
      proxies := b0.d2d.proxies.map (fun y => if y.tag = x.tag then { y with left := x.left - m.bytes } else y) } } := by
  rw [effMemData_of_passed ho hm hp]
  simp only [if_neg (Nat.sub_ne_zero_of_lt hl)]

end

/-! ### MEM_DONE -/

section
variable (ho : oldest b isMemDone = some (i, r)) (hm : r.msg = .memDone m)
include ho hm

theorem effMemDone_of_mine (hp : proxyOf r m.tag (heard r.chip (takeRx i r b)) = none) :
    let b0 := heard r.chip (takeRx i r b)
    effMemDone b = { b0 with xlat := { b0.xlat with
      rwrites := b0.xlat.rwrites.filter (fun w => !(w.tag = m.tag && w.chip = r.chip && w.die = r.die)) } } := by
  unfold proxyOf at hp
  unfold effMemDone
  split
  · next h =>
    obtain ⟨rfl, rfl⟩ := Prod.mk.inj (Option.some.inj (h.symm.trans ho))
    simp only [hm, hp]
  · next h => exact absurd (h.symm.trans ho) (by simp)

theorem effMemDone_of_passed {x : Proxy} (hp : proxyOf r m.tag (heard r.chip (takeRx i r b)) = some x) :
    let b0 := heard r.chip (takeRx i r b)
    effMemDone b = proxyAnswer x (.memDone { m with tag := x.otag })
      { b0 with d2d := { b0.d2d with proxies := b0.d2d.proxies.filter (fun y => y.tag ≠ x.tag) } } := by
  unfold proxyOf at hp
  unfold effMemDone
  split
  · next h =>
    obtain ⟨rfl, rfl⟩ := Prod.mk.inj (Option.some.inj (h.symm.trans ho))
    simp only [hm, hp]
  · next h => exact absurd (h.symm.trans ho) (by simp)

end
end

/-- Settles O49: each memory packet by where its memory is, by the host's state, and by whether this die passed its request on. -/
theorem memoryPacketsAreServed : Obligations.MemoryPacketsAreServed := by
  refine ⟨fun s hl => ⟨fun i r m ho hm => ⟨fun hh hw => fireReady_eq hl rfl (effMemRead_of_free ho hm hh hw),
        fun ls hh hw => fireReady_eq hl rfl (effMemRead_of_snooped ho hm hh hw),
        fun hh hs => fireReady_eq hl rfl ((effMemRead_of_oldest ho hm).trans ((if_pos hh).trans (if_neg hs))),
        fun hh hs => fireReady_eq hl rfl ((effMemRead_of_oldest ho hm).trans ((if_pos hh).trans (if_pos hs)))⟩,
      fun i r m ho hm => ⟨fun hh hw => fireReady_eq hl rfl (effMemWrite_of_free ho hm hh hw),
        fun ls hh hw => fireReady_eq hl rfl (effMemWrite_of_snooped ho hm hh hw),
        fun hh hs => fireReady_eq hl rfl (effMemWrite_of_attached ho hm hh hs),
        fun hh hs => fireReady_eq hl rfl (effMemWrite_of_linkDown ho hm hh hs),
        fun hh h0 h1 => fireReady_eq hl rfl (effMemWrite_of_lost ho hm hh h0 h1)⟩,
      fun i r m ho hm => ⟨fun hp hw => fireReady_eq hl rfl (effMemData_of_mine (o := none) ho hm hp hw),
        fun q hp hw => fireReady_eq hl rfl (effMemData_of_mine (o := some q) ho hm hp hw),
        fun x hp hx => fireReady_eq hl rfl (effMemData_of_last ho hm hp hx),
        fun x hp hx => fireReady_eq hl rfl (effMemData_of_more ho hm hp hx)⟩,
      fun i r m ho hm => ⟨fun hp => fireReady_eq hl rfl (effMemDone_of_mine ho hm hp),
        fun x hp => fireReady_eq hl rfl (effMemDone_of_passed ho hm hp)⟩⟩,
    fun r m d b => rfl, fun m b => ⟨hostServe_of_lost, hostServe_of_taken, hostServe_of_refused⟩⟩

end Sys2Proof.Machine
end

section
/-! SUPPORT. Packets of the Ridge: flits, routing and delivery (R300 to R309, R313). -/
namespace Sys2Proof.Machine

section
variable {b : Blk} {sp : Nat} {bytes : List Byte} {marked : Bool}

/-! ### Flits -/

theorem effRidgeFlit_of_notUp (h : (b.port_ sp).state ≠ .up) : effRidgeFlit sp bytes marked b = b := if_pos h

theorem effRidgeFlit_of_bad (h : (b.port_ sp).state = .up) (hb : marked = true ∨ field bytes 252 4 ≠ crc32 (bytes.take 252)) :
    effRidgeFlit sp bytes marked b =
      ridgeNak sp (bump Ctr.rgCrcErrors sp 1 (if marked then bump Ctr.rgFecUncorrectable sp 1 b else b)) :=
  (if_neg (not_not.mpr h)).trans (if_pos hb)

/-- What a good flit does before its payload: its acknowledgement and credits act, then a NAK. -/
def ridgeWords (sp : Nat) (bytes : List Byte) (b : Blk) : Blk :=
  let b1 := ridgeTakeCredit sp (field bytes 6 2) (ridgeTakeCredit sp (field bytes 4 2) (ridgeAck sp (field bytes 2 2 % 4096) b))
  if bitsOf (field bytes 0 2) 13 12 < 2 ∧ (field bytes 2 2).testBit 12 = true then ridgeTakeNak sp (field bytes 2 2 % 4096) b1 else b1

/-- The payload of a good flit (R281, R300). -/
def ridgePayload (sp : Nat) (bytes : List Byte) (b : Blk) : Blk :=
  if bitsOf (field bytes 0 2) 13 12 = 0 ∧ (b.port_ sp).state = .up then
    if field bytes 0 2 % 4096 = (b.port_ sp).rxNext then ridgeData sp bytes b
    else
      let b3 := bump Ctr.rgCrcErrors sp 1 b
      if (b3.port_ sp).nakOut then b3 else ridgeNak sp b3
  else b

theorem effRidgeFlit_of_good (h : (b.port_ sp).state = .up) (hm : marked = false) (hc : field bytes 252 4 = crc32 (bytes.take 252)) :
    effRidgeFlit sp bytes marked b = ridgePayload sp bytes (ridgeWords sp bytes b) := by
  subst hm
  refine (if_neg (not_not.mpr h)).trans ((if_neg (by simp [hc])).trans ?_)
  simp only [Bool.and_eq_true, decide_eq_true_eq]
  rfl

theorem ridgePayload_of_other (h : bitsOf (field bytes 0 2) 13 12 ≠ 0 ∨ (b.port_ sp).state ≠ .up) : ridgePayload sp bytes b = b :=
  if_neg fun ⟨ht, hu⟩ => h.elim (· ht) (· hu)

section
variable (ht : bitsOf (field bytes 0 2) 13 12 = 0) (hu : (b.port_ sp).state = .up)
include ht hu

theorem ridgePayload_of_expected (hs : field bytes 0 2 % 4096 = (b.port_ sp).rxNext) : ridgePayload sp bytes b = ridgeData sp bytes b :=
  (if_pos ⟨ht, hu⟩).trans (if_pos hs)

theorem ridgePayload_of_unexpected (hs : field bytes 0 2 % 4096 ≠ (b.port_ sp).rxNext) :
    ridgePayload sp bytes b =
      (let b3 := bump Ctr.rgCrcErrors sp 1 b
       if (b3.port_ sp).nakOut then b3 else ridgeNak sp b3) := (if_pos ⟨ht, hu⟩).trans (if_neg hs)

end

/-- The walk over the slots of the expected flit of a sub-port. -/
def ridgeWalk (sp : Nat) (bytes : List Byte) (b : Blk) : Walk :=
  let p := b.port_ sp
  walkSlots false (field bytes 0 2 % 4096) (if p.rxBuf = [] then byteAt bytes 8 % 16 else 0)
    ((pieces 16 ((bytes.drop 12).take 240)).drop (if p.rxBuf = [] then byteAt bytes 8 % 16 else 0)) p.rxBuf (p.rxStart, 0) []

theorem ridgeData_of_ok {buf : List Byte} {at_ : Nat × Nat} {ks : List (List Byte)} (h : ridgeWalk sp bytes b = .ok buf at_ ks) :
    ridgeData sp bytes b = ks.foldl (fun b k => acceptRidge sp k b)
      (ridgeIdle sp 0 0 0 false (field bytes 0 2 % 4096) (b.setPort sp
        { b.port_ sp with rxNext := (field bytes 0 2 % 4096 + 1) % 4096, rxBuf := buf, rxStart := at_.1, nakOut := false })) := by
  simp only [ridgeWalk] at h
  simp only [ridgeData, List.isEmpty_iff, h]

theorem ridgeTakeCredit_of_valid {w : Nat} (h : w.testBit 4 = true) :
    ((ridgeTakeCredit sp w b).port_ sp).credits = (b.port_ sp).credits.set (subIdx (w % 8) (bitsOf w 3 3))
      ((b.port_ sp).credits.getD (subIdx (w % 8) (bitsOf w 3 3)) 0 + w / 32) := by
  rw [ridgeTakeCredit, if_pos h, port_setPort, if_pos rfl]

theorem ridgeTakeCredit_of_empty {w : Nat} (h : w.testBit 4 = false) : ridgeTakeCredit sp w b = b := if_neg (ne_true_of_eq_false h)

theorem ridgeNak_nakOut : ((ridgeNak sp b).port_ sp).nakOut = true :=
  congrArg SubPort.nakOut ((port_setPort b sp sp _).trans (if_pos rfl))

theorem ridgeTakeNak_eq {n w : Nat} (h : n = if (b.port_ sp).nakSeq = w then (b.port_ sp).nakCount + 1 else 1) :
    ridgeTakeNak sp w b = if 8 ≤ n
      then portTrain sp true (b.setPort sp { b.port_ sp with nakSeq := 4096, nakCount := 0 })
      else ridgeReplay sp (b.setPort sp { b.port_ sp with nakSeq := w, nakCount := n }) := h ▸ rfl

/-! ### Routing -/

theorem effPacketRoute_of_none (h : pickRoute b b.ridge.txq = none) : effPacketRoute b = b := by
  simp only [effPacketRoute, h]

section
variable {i : Nat}

theorem effPacketRoute_of_drop {c : Nat} (h : pickRoute b b.ridge.txq = some (i, .drop c)) :
    let k := b.ridge.txq.getD i default
    let b0 : Blk := { b with ridge := { b.ridge with txq := b.ridge.txq.eraseIdx i } }
    effPacketRoute b = if k.port = none then answerUnreach k c b0 else b0 := by
  simp only [effPacketRoute, h]
  cases (b.ridge.txq.getD i default).port <;> rfl

theorem effPacketRoute_of_deliver {m : Msg} (h : pickRoute b b.ridge.txq = some (i, .deliver))
    (hm : decMsg (b.ridge.txq.getD i default).h.ptype (b.ridge.txq.getD i default).body = some m) :
    effPacketRoute b = deliverHere { b.ridge.txq.getD i default with via := .local } m
      { b with ridge := { b.ridge with txq := b.ridge.txq.eraseIdx i } } := by
  simp only [effPacketRoute, h, hm]

theorem effPacketRoute_of_send {p : Nat} {first : Bool} (h : pickRoute b b.ridge.txq = some (i, .send p first)) :
    let k := b.ridge.txq.getD i default
    let b0 : Blk := { b with ridge := { b.ridge with txq := b.ridge.txq.eraseIdx i } }
    let h := leaveOn b p k.h
    let b1 := if first then b0 else bump Ctr.rgAdaptive 0 1 b0
    effPacketRoute b = ridgeEmit p { k with h := h }
      (b1.setPort p { b1.port_ p with turn := if h.vc < 4 ∧ h.rt = false then h.vc else (b1.port_ p).turn }) := by
  simp only [effPacketRoute, h, Bool.and_eq_true, Bool.not_eq_true', decide_eq_true_eq]
  cases first <;> rfl

end

section
variable {k : RPkt} (hp : k.port = none) (hd : k.h.dst % 16384 ≠ b.ident.chip)
include hp hd

theorem routeOf_of_hopLimit (h : b.obj Obj.hopLimit 64 ≤ k.h.hops) : routeOf b k = .drop 1 := by
  simp only [routeOf, hp, if_neg hd, if_pos h]

/-- The ports over which a packet may leave now: those of its entry that are UP and carry its channel. -/
def candidates (b : Blk) (k : RPkt) : List Nat :=
  (entryPorts (b.ridge.route.get routeReset (k.h.dst % 16384))).filter
    (fun s => (b.port_ s).state == .up && !(k.h.vc == 3 && (b.port_ s).revision == 2))

section
variable (hh : k.h.hops < b.obj Obj.hopLimit 64)
include hh

theorem routeOf_of_none (hc : candidates b k = []) :
    let ps := entryPorts (b.ridge.route.get routeReset (k.h.dst % 16384))
    routeOf b k = if ps.any (fun s => (b.port_ s).state = .training) then .wait
      else if !ps.isEmpty && ps.all (fun s => (b.port_ s).state = .down) then .drop 3
      else .drop 0 := by
  unfold candidates at hc
  simp only [routeOf, hp, if_neg hd, if_neg (Nat.not_le.mpr hh), hc, mostFree, List.head?_nil, ite_self]

theorem routeOf_of_noEntry (hps : entryPorts (b.ridge.route.get routeReset (k.h.dst % 16384)) = []) : routeOf b k = .drop 0 := by
  rw [routeOf_of_none hp hd hh (by rw [candidates, hps]; rfl)]
  simp only [hps]
  rfl

theorem routeOf_of_down (hps : entryPorts (b.ridge.route.get routeReset (k.h.dst % 16384)) ≠ [])
    (hdn : ∀ sp ∈ entryPorts (b.ridge.route.get routeReset (k.h.dst % 16384)), (b.port_ sp).state = .down) : routeOf b k = .drop 3 := by
  have hc : candidates b k = [] := List.filter_eq_nil_iff.mpr fun s hs => by rw [hdn s hs]; simp
  rw [routeOf_of_none hp hd hh hc]
  have ht : (entryPorts (b.ridge.route.get routeReset (k.h.dst % 16384))).any (fun s => (b.port_ s).state = .training) = false :=
    List.any_eq_false.mpr fun s hs => by rw [hdn s hs]; simp
  have ha : (entryPorts (b.ridge.route.get routeReset (k.h.dst % 16384))).all (fun s => (b.port_ s).state = .down) = true :=
    List.all_eq_true.mpr fun s hs => by rw [hdn s hs]; simp
  have he : (entryPorts (b.ridge.route.get routeReset (k.h.dst % 16384))).isEmpty = false := by simpa using hps
  simp only [ht, ha, he]
  rfl

theorem routeOf_of_one (hc : candidates b k = [sp]) :
    routeOf b k = if portTakes b sp k
      then .send sp ((entryPorts (b.ridge.route.get routeReset (k.h.dst % 16384))).head? = some sp) else .wait := by
  unfold candidates at hc
  simp only [routeOf, hp, if_neg hd, if_neg (Nat.not_le.mpr hh), hc, mostFree, List.head?_cons, ite_self]

end
end

theorem leaveOn_hops (h : PktHdr) : (leaveOn b sp h).hops = h.hops + 1 ∧ (leaveOn b sp h).dst = h.dst ∧ (leaveOn b sp h).part = h.part := by
  unfold leaveOn
  dsimp only
  split <;> split <;> exact ⟨rfl, rfl, rfl⟩

/-! ### Delivery -/

section
variable {k : RPkt} {m : Msg}

theorem deliverHere_of_refused (hv : k.via ≠ .local) (hr : partRefuses b k.h m = true) :
    deliverHere k m b = ridgeCredit k (answerUnreach k 2 (countRefused b k.h m)) := if_pos ⟨hv, hr⟩

theorem deliverHere_of_taken (h : k.via = .local ∨ partRefuses b k.h m = false) :
    deliverHere k m b = if pktDie b k.h ≠ b.ident.die then ridgeCredit k (crossDie (pktDie b k.h) k b) else enterPort k m 0 b :=
  if_neg fun ⟨hv, hr⟩ => h.elim hv (fun hf => absurd (hr.symm.trans hf) (by decide))

end
end

/-- Settles O50: a flit by its port, its CRC and its number; a packet by the route that its entry gives; delivery by R313. -/
theorem ridgePacketsAreTakenAndRouted : Obligations.RidgePacketsAreTakenAndRouted := by
  refine fun s hl => ⟨fun sp bytes marked hsp hn => ?_, fun h => fireReady_eq hl rfl (effPacketRoute_of_none h), fun i r h => ?_,
    fun b k hp hd => ⟨routeOf_of_hopLimit hp hd, fun hh => ⟨routeOf_of_noEntry hp hd hh, routeOf_of_down hp hd hh,
      fun sp => routeOf_of_one hp hd hh⟩⟩,
    fun b sp n bytes w => ⟨fun buf at_ ks => ridgeData_of_ok, ridgeTakeCredit_of_valid, ridgeTakeCredit_of_empty, ridgeNak_nakOut,
      ridgeTakeNak_eq⟩,
    fun b sp h => leaveOn_hops h, fun b k m => deliverHere_of_refused, fun b k m => deliverHere_of_taken⟩
  · have hOk : (decide (sp < 64) && bytes.length == 256) = true := by simp [hsp, hn]
    exact ⟨fun h => fireReady_eq hl hOk (effRidgeFlit_of_notUp h), fun h hb => fireReady_eq hl hOk (effRidgeFlit_of_bad h hb),
      fun h hm hc => ⟨fun ho => fireReady_eq hl hOk ((effRidgeFlit_of_good h hm hc).trans (ridgePayload_of_other ho)),
        fun ht hu => ⟨fun hs => fireReady_eq hl hOk ((effRidgeFlit_of_good h hm hc).trans (ridgePayload_of_expected ht hu hs)),
          fun hs => fireReady_eq hl hOk ((effRidgeFlit_of_good h hm hc).trans (ridgePayload_of_unexpected ht hu hs))⟩⟩⟩
  · refine ⟨fun c hc => ?_, fun m hr hm => ?_, fun sp first hr => ?_⟩
    · subst hc
      exact fireReady_eq hl rfl (effPacketRoute_of_drop h)
    · subst hr
      exact fireReady_eq hl rfl (effPacketRoute_of_deliver h hm)
    · subst hr
      exact fireReady_eq hl rfl (effPacketRoute_of_send h)

end Sys2Proof.Machine
end

section
/-! SUPPORT. Reachability of other chips (R314 to R316). -/
namespace Sys2Proof.Machine

/-- A packet that came back undelivered. -/
def isUnreach (r : Rx) : Bool :=
  match r.msg with
  | .unreach .. => true
  | _ => false

/-- An ECHO. -/
def isEcho (r : Rx) : Bool :=
  match r.msg with
  | .echo _ => true
  | _ => false

/-- The reply of an ECHO. -/
def isEchoReply (r : Rx) : Bool :=
  match r.msg with
  | .echoReply _ => true
  | _ => false

section
variable {b : Blk} {i : Nat} {r : Rx}

theorem effUnreach_of_oldest {h : PktHdr} {cause : Nat} {body : List Byte} (ho : oldest b isUnreach = some (i, r))
    (hm : r.msg = .unreach h cause body) :
    effUnreach b = if cause = 4 then failOne h body (takeRx i r b) else declareChip (h.dst % 16384) (takeRx i r b) := by
  unfold effUnreach
  split
  · next hx =>
    obtain ⟨rfl, rfl⟩ := Prod.mk.inj (Option.some.inj (hx.symm.trans ho))
    simp only [hm]
  · next hx => exact absurd (hx.symm.trans ho) (by simp)

theorem effEcho_of_oldest {n : Nat} (ho : oldest b isEcho = some (i, r)) (hm : r.msg = .echo n) :
    effEcho b = answer r (.echoReply n) (takeRx i r b) := by
  unfold effEcho
  split
  · next hx =>
    obtain ⟨rfl, rfl⟩ := Prod.mk.inj (Option.some.inj (hx.symm.trans ho))
    simp only [hm]
  · next hx => exact absurd (hx.symm.trans ho) (by simp)

theorem effEchoReply_of_oldest (ho : oldest b isEchoReply = some (i, r)) : effEchoReply b = heard r.chip (takeRx i r b) := by
  unfold effEchoReply
  split
  · next hx =>
    obtain ⟨rfl, rfl⟩ := Prod.mk.inj (Option.some.inj (hx.symm.trans ho))
    rfl
  · next hx => exact absurd (hx.symm.trans ho) (by simp)

/-! ### The timers -/

section
variable {chip : Nat}

section
variable {e : Nat × Reach} (hf : b.ridge.reach.find? (fun e => e.1 = chip) = some e)
include hf

section
variable (hn : e.2.echoAt = none) (ht : e.2.last + b.obj Obj.reachIdle 100000 ≤ b.clk.aon)
include hn ht

theorem effReachIdleExpiry_of_due :
    effReachIdleExpiry chip b = if awaited b chip then
        sendEcho chip { b with ridge := { b.ridge with reach := b.ridge.reach.set chip { e.2 with echoAt := some b.clk.aon } } }
      else { b with ridge := { b.ridge with reach := b.ridge.reach.del chip } } := by
  have hc : (e.2.echoAt.isSome || decide (b.clk.aon < e.2.last + b.obj Obj.reachIdle 100000)) = false := by simp [hn, ht]
  simp only [effReachIdleExpiry, hf, hc]
  rfl

end

theorem effReachWaitExpiry_of_due {t : Nat} (hn : e.2.echoAt = some t) (ht : t + b.obj Obj.reachWait 100000 ≤ b.clk.aon) :
    effReachWaitExpiry chip b = if awaited b chip then declareChip chip b
      else { b with ridge := { b.ridge with reach := b.ridge.reach.del chip } } := by
  simp only [effReachWaitExpiry, hf, hn, if_neg (Nat.not_lt.mpr ht)]

end

theorem effDeclaredEcho_of_due {e : Nat × Nat} (hf : b.ridge.declared.find? (fun e => e.1 = chip) = some e)
    (ht : e.2 + b.obj Obj.reachWait 100000 ≤ b.clk.aon) :
    effDeclaredEcho chip b =
      sendEcho chip { b with ridge := { b.ridge with declared := b.ridge.declared.set chip b.clk.aon } } := by
  simp only [effDeclaredEcho, hf, if_pos ht]

/-! ### A chip that answers -/

theorem heard_declared : (heard chip b).ridge.declared.find? (fun e => e.1 = chip) = none :=
  List.find?_eq_none.mpr fun e he => by
    have := (List.mem_filter.mp he).2
    simpa using this

theorem heard_reach {e : Nat × Reach} (h : (heard chip b).ridge.reach.find? (fun e => e.1 = chip) = some e) : e.2 = { last := b.clk.aon } := by
  obtain ⟨x, -, rfl⟩ := List.mem_map.mp (List.mem_of_find?_eq_some h)
  have hc := List.find?_some h
  by_cases hx : x.1 = chip
  · rw [if_pos hx]
  · rw [if_neg hx] at hc
    exact absurd (of_decide_eq_true hc) hx

end
end

/-- Settles O51: an UNREACH by its cause, the timers by whether something is awaited, and a chip that answers by its entries. -/
theorem silentChipsAreDeclared : Obligations.SilentChipsAreDeclared := by
  refine fun s hl => ⟨fun i r h cause body ho hm => ⟨fun hc => fireReady_eq hl rfl ((effUnreach_of_oldest ho hm).trans (if_pos hc)),
      fun hc => fireReady_eq hl rfl ((effUnreach_of_oldest ho hm).trans (if_neg hc))⟩,
    fun i r n ho hm => fireReady_eq hl rfl (effEcho_of_oldest ho hm), fun i r ho => fireReady_eq hl rfl (effEchoReply_of_oldest ho),
    fun chip e hc hf => ⟨fun hn ht => ⟨fun ha => ?_, fun ha => ?_⟩, fun t hn ht => ⟨fun ha => ?_, fun ha => ?_⟩⟩,
    fun chip e hc hf ht => fireReady_eq hl (decide_eq_true hc) (effDeclaredEcho_of_due hf ht),
    fun b chip => ⟨heard_declared, fun e => heard_reach⟩⟩
  · exact fireReady_eq hl (decide_eq_true hc) ((effReachIdleExpiry_of_due hf hn ht).trans (if_pos ha))
  · exact fireReady_eq hl (decide_eq_true hc) ((effReachIdleExpiry_of_due hf hn ht).trans (if_neg (ne_true_of_eq_false ha)))
  · exact fireReady_eq hl (decide_eq_true hc) ((effReachWaitExpiry_of_due hf hn ht).trans (if_pos ha))
  · exact fireReady_eq hl (decide_eq_true hc) ((effReachWaitExpiry_of_due hf hn ht).trans (if_neg (ne_true_of_eq_false ha)))

end Sys2Proof.Machine
end

section
/-! SUPPORT. Negotiation of a Ridge sub-port (R294, R297, R298, R334). -/
namespace Sys2Proof.Machine

section
variable {b : Blk} {sp : Nat}

/-! ### Lock -/

section
variable (hs : (b.port_ sp).state = .training) (hp : (b.port_ sp).step = .lock)
include hs hp

theorem effLaneLock_of_first (he : (b.port_ sp).early = none) :
    effLaneLock sp b = sendNeg sp (b.setPort sp { b.port_ sp with step := .ability, early := none }) := by
  simp only [effLaneLock, hs, hp, he, and_self, if_true]

theorem effLaneLock_of_second {n : NegB} (he : (b.port_ sp).early = some n) :
    effLaneLock sp b = settleMode sp n (sendNeg sp (b.setPort sp { b.port_ sp with step := .ability, early := none })) := by
  simp only [effLaneLock, hs, hp, he, and_self, if_true]

end

/-! ### The partner's messages -/

theorem ridgeTakeCredit_steps (w : Nat) :
    ((ridgeTakeCredit sp w b).port_ sp).state = (b.port_ sp).state ∧ ((ridgeTakeCredit sp w b).port_ sp).step = (b.port_ sp).step := by
  unfold ridgeTakeCredit
  split <;> simp

/-- The credits of a negotiation message act on a port that keeps its link state (R280). -/
def negCredits (sp : Nat) (bytes : List Byte) (b : Blk) : Blk :=
  if (b.port_ sp).state = .up ∨ (b.port_ sp).retraining = true
  then ridgeTakeCredit sp (field bytes 6 2) (ridgeTakeCredit sp (field bytes 4 2) b) else b

theorem negCredits_steps (bytes : List Byte) :
    ((negCredits sp bytes b).port_ sp).state = (b.port_ sp).state ∧ ((negCredits sp bytes b).port_ sp).step = (b.port_ sp).step := by
  unfold negCredits
  split
  · exact ⟨(ridgeTakeCredit_steps _).1.trans (ridgeTakeCredit_steps _).1, (ridgeTakeCredit_steps _).2.trans (ridgeTakeCredit_steps _).2⟩
  · exact ⟨rfl, rfl⟩

section
variable {bytes : List Byte}

theorem effNeg_of_other (h : field bytes 252 4 ≠ crc32 (bytes.take 252) ∨ bitsOf (field bytes 0 2) 13 12 ≠ 2) : effNeg sp bytes b = b :=
  if_pos h

section
variable (hc : field bytes 252 4 = crc32 (bytes.take 252)) (ht : bitsOf (field bytes 0 2) 13 12 = 2)
include hc ht

/-- What a negotiation message does in each state and step of its sub-port. -/
theorem effNeg_of_sound :
    let b0 := negCredits sp bytes b
    effNeg sp bytes b =
      match (b0.port_ sp).state, (b0.port_ sp).step with
      | .training, .ability => settleMode sp (parseNeg bytes) b0
      | .training, .last => portUp sp (parseNeg bytes) b0
      | .training, .lock => b0.setPort sp { b0.port_ sp with early := some (parseNeg bytes) }
      | .training, .train => b0.setPort sp { b0.port_ sp with early := some (parseNeg bytes) }
      | .up, _ =>
        let b1 := portTrain sp true b0
        b1.setPort sp { b1.port_ sp with early := some (parseNeg bytes) }
      | .down, _ => b0
      | .disabled, _ => b0 := by
  refine (if_neg (by simp only [not_or, not_not]; exact ⟨hc, ht⟩)).trans ?_
  simp only [Bool.or_eq_true, beq_iff_eq]
  rfl

theorem effNeg_of_ability (hs : (b.port_ sp).state = .training) (hp : (b.port_ sp).step = .ability) :
    effNeg sp bytes b = settleMode sp (parseNeg bytes) (negCredits sp bytes b) := by
  simp only [effNeg_of_sound hc ht, negCredits_steps, hs, hp]

theorem effNeg_of_last (hs : (b.port_ sp).state = .training) (hp : (b.port_ sp).step = .last) :
    effNeg sp bytes b = portUp sp (parseNeg bytes) (negCredits sp bytes b) := by
  simp only [effNeg_of_sound hc ht, negCredits_steps, hs, hp]

theorem effNeg_of_early (hs : (b.port_ sp).state = .training) (hp : (b.port_ sp).step = .lock ∨ (b.port_ sp).step = .train) :
    effNeg sp bytes b =
      (negCredits sp bytes b).setPort sp { (negCredits sp bytes b).port_ sp with early := some (parseNeg bytes) } := by
  obtain hp | hp := hp <;> simp only [effNeg_of_sound hc ht, negCredits_steps, hs, hp]

theorem effNeg_of_up (hs : (b.port_ sp).state = .up) :
    let b1 := portTrain sp true (negCredits sp bytes b)
    effNeg sp bytes b = b1.setPort sp { b1.port_ sp with early := some (parseNeg bytes) } := by
  simp only [effNeg_of_sound hc ht, negCredits_steps, hs]

theorem effNeg_of_dead (hs : (b.port_ sp).state = .down ∨ (b.port_ sp).state = .disabled) : effNeg sp bytes b = negCredits sp bytes b := by
  obtain hs | hs := hs <;> simp only [effNeg_of_sound hc ht, negCredits_steps, hs]

end
end

/-! ### Training ends -/

section
variable (hs : (b.port_ sp).state = .training) (hp : (b.port_ sp).step = .train)
include hs hp

theorem effPortTrainingEnd_of_first (he : (b.port_ sp).early = none) :
    effPortTrainingEnd sp true b = sendNeg sp (b.setPort sp { b.port_ sp with step := .last, early := none }) := by
  simp only [effPortTrainingEnd, hs, hp, he, and_self, if_true]

theorem effPortTrainingEnd_of_second {n : NegB} (he : (b.port_ sp).early = some n) :
    effPortTrainingEnd sp true b = portUp sp n (sendNeg sp (b.setPort sp { b.port_ sp with step := .last, early := none })) := by
  simp only [effPortTrainingEnd, hs, hp, he, and_self, if_true]

theorem effPortTrainingEnd_of_slower (hr : (b.port_ sp).rate < 2) :
    effPortTrainingEnd sp false b = b.setPort sp { b.port_ sp with rate := (b.port_ sp).rate + 1, early := none } :=
  (if_pos ⟨hs, hp⟩).trans ((if_neg (by decide)).trans (if_pos hr))

theorem effPortTrainingEnd_of_slowest (hr : 2 ≤ (b.port_ sp).rate) : effPortTrainingEnd sp false b = portDown sp 1 b :=
  (if_pos ⟨hs, hp⟩).trans ((if_neg (by decide)).trans (if_neg (Nat.not_lt.mpr hr)))

end

/-! ### Lanes, RETRAIN and RESET_PORT -/

/-- A sub-port one of whose lane halves has failed (R298). -/
def halfFailed (high : Prop) [Decidable high] (x : SubPort) : SubPort := if high then { x with badHi := true } else { x with badLo := true }

theorem effLaneFail_eq {lane : Nat} (h : sp = 2 * (lane / 8) + (if portSplit b (lane / 8) ∧ 4 ≤ lane % 8 then 1 else 0)) :
    effLaneFail lane b =
      (let b1 := b.setPort sp (halfFailed (4 ≤ lane % 8) (b.port_ sp))
       if (b.port_ sp).state = .up then portTrain sp true b1 else b1) := by
  have hsp : sp = if (portSplit b (lane / 8) && decide (4 ≤ lane % 8)) = true then 2 * (lane / 8) + 1 else 2 * (lane / 8) := by
    rw [h]
    by_cases hc : portSplit b (lane / 8) = true ∧ 4 ≤ lane % 8
    · simp [hc]
    · rw [if_neg hc, if_neg (by simpa using hc)]
      rfl
  simp only [effLaneFail, halfFailed, ← hsp, decide_eq_true_eq]

/-- Firmware's RETRAIN of a sub-port (R298). -/
theorem whenTrue_portRetrain {f : Nat → Blk → Blk} {v : Nat} {c : Blk} (hv : v = 1) (hf : f sp b = c) : whenTrue f sp v b = .ok c :=
  congrArg Except.ok ((if_pos hv).trans hf)

/-! ### The mode -/

section
variable {n : NegB}

theorem settleMode_of_refused (h : abilityCause b sp n ≠ 0) :
    settleMode sp n b =
      portDown sp (abilityCause b sp n) (b.setPort sp { b.port_ sp with peer := some n, chip := n.chip, die := n.die }) := if_pos h

theorem settleMode_of_agreed (h : abilityCause b sp n = 0) :
    let c := portCfg b (sp / 2)
    let f := bitsOf c 5 4
    settleMode sp n b = b.setPort sp { b.port_ sp with
      peer := some n, chip := n.chip, die := n.die,
      step := .train, rate := min 2 (max (bitsOf c 3 2) n.maxRate), halves := portHalves b sp &&& n.halves,
      width8 := portHalves b sp &&& n.halves == 3,
      fec272 := f ≠ 2 && n.fec ≠ 2 && (f = 1 || f = 3 || n.fec = 1 || n.fec = 3), revision := min 3 n.revision } := if_neg (not_not.mpr h)

/-! ### UP -/

/-- The partner's credits hold the largest packet of each channel (R303). -/
def enoughCredits (n : NegB) : Prop := ∀ i, i < 12 → ridgeLargest.getD (i / 2) 0 ≤ n.credits.getD i 0

theorem portUp_of_short {i : Nat} (hi : i < 12) (h : n.credits.getD i 0 < ridgeLargest.getD (i / 2) 0) : portUp sp n b = portDown sp 1 b :=
  if_pos (List.any_eq_true.mpr ⟨i, List.mem_range.mpr hi, decide_eq_true h⟩)

section
variable (he : enoughCredits n)
include he

theorem not_short : ¬ (List.range 12).any (fun i => n.credits.getD i 0 < ridgeLargest.getD (i / 2) 0) = true := by
  intro h
  obtain ⟨i, hi, hc⟩ := List.any_eq_true.mp h
  exact absurd (of_decide_eq_true hc) (Nat.not_lt.mpr (he i (List.mem_range.mp hi)))

theorem portUp_of_fresh (hr : (b.port_ sp).retraining = false) :
    portUp sp n b = b.setPort sp { b.port_ sp with state := .up, credits := n.credits, rxValid := true } :=
  (if_neg (not_short he)).trans (if_neg (ne_true_of_eq_false hr))

variable (hr : (b.port_ sp).retraining = true)
include hr

theorem portUp_of_lost (h : n.rxValid = false ∨ inReplay (b.port_ sp).replay (b.port_ sp).txSeq n.rxNext = false) :
    portUp sp n b = portDown sp 1 b := (if_neg (not_short he)).trans ((if_pos hr).trans (if_pos h))

theorem portUp_of_kept (hv : n.rxValid = true) (hi : inReplay (b.port_ sp).replay (b.port_ sp).txSeq n.rxNext = true) :
    portUp sp n b = ridgePay sp (bump Ctr.rgRetrains sp 1 (ridgeReplay sp (ridgeAck sp ((n.rxNext + 4095) % 4096)
      (b.setPort sp { b.port_ sp with state := .up, retraining := false, nakOut := false })))) :=
  (if_neg (not_short he)).trans ((if_pos hr).trans (if_neg (by simp [hv, hi])))

end
end
end

/-- Settles O52: each step of a negotiation by the port's state and step, the mode by both ability messages, and UP by the credits. -/
theorem ridgePortsNegotiate : Obligations.RidgePortsNegotiate := by
  intro s sp hl hsp
  have hP : decide (sp < 64) = true := decide_eq_true hsp
  refine ⟨fun hs hp => ⟨fun he => fireReady_eq hl hP (effLaneLock_of_first hs hp he),
      fun n he => fireReady_eq hl hP (effLaneLock_of_second hs hp he)⟩, fun bytes hn h => ?_, fun bytes hn hc ht => ?_,
    fun hs hp => ⟨fun he => fireReady_eq hl hP (effPortTrainingEnd_of_first hs hp he),
      fun n he => fireReady_eq hl hP (effPortTrainingEnd_of_second hs hp he),
      fun hr => fireReady_eq hl hP (effPortTrainingEnd_of_slower hs hp hr),
      fun hr => fireReady_eq hl hP (effPortTrainingEnd_of_slowest hs hp hr)⟩,
    fun lane hlane h => ⟨fun hu => fireReady_eq hl (decide_eq_true hlane) ((effLaneFail_eq h).trans (if_pos hu)),
      fun hu => fireReady_eq hl (decide_eq_true hlane) ((effLaneFail_eq h).trans (if_neg hu))⟩,
    fun r hw hv hr => ?_, fun r hw hv hr hd => ?_, fun b n => ⟨settleMode_of_refused, fun h => ?_⟩,
    fun b n hr he => portUp_of_fresh he hr, fun b n hr he => ⟨portUp_of_lost he hr, portUp_of_kept he hr⟩,
    fun b n i hi h => portUp_of_short hi h⟩
  · exact fireReady_eq hl (by simp [hsp, hn]) (effNeg_of_other h)
  · have hOk : (decide (sp < 64) && bytes.length == 256) = true := by simp [hsp, hn]
    exact ⟨fun hs hp => fireReady_eq hl hOk (effNeg_of_ability hc ht hs hp), fun hs hp => fireReady_eq hl hOk (effNeg_of_last hc ht hs hp),
      fun hs hp => fireReady_eq hl hOk (effNeg_of_early hc ht hs hp), fun hs => fireReady_eq hl hOk (effNeg_of_up hc ht hs),
      fun hs => fireReady_eq hl hOk (effNeg_of_dead hc ht hs)⟩
  · subst hr
    exact ⟨fun hu => fireReady_eq hl rfl (onWrite_ok hw (whenTrue_portRetrain hv (by simp only [hu]))),
      fun hu => fireReady_eq hl rfl (onWrite_ok hw (whenTrue_portRetrain hv (by simp only [hu])))⟩
  · subst hr
    refine fireReady_eq hl rfl (onWrite_ok hw (whenTrue_portRetrain hv ?_))
    split
    next h => exact absurd h hd
    next => rfl
  · intro y
    have hy : y = _ := (congrArg (·.port_ sp) (settleMode_of_agreed h)).trans ((port_setPort ..).trans (if_pos rfl))
    rw [hy]
    refine ⟨rfl, rfl, rfl, rfl, rfl, beq_iff_eq, ?_⟩
    simp only [Bool.and_eq_true, Bool.or_eq_true, decide_eq_true_eq, and_assoc, or_assoc]

end Sys2Proof.Machine
end

section
/-! SUPPORT. The Ridge's tables that are loaded from memory (R307, R311, R316, R317). -/
namespace Sys2Proof.Machine

/-! ### Tables made from words -/

/-- A table of the words that are not the reset value, in rising order. -/
def wordTable (d : Nat) (f : Nat → Nat) (l : List Nat) : Tbl Nat := l.filterMap (fun i => if f i = d then none else some (i, f i))

/-- Such a table reads as the words that it was made from. -/
theorem get_wordTable (d : Nat) (f : Nat → Nat) (i : Nat) : ∀ l : List Nat,
    Tbl.get d (wordTable d f l) i = if i ∈ l then f i else d
  | [] => rfl
  | j :: t => by
    have ih := get_wordTable d f i t
    unfold wordTable at ih ⊢
    by_cases hj : f j = d
    · rw [List.filterMap_cons_none (by rw [if_pos hj]), ih]
      by_cases hi : i = j
      · subst hi
        simp [hj]
      · simp [hi]
    · rw [List.filterMap_cons_some (by rw [if_neg hj])]
      by_cases hi : i = j
      · subst hi
        simp [Tbl.get]
      · simp [Tbl.get, Ne.symm hi, hi, ih]

theorem get_wordTable_range {d n i : Nat} (f : Nat → Nat) (hi : i < n) : Tbl.get d (wordTable d f (List.range n)) i = f i :=
  (get_wordTable d f i _).trans (if_pos (List.mem_range.mpr hi))

/-! ### An answer leaves the tables alone -/

/-- The tables of the Ridge that are loaded from memory. -/
def Blk.tables (b : Blk) : Tbl Nat × Tbl Nat := (b.ridge.route, b.ridge.mcast)

theorem d2dPump_tables (p : Nat) : ∀ (n : Nat) (b : Blk), (d2dPump p n b).tables = b.tables
  | 0, _ => rfl
  | n + 1, b => by
    simp only [d2dPump]
    split
    · split
      · rfl
      · rw [d2dPump_tables p n]
        rfl
    · rfl

theorem d2dSend_tables (p : Nat) (k : DPkt) (b : Blk) : (d2dSend p k b).tables = b.tables := by
  simp only [d2dSend]
  split
  · rfl
  · rfl
  · exact d2dPump_tables _ _ _
  · exact d2dPump_tables _ _ _

theorem sendMsg_tables (chip die : Nat) (c : Cls) (m : Msg) (b : Blk) : (sendMsg chip die c m b).tables = b.tables := by
  simp only [sendMsg]
  split
  · split
    · rfl
    · exact d2dSend_tables _ _ _
  · rfl

theorem sendDict_tables (die : Nat) (msg : List Byte) (b : Blk) : (sendDict die msg b).tables = b.tables :=
  foldl_keeps Blk.tables _ (fun _ _ => sendMsg_tables _ _ _ _ _) _ _

theorem reply_tables (r : Req) (body : List Byte) (b : Blk) : (reply r body b).tables = b.tables := by
  unfold reply
  split
  · exact sendDict_tables _ _ _
  · split
    · rfl
    · split <;> rfl

theorem finishReq_tables (r : Req) (body : List Byte) (b : Blk) : (finishReq r body b).tables = b.tables := by
  refine (reply_tables _ _ _).trans ?_
  split <;> rfl

theorem answered_tables (r : Req) (b : Blk) : (b.answered r).tables = b.tables := finishReq_tables _ _ _

section
variable {b : Blk}

/-! ### ROUTE_LOAD and MCAST_LOAD -/

/-- The word of an entry that was loaded, or its reset value (R307, R382). -/
def loadedWord (w d k : Nat) (l : List PByte) (i : Nat) : Nat := (((tableWords w l).getD i none).getD d) % 2 ^ k

/-- The block with a routing table in force, and without declarations (R307, R316). -/
def Blk.withRoutes (b : Blk) (t : Tbl Nat) : Blk := { b with ridge := { b.ridge with route := t, loading := none, declared := [] } }

theorem withRoutes_ridge (b : Blk) (t : Tbl Nat) : (b.withRoutes t).settle.ridge.loading = none ∧
    (b.withRoutes t).settle.ridge.declared = [] ∧ (b.withRoutes t).settle.ridge.mcast = b.ridge.mcast ∧
    (b.withRoutes t).settle.ridge.route = t := ⟨rfl, rfl, rfl, rfl⟩

/-- The routing table that lies at an offset of the memory. -/
def routesAt (off : Nat) (b : Blk) : Tbl Nat :=
  wordTable routeReset (loadedWord 4 routeReset 30 (gsRead none off 65536 b).2) (List.range 16384)

theorem get_routesAt {off i : Nat} (hi : i < 16384) :
    Tbl.get routeReset (routesAt off b) i = loadedWord 4 routeReset 30 (gsRead none off 65536 b).2 i := get_wordTable_range _ hi

theorem effRouteLoadDone_of_loading {off : Nat} (h : b.ridge.loading = some off) :
    effRouteLoadDone b = (gsRead none off 65536 b).1.withRoutes (routesAt off b) := by
  simp only [effRouteLoadDone, h]
  rfl

/-- The block with a table of groups in force (R317). -/
def Blk.withGroups (b : Blk) (t : Tbl Nat) : Blk := { b with ridge := { b.ridge with mcast := t } }

theorem withGroups_answered (b : Blk) (t : Tbl Nat) (r : Req) : ((b.withGroups t).answered r).settle.ridge.route = b.ridge.route ∧
    ((b.withGroups t).answered r).settle.ridge.mcast = t := by
  have h := answered_tables r (b.withGroups t)
  exact ⟨congrArg Prod.fst h, congrArg Prod.snd h⟩

/-- The groups that lie at an offset of the memory. -/
def groupsAt (off : Nat) (b : Blk) : Tbl Nat := wordTable 0 (loadedWord 16 0 69 (gsRead none off 65536 b).2) (List.range 4096)

theorem get_groupsAt {off i : Nat} (hi : i < 4096) :
    Tbl.get 0 (groupsAt off b) i = loadedWord 16 0 69 (gsRead none off 65536 b).2 i := get_wordTable_range _ hi

theorem effMcastLoad_of_written {r : Req} (hw : Written b Obj.mcastLoad 1 r) (h : loadable b r.value 65536 = true) :
    effMcastLoad b = ((gsRead none r.value 65536 b).1.withGroups (groupsAt r.value b)).answered r := onWrite_ok hw (if_pos h)

/-! ### PARTITION_COMMIT -/

section
variable {n : Nat}

theorem effPartitionCommit_of_busy (h : slotQuiet b n = false) : effPartitionCommit n b = b := if_neg (ne_true_of_eq_false h)

/-- The record that a slot has loaded comes into force (R311). -/
def recordInForce (n : Nat) (b : Blk) : Blk :=
  let x : PartSlot := Tbl.get {} b.ridge.slots n
  match x.loaded with
  | some r => { b with ridge := { b.ridge with slots := b.ridge.slots.set n { x with record := r, loaded := none, bad := r.isEmpty } } }
  | none => b

theorem recordInForce_obj (k d : Nat) : (recordInForce n b).obj k d = b.obj k d ∧ (recordInForce n b).mg.rwc = b.mg.rwc := by
  unfold recordInForce
  dsimp only
  split <;> exact ⟨rfl, rfl⟩

section
variable (hm : partMoves b n = []) (hq : slotQuiet b n = true)
include hm hq

theorem effPartitionCommit_of_plain (hv : b.mg.rwc.find? (fun e => e.1 = Obj.partId + n) = none) :
    effPartitionCommit n b = recordInForce n b := by
  simp only [effPartitionCommit, hm, if_pos hq, List.filter_nil, List.foldl_nil, hv]
  rfl

theorem effPartitionCommit_of_accepted {v : Nat} (hv : b.mg.rwc.find? (fun e => e.1 = Obj.partId + n) = some (Obj.partId + n, v)) :
    effPartitionCommit n b = recordInForce n
      { b.setObj (Obj.partId + n) v with mg := { (b.setObj (Obj.partId + n) v).mg with rwc := b.mg.rwc.del (Obj.partId + n) } } := by
  simp only [effPartitionCommit, hm, if_pos hq, List.filter_nil, List.foldl_nil, hv]
  rfl

end

theorem recordInForce_of_loaded {l : List Byte} (h : (Tbl.get {} b.ridge.slots n : PartSlot).loaded = some l) :
    let x : PartSlot := { (Tbl.get {} b.ridge.slots n : PartSlot) with record := l, loaded := none, bad := l.isEmpty }
    recordInForce n b = { b with ridge := { b.ridge with slots := b.ridge.slots.set n x } } := by
  simp only [recordInForce, h]

theorem recordInForce_of_none (h : (Tbl.get {} b.ridge.slots n : PartSlot).loaded = none) : recordInForce n b = b := by
  simp only [recordInForce, h]

end
end

/-- Settles O53: each load by whether it is accepted, a loaded table by its entries, and a commit by what waits for the slot. -/
theorem ridgeTablesLoadAndCommit : Obligations.RidgeTablesLoadAndCommit := by
  refine fun s hl => ⟨fun r hw => ⟨fun h1 h2 => fireReady_eq hl rfl (onWrite_ok hw (if_neg (by simp [h1, h2]))),
      fun h => fireReady_eq hl rfl (onWrite_error hw (if_pos h))⟩,
    fun h => fireReady_eq hl rfl (by simp only [effRouteLoadDone, h]),
    fun off h => ?_,
    fun r hw => ⟨fun h => ?_,
      fun h => fireReady_eq hl rfl (onWrite_error hw (if_neg (ne_true_of_eq_false h)))⟩,
    fun r hw => ⟨fun h => fireReady_eq hl rfl (onWrite_ok hw (if_pos h)),
      fun h => fireReady_eq hl rfl (onWrite_error hw (if_neg (ne_true_of_eq_false h)))⟩,
    fun n hn hm => ⟨fun hq => fireReady_eq hl (decide_eq_true hn) (effPartitionCommit_of_busy hq),
      fun hq hv => ⟨fun l hx => fireReady_eq hl (decide_eq_true hn)
          ((effPartitionCommit_of_plain hm hq hv).trans (recordInForce_of_loaded hx)),
        fun hx => fireReady_eq hl (decide_eq_true hn) ((effPartitionCommit_of_plain hm hq hv).trans (recordInForce_of_none hx))⟩,
      fun v hq hv => ⟨_, fireReady_eq hl (decide_eq_true hn) (effPartitionCommit_of_accepted hm hq hv), ?_, ?_⟩⟩⟩
  · obtain ⟨h1, h2, h3, h4⟩ := withRoutes_ridge (gsRead none off 65536 s.b).1 (routesAt off s.b)
    exact ⟨_, fireReady_eq hl rfl (effRouteLoadDone_of_loading h), h1, h2, h3,
      fun i hi => (congrArg (fun t => Tbl.get routeReset t i) h4).trans (get_routesAt hi)⟩
  · obtain ⟨h1, h2⟩ := withGroups_answered (gsRead none r.value 65536 s.b).1 (groupsAt r.value s.b) r
    exact ⟨_, fireReady_eq hl rfl (effMcastLoad_of_written hw h), h1,
      fun i hi => (congrArg (fun t => Tbl.get 0 t i) h2).trans (get_groupsAt hi)⟩
  · refine (recordInForce_obj _ _).1.trans ?_
    exact (obj_setObj ..).trans (if_pos rfl)
  · refine (congrArg (List.find? _) (recordInForce_obj 0 0).2).trans (List.find?_eq_none.mpr fun e he => ?_)
    simpa using (List.mem_filter.mp he).2

end Sys2Proof.Machine
end

section
/-! SUPPORT. Cold and warm reset (R334 to R339). -/
namespace Sys2Proof.Machine

/-- An event that is met in every phase. -/
theorem fire_eq {s : State} {ok : Bool} {f : Blk → Blk} {b : Blk} (hok : ok = true) (h : f s.b = b) : fire ok f s = .next (s.after b) := by
  subst hok h
  rfl

section
variable {b : Blk}

/-! ### The sequence -/

theorem effColdReset_of_cold {st : Straps} {id : Ident} (h : b.pw.phase = .cold) :
    effColdReset st id b = { coldBlk st id b with pw := { (coldBlk st id b).pw with phase := .lock } } := by
  simp only [effColdReset, h]

/-- The dividers of a block whose root clock is locked start together (R335). -/
def dividersOf (b : Blk) : Blk :=
  { b with
    clk := { aon := b.clk.aon, gs := b.clk.gs, d2d := b.clk.d2d }
    pw := { b.pw with phase := .dividers, rootLocked := true, since := 0, khzAon := b.clk.aon }
    lan := { b.lan with lastAon := b.clk.aon } }

theorem effRootLocked_of_lock (h : b.pw.phase = .lock) : effRootLocked b = dividersOf b := by
  simp only [effRootLocked, h, dividersOf]

theorem effResetEnd_of_due (h : b.pw.phase = .dividers) (hc : 32 ≤ b.clk.core) :
    let b0 : Blk := { b with pw := { b.pw with phase := .initialise, oe := true, freqAck := false }, mg := { b.mg with released := !b.straps.held } }
    effResetEnd b = samplePins (blockRamp (if b.pw.cause = 0 then b0 else alert 6 b0)) := by
  simp only [effResetEnd, h, if_pos hc]

theorem effReady_of_due (h : b.pw.phase = .initialise) (hc : 20160 ≤ b.clk.core) :
    let b0 : Blk := { b with pw := { b.pw with phase := .ready, readyPin := true } }
    effReady b = if b.mg.released then startLinks b0 else b0 := by
  simp only [effReady, h, if_pos hc]

/-! ### Warm reset: triggers -/

theorem effWarmRstN_of_low (h : b.pw.phase = .ready ∨ b.pw.phase = .initialise ∨ b.pw.phase = .dividers ∨ b.pw.phase = .lock) :
    effWarmRstN false b = warmBegin 1 true { b with pw := { b.pw with warmRstN := false } } := by
  obtain h | h | h | h := h <;> simp [effWarmRstN, warmPin, h]

theorem effWarmRstN_of_rise (h : b.pw.phase = .warm) (hp : b.pw.warmByPin = true) :
    effWarmRstN true b = { b with pw := { b.pw with warmRstN := true, phase := .lock } } := by
  simp only [effWarmRstN, warmPin, h, hp, if_true]

theorem effWarmResetRestart_of_due (h : b.pw.phase = .warm) (hp : b.pw.warmByPin = false) (ht : b.pw.since + 64 ≤ b.clk.aon) :
    effWarmResetRestart b = { b with pw := { b.pw with phase := .lock } } := by
  simp only [effWarmResetRestart, h]
  exact if_pos (by rw [hp, decide_eq_true ht]; rfl)

theorem effResetWarm_of_written {r : Req} (hw : Written b Obj.resetWarm 1 r) (hv : r.value = 1) (ht : b.pw.warmAt = none) :
    effResetWarm b = ({ b with pw := { b.pw with warmAt := some b.clk.mgmt } } : Blk).answered r :=
  onWrite_ok hw (congrArg Except.ok ((if_pos hv).trans (if_neg (by simp [ht]))))

section
variable {t : Nat} (ht : b.pw.warmAt = some t)
include ht

theorem effWarmResetTrigger_of_due (h : t + 1024 ≤ b.clk.mgmt) : effWarmResetTrigger false b = warmBegin 2 false b := by
  refine (if_neg (by decide)).trans ?_
  simp only [ht, if_pos h]

theorem effWarmResetTrigger_of_early (h : b.clk.mgmt < t + 1024) : effWarmResetTrigger false b = b := by
  refine (if_neg (by decide)).trans ?_
  simp only [ht, if_neg (Nat.not_le.mpr h)]

end

theorem effWarmResetTrigger_of_lockLost (h : b.pw.phase = .ready ∨ b.pw.phase = .initialise) :
    effWarmResetTrigger true b = warmBegin 3 false { b with pw := { b.pw with rootLocked := false } } := by
  have ha : afterReset { b with pw := { b.pw with rootLocked := false } } = true := by
    obtain h | h := h <;> simp [afterReset, h]
  exact (if_pos rfl).trans (if_pos ha)

/-! ### Warm reset: what it keeps -/

/-- The block as a warm reset leaves it, before its links send LINK_RESET (R336, R337). -/
def warmBlk (cause : Nat) (byPin : Bool) (b : Blk) : Blk :=
  { build := b.build, straps := b.straps, ident := b.ident
    clk := { aon := b.clk.aon, gs := b.clk.gs, d2d := b.clk.d2d }
    pw := { pinLevels b with phase := .warm, since := b.clk.aon, cause := cause, warmByPin := byPin }
    mem := landWrites b, hostMem := b.hostMem
    host := { trainings := b.host.trainings + 1 }
    d2d := { features := b.d2d.features }
    mg := { val := b.mg.val.filter (fun e => keptObj e.1) }
    err := { log := b.err.log }
    lan := { ujCtx := b.lan.ujCtx, ujQ := b.lan.ujQ, ujBlk := b.lan.ujBlk, lastAon := b.clk.aon }
    out := b.out, stamp := b.stamp + 1 }

theorem foldl_linkReset (l : List Nat) (b : Blk) :
    l.foldl (fun c p => sideband p 2 0 0 0 c) b = { b with out := b.out ++ l.map (fun q => .sideband q 2#64) } := by
  induction l generalizing b with
  | nil => simp
  | cons p t ih =>
    rw [List.foldl_cons, ih]
    simp [sideband, emit]

theorem warmBegin_eq (cause : Nat) (byPin : Bool) (b : Blk) :
    warmBegin cause byPin b = { warmBlk cause byPin b with out := b.out ++ (resetLinks b).map (fun q => .sideband q 2#64) } :=
  foldl_linkReset (resetLinks b) (warmBlk cause byPin b)

theorem warmBlk_obj (cause : Nat) (byPin : Bool) (k d : Nat) : (warmBlk cause byPin b).obj k d = if keptObj k then b.obj k d else d :=
  Tbl.get_filter d keptObj k b.mg.val

end

/-- Settles O54: each event of the sequence by its phase and its time, and a warm reset by the block that it leaves. -/
theorem resetsRunTheirSequence : Obligations.ResetsRunTheirSequence := by
  refine fun s => ⟨rfl, fun st id hs h => fire_eq hs (effColdReset_of_cold h), fun st id => ?_,
    fun h => ⟨_, fire_eq rfl (effRootLocked_of_lock h), rfl, rfl, rfl, rfl, rfl, rfl⟩,
    fun h hc => fire_eq rfl (effResetEnd_of_due h hc), fun h hc => fire_eq rfl (effReady_of_due h hc),
    fun h => fire_eq rfl (effWarmRstN_of_low h), fun h hp => fire_eq rfl (effWarmRstN_of_rise h hp),
    fun h hp ht => fire_eq rfl (effWarmResetRestart_of_due h hp ht), fun r hl hw hv ht => fireReady_eq hl rfl (effResetWarm_of_written hw hv ht),
    fun t ht => ⟨fun h => fire_eq rfl (effWarmResetTrigger_of_due ht h), fun h => fire_eq rfl (effWarmResetTrigger_of_early ht h)⟩,
    fun h => fire_eq rfl (effWarmResetTrigger_of_lockLost h), fun cause byPin => ?_⟩
  · exact ⟨rfl, rfl, rfl, rfl, rfl, rfl, rfl, rfl, rfl, rfl, rfl, rfl, rfl, rfl, rfl, rfl, rfl, rfl⟩
  · rw [warmBegin_eq]
    refine ⟨rfl, rfl, rfl, rfl, rfl, rfl, rfl, rfl, rfl, rfl, (warmBlk_obj cause byPin ..).trans (if_pos (by decide)),
      (warmBlk_obj cause byPin ..).trans (if_pos (by decide)), fun k d hk => (warmBlk_obj cause byPin ..).trans (if_neg (ne_true_of_eq_false hk)),
      rfl, rfl, rfl, rfl, rfl, rfl, rfl, rfl, rfl, rfl, rfl, rfl, rfl⟩

end Sys2Proof.Machine
end

section
/-! SUPPORT. The power inputs (R338, R343, R345 to R347). -/
namespace Sys2Proof.Machine

/-! ### Events past the end of reset -/

/-- A row that acts past the end of reset (R338), there. -/
theorem live_eq {s : State} {c d e : Blk} (ha : afterReset s.b = true) (h : c = e) :
    (.next (s.after (if afterReset s.b then c else d)) : Host.Outcome State Fault Refusal) = .next (s.after e) :=
  congrArg (fun b => Host.Outcome.next (s.after b)) ((if_pos ha).trans h)

/-- The same row before the end of reset. -/
theorem unlive_eq {s : State} {c d : Blk} (ha : afterReset s.b = false) :
    (.next (s.after (if afterReset s.b then c else d)) : Host.Outcome State Fault Refusal) = .next (s.after d) :=
  congrArg (fun b => Host.Outcome.next (s.after b)) (if_neg (ne_true_of_eq_false ha))

section
variable {b : Blk}

theorem freqHold_iff : freqHold b = true ↔ b.pw.stretching = true ∨ ∃ t, b.pw.released = some t ∧ b.clk.core < t + 1800 := by
  unfold freqHold
  cases b.pw.released <;> simp

/-! ### Droop -/

theorem effDroopWarnRise_of_low (h : b.pw.droop = false) :
    effDroopWarnRise b = bump Ctr.pwDroops 0 1 { b with pw := { b.pw with
      droop := true, stretching := true, droopFell := none, freqHeld := b.pw.freqHeld || (b.pw.freqReq && !b.pw.freqAck) } } :=
  if_neg (ne_true_of_eq_false h)

section
variable {t : Nat} (ht : b.pw.droopFell = some t)
include ht

theorem effStretchRelease_of_due (hs : b.pw.stretching = true) (hd : b.pw.droop = false) (h : t + 256 ≤ b.clk.core) :
    effStretchRelease b = { b with pw := { b.pw with stretching := false, droopFell := none, released := some b.clk.core } } := by
  have hc : (b.pw.stretching && !b.pw.droop && decide (t + 256 ≤ b.clk.core)) = true := by simp [hs, hd, h]
  simp only [effStretchRelease, ht, hc, if_true]

theorem effStretchRelease_of_early (h : b.clk.core < t + 256) : effStretchRelease b = b := by
  have hc : (b.pw.stretching && !b.pw.droop && decide (t + 256 ≤ b.clk.core)) = false := by simp [h]
  simp only [effStretchRelease, ht, hc]
  rfl

end

/-! ### Frequency changes -/

section
variable (hr : b.pw.freqReq = false)
include hr

theorem effFreqReqRise_of_held (h : freqHold b = true) :
    effFreqReqRise b = { b with pw := { b.pw with freqReq := true, freqHeld := true } } :=
  (if_neg (ne_true_of_eq_false hr)).trans (if_pos h)

theorem effFreqReqRise_of_free (h : freqHold b = false) :
    effFreqReqRise b = bump Ctr.pwFreqChanges 0 1 { b with pw := { b.pw with freqReq := true, freqAck := true, freqHeld := false } } :=
  (if_neg (ne_true_of_eq_false hr)).trans (if_neg (ne_true_of_eq_false h))

end

theorem effFreqHoldEnd_of_free (hr : b.pw.freqReq = true) (hh : b.pw.freqHeld = true) (h : freqHold b = false) :
    effFreqHoldEnd b = bump Ctr.pwFreqChanges 0 1 { b with pw := { b.pw with freqAck := true, freqHeld := false } } :=
  if_pos (by rw [hr, hh, h]; rfl)

end

/-- Settles O55: each input by whether reset has ended, by its level and by what holds a grant. -/
theorem powerInputsAct : Obligations.PowerInputsAct := by
  refine fun s => ⟨fun ha => ⟨fun h => live_eq ha (effDroopWarnRise_of_low h), fun h => live_eq ha (if_pos h),
      fun t ht hs hd => ⟨fun h => live_eq ha (effStretchRelease_of_due ht hs hd h), fun h => live_eq ha (effStretchRelease_of_early ht h)⟩,
      fun hr => ⟨fun h => live_eq ha (effFreqReqRise_of_held hr h), fun h => live_eq ha (effFreqReqRise_of_free hr h)⟩,
      fun hr hh h => live_eq ha (effFreqHoldEnd_of_free hr hh h), live_eq ha rfl, live_eq ha rfl, live_eq ha rfl⟩,
    fun ha => ⟨unlive_eq ha, unlive_eq ha, unlive_eq ha, unlive_eq ha, fun t h => ?_, fun t h => ?_⟩,
    freqHold_iff⟩
  · obtain rfl := Host.Outcome.next.inj (h.symm.trans (unlive_eq ha))
    rfl
  · obtain rfl := Host.Outcome.next.inj (h.symm.trans (unlive_eq ha))
    rfl

end Sys2Proof.Machine
end

section
/-! SUPPORT. Ramps, duty, the energy pass and CORE_KHZ (R333, R341, R342, R350). -/
namespace Sys2Proof.Machine

section
variable {b : Blk} {p : Nat}

/-! ### Ramps -/

theorem effRampStart_of_due {t : Nat} (ht : (b.pitch p).arr.startAt = some t) (h : t ≤ b.clk.core) :
    effRampStart p b = b.setPitch p { b.pitch p with
      arr := { (b.pitch p).arr with ramp := .quarter, rampAt := b.clk.pitch, startAt := none } } := by
  simp only [effRampStart, ht, if_pos h]

theorem effRampStep_of_quarter (hr : (b.pitch p).arr.ramp = .quarter) (h : (b.pitch p).arr.rampAt + 64 ≤ b.clk.pitch) :
    effRampStep p b = b.setPitch p { b.pitch p with arr := { (b.pitch p).arr with ramp := .half } } := by
  simp only [effRampStep, hr, if_pos h]

theorem effRampStep_of_half (hr : (b.pitch p).arr.ramp = .half) (h : (b.pitch p).arr.rampAt + 128 ≤ b.clk.pitch) :
    effRampStep p b = b.setPitch p { b.pitch p with arr := { (b.pitch p).arr with ramp := .full } } := by
  simp only [effRampStep, hr, if_pos h]

/-- The arrays of the first `k` pitches, changed one after another. -/
def arraysTo (f : Nat → ArraySt → ArraySt) (k : Nat) (b : Blk) : Blk :=
  (List.range k).foldl (fun b p => b.setPitch p { b.pitch p with arr := f p (b.pitch p).arr }) b

theorem arraysTo_pitch (f : Nat → ArraySt → ArraySt) (k : Nat) :
    (arraysTo f k b).pitch p = if p < k then { b.pitch p with arr := f p (b.pitch p).arr } else b.pitch p := by
  induction k with
  | zero => rfl
  | succ k ih =>
    have hstep : arraysTo f (k + 1) b = (arraysTo f k b).setPitch k
        { (arraysTo f k b).pitch k with arr := f k ((arraysTo f k b).pitch k).arr } := by
      simp only [arraysTo, List.range_succ, List.foldl_append, List.foldl_cons, List.foldl_nil]
    rw [hstep, pitch_setPitch]
    by_cases hk : p = k
    · subst hk
      have : (arraysTo f p b).pitch p = b.pitch p := by simpa using ih
      rw [if_pos rfl, this, if_pos (Nat.lt_succ_self p)]
    · rw [if_neg hk, ih]
      exact if_congr (by omega) rfl rfl

/-- What a block-wide trigger does to pitch k's array (R341). -/
def staggered (now k : Nat) (a : ArraySt) : ArraySt :=
  if a.ramp == .full && a.startAt.isNone then { a with startAt := some (now + 8 * k) } else a

/-- A block-wide trigger starts each array that is at full duty and waits for none, staggered by its pitch (R341). -/
theorem blockRamp_pitch (hp : p < b.pitchCount) : ((blockRamp b).pitch p).arr =
    if (b.pitch p).arr.ramp = .full ∧ (b.pitch p).arr.startAt = none
    then { (b.pitch p).arr with startAt := some (b.clk.core + 8 * p) } else (b.pitch p).arr := by
  refine (congrArg Pitch.arr ((arraysTo_pitch (staggered b.clk.core) b.pitchCount).trans (if_pos hp))).trans ?_
  simp only [staggered, Bool.and_eq_true, beq_iff_eq, Option.isNone_iff_eq_none]

/-! ### Duty -/

theorem Ramp.duty_eq (r : Ramp) : r.duty = if r = .quarter then 1 else if r = .half then 2 else 4 := by
  cases r <;> rfl

theorem dutyOf_eq (b : Blk) (p : Nat) : dutyOf b p =
    min (if (b.pitch p).arr.ramp = .quarter then 1 else if (b.pitch p).arr.ramp = .half then 2 else 4)
      (min (if b.pw.throttleAck then min 3 (b.obj Obj.throttleDuty 1 + 1) else 4) (if b.pw.freqAck then 1 else 4)) := by
  rw [← Ramp.duty_eq]
  rfl

theorem dutyOf_le (b : Blk) (p : Nat) : dutyOf b p ≤ 4 := by
  refine Nat.le_trans (Nat.min_le_left _ _) ?_
  rw [Ramp.duty_eq]
  split
  · omega
  · split <;> omega

/-- The cycles in which an array may advance, of each four, by its duty (R342). -/
theorem permitted_iff (b : Blk) (p : Nat) : permitted b p = true ↔ dutyOf b p = 1 ∧ b.clk.pitch % 4 = 0 ∨
    dutyOf b p = 2 ∧ b.clk.pitch % 2 = 0 ∨ dutyOf b p = 3 ∧ b.clk.pitch % 4 ≠ 3 ∨ dutyOf b p = 0 ∨ dutyOf b p = 4 := by
  have hle := dutyOf_le b p
  unfold permitted
  split
  next h => simp [h]
  next h => simp [h]
  next h => simp [h]
  next h1 h2 h3 =>
    have h1 : dutyOf b p ≠ 1 := h1
    have h2 : dutyOf b p ≠ 2 := h2
    have h3 : dutyOf b p ≠ 3 := h3
    simp only [true_iff]
    omega

/-! ### Energy -/

/-- What one counter holds after an increase, by what it held. -/
theorem addEnergy_addEnergy (rem uj m n : Nat) :
    addEnergy (addEnergy rem uj m).1 (addEnergy rem uj m).2 n = addEnergy rem uj (m + n) := by
  unfold addEnergy
  refine Prod.ext ?_ ?_
  · rw [Nat.mod_add_mod, Nat.add_assoc]
  · have hd : (rem + (m + n)) / 10 ^ 9 = (rem + m) / 10 ^ 9 + ((rem + m) % 10 ^ 9 + n) / 10 ^ 9 := by omega
    dsimp only
    rw [hd, Nat.mod_add_mod, Nat.add_assoc]

theorem addEnergy_zero {rem uj : Nat} (hr : rem < 10 ^ 9) (hu : uj < 2 ^ 64) : addEnergy rem uj 0 = (rem, uj) := by
  unfold addEnergy
  rw [Nat.add_zero, Nat.mod_eq_of_lt hr, Nat.div_eq_of_lt hr, Nat.add_zero, Nat.mod_eq_of_lt hu]

/-- The energy of an owner's increases. -/
def ownEnergy (b : Blk) (o : Nat) (l : List (Nat × Nat)) : Nat :=
  ((l.filter (fun e => e.1 % 65536 = o)).map (fun e => e.2 * energyCoef b (e.1 / 65536))).sum

theorem addEnergy_bounds (rem uj fj : Nat) : (addEnergy rem uj fj).1 < 10 ^ 9 ∧ (addEnergy rem uj fj).2 < 2 ^ 64 :=
  ⟨Nat.mod_lt _ (by decide), Nat.mod_lt _ (by decide)⟩

/-- A pass gives each owner the energy of its increases at once. -/
theorem passOwners_get (b : Blk) (o : Nat) : ∀ (l : List (Nat × Nat)) (rem uj : Tbl Nat), Tbl.get 0 rem o < 10 ^ 9 → Tbl.get 0 uj o < 2 ^ 64 →
    (Tbl.get 0 (passOwners b l (rem, uj)).1 o, Tbl.get 0 (passOwners b l (rem, uj)).2 o) =
      addEnergy (Tbl.get 0 rem o) (Tbl.get 0 uj o) (ownEnergy b o l)
  | [], rem, uj, hr, hu => (addEnergy_zero hr hu).symm
  | (k, n) :: t, rem, uj, hr, hu => by
    rw [passOwners]
    by_cases hk : k % 65536 = o
    · subst hk
      have hb := addEnergy_bounds (Tbl.get 0 rem (k % 65536)) (Tbl.get 0 uj (k % 65536)) (n * energyCoef b (k / 65536))
      rw [passOwners_get b _ t _ _ (by simpa using hb.1) (by simpa using hb.2)]
      simp only [Tbl.get_set, if_true, addEnergy_addEnergy]
      congr 1
      simp [ownEnergy]
    · rw [passOwners_get b o t _ _ (by simpa [Ne.symm hk] using hr) (by simpa [Ne.symm hk] using hu)]
      simp only [Tbl.get_set, if_neg (Ne.symm hk)]
      congr 1
      simp [ownEnergy, hk]

theorem effEnergyPass_of_early (h : b.clk.qtr < b.lan.lastPass + 32) : effEnergyPass b = b :=
  if_neg (by simpa [passDue] using h)

/-- The counters after a pass (R350). -/
def energyPassed (b : Blk) : Blk :=
  let l := b.lan
  let c := passOwners b l.evCtx (l.remCtx, l.ujCtx)
  let q := passOwners b l.evQ (l.remQ, l.ujQ)
  let e := addEnergy l.remBlk l.ujBlk (l.evBlk.foldl (fun a e => a + e.2 * energyCoef b e.1) 0
    + 10000 * b.obj Obj.staticMw 0 * (b.clk.aon - l.lastAon))
  { b with lan := { l with
      evCtx := [], evQ := [], evBlk := [], remCtx := c.1, ujCtx := c.2, remQ := q.1, ujQ := q.2, remBlk := e.1,
      ujBlk := e.2, lastPass := l.lastPass + 32, lastAon := b.clk.aon } }

theorem effEnergyPass_of_due (h : b.lan.lastPass + 32 ≤ b.clk.qtr) : effEnergyPass b = energyPassed (commitEnergy b) :=
  if_pos (decide_eq_true h)

theorem commitEnergy_of_one {e v : Nat} (he : e < 14) (h : b.mg.rwc = [(Obj.energyCoef + e, v)]) :
    energyCoef (commitEnergy b) e = v ∧ (commitEnergy b).mg.rwc = [] := by
  have hk : isEnergyKey (Obj.energyCoef + e) = true := by simp [isEnergyKey, he]
  simp [commitEnergy, h, hk, energyCoef, Blk.obj]

theorem energyPassed_remBlk : (energyPassed b).lan.remBlk =
    (b.lan.remBlk + (b.lan.evBlk.map (fun e => e.2 * energyCoef b e.1)).sum
      + 10000 * b.obj Obj.staticMw 0 * (b.clk.aon - b.lan.lastAon)) % 10 ^ 9 := by
  have hs : b.lan.evBlk.foldl (fun a e => a + e.2 * energyCoef b e.1) 0 = (b.lan.evBlk.map (fun e => e.2 * energyCoef b e.1)).sum := by
    rw [List.sum_eq_foldl, List.foldl_map]
  rw [Nat.add_assoc, ← hs]
  rfl

/-! ### CORE_KHZ -/

theorem effCoreKhzWindow_of_due (h : b.pw.khzAon + 100000 ≤ b.clk.aon) :
    effCoreKhzWindow b =
      (let c := b.setObj Obj.coreKhz ((b.clk.core - b.pw.khzCore) % 2 ^ 32)
       { c with pw := { c.pw with khzCore := c.clk.core, khzAon := c.pw.khzAon + 100000 } }) := if_pos h

end

/-- Settles O56: ramps by their time, duty by its three limits, a pass owner by owner over the increases, and the window by its cycle. -/
theorem rampsEnergyAndCoreKhz : Obligations.RampsEnergyAndCoreKhz := by
  intro s ha
  have hP {p : Nat} {f : Blk → Blk} {c : Blk} (hp : p < 32) (h : f s.b = c) :
      fire (p < 32) (fun b => if afterReset b then f b else b) s = .next (s.after c) :=
    fire_eq (decide_eq_true hp) ((if_pos ha).trans h)
  refine ⟨fun p t hp ht h => hP hp (effRampStart_of_due ht h), fun p hp => ⟨fun hr h => hP hp (effRampStep_of_quarter hr h),
      fun hr h => hP hp (effRampStep_of_half hr h)⟩, fun b p hp => blockRamp_pitch hp, fun b p => ⟨dutyOf_eq b p, permitted_iff b p⟩,
    fun h => live_eq ha (effEnergyPass_of_early h), fun h => ⟨_, live_eq ha (effEnergyPass_of_due h), ?_⟩,
    fun h => ⟨_, live_eq ha (effCoreKhzWindow_of_due h), ?_, rfl, rfl⟩⟩
  · refine ⟨fun e he v hv => commitEnergy_of_one he hv, rfl, rfl, rfl, rfl, rfl, fun o hr hu => ?_, energyPassed_remBlk⟩
    exact Prod.mk.inj (passOwners_get (commitEnergy s.b) o s.b.lan.evCtx s.b.lan.remCtx s.b.lan.ujCtx hr hu)
  · exact (obj_setObj s.b ..).trans (if_pos rfl)

end Sys2Proof.Machine
end

section
/-! SUPPORT. The management bindings: I3C and in-band MCTP (R355 to R358, R366). -/
namespace Sys2Proof.Machine

section
variable {b : Blk}

/-! ### I3C addresses and reads -/

theorem effSetdasa_of_static {dyn : Nat} (hl : b.straps.lead = true) (hn : b.mg.dynAddr = none) :
    effSetdasa b.straps.i3cAddr dyn b = { b with mg := { b.mg with dynAddr := some dyn } } := if_pos (by simp [hl, hn])

theorem effEntdaa_of_static {dyn : Nat} (hl : b.straps.lead = true) (hn : b.mg.dynAddr = none) :
    effEntdaa dyn b = { b with mg := { b.mg with dynAddr := some dyn } } := if_pos (by simp [hl, hn])

section
variable {addr : Nat} (hl : b.straps.lead = true) (ha : b.mg.dynAddr.getD b.straps.i3cAddr = addr)
include hl ha

theorem effI3cPrivateRead_of_empty (hr : b.mg.responses = []) : effI3cPrivateRead addr b = { b with out := b.out ++ [.i3cNack] } := by
  refine (if_pos (by simp [hl, ha])).trans ?_
  simp only [hr]
  rfl

theorem effI3cPrivateRead_of_waiting {m : List Byte} {rest : List (List Byte)} (hr : b.mg.responses = m :: rest) :
    effI3cPrivateRead addr b = { b with mg := { b.mg with responses := rest }, out := b.out ++ [.i3cData m] } := by
  refine (if_pos (by simp [hl, ha])).trans ?_
  simp only [hr]
  rfl

end

/-! ### MCTP control -/

section
variable {bi : Binding} (hb : bound bi b = true)
include hb

/-- The block with the Endpoint ID of a binding set (R355). -/
def endpointSet (bi : Binding) (eid : Nat) (b : Blk) : Blk :=
  match bi with
  | .i3c => { b with mg := { b.mg with eidI3c := eid } }
  | .inBand => { b with mg := { b.mg with eidInBand := eid } }

theorem effSetEndpointId_of_unicast {eid : Nat} (h0 : 0 < eid) (h1 : eid < 255) :
    effSetEndpointId bi eid b = emit (.mctpControl bi [0, 0, BitVec.ofNat 8 eid, 0]) (endpointSet bi eid b) := by
  refine (if_neg (by rw [hb]; decide)).trans ((if_neg (by omega)).trans ?_)
  cases bi <;> rfl

omit hb in
theorem endpointSet_spec (bi : Binding) (eid : Nat) (b : Blk) : eidOf bi (endpointSet bi eid b) = eid ∧
    (endpointSet bi eid b).out = b.out ∧ (endpointSet bi eid b).mg.sack = b.mg.sack ∧ (endpointSet bi eid b).mg.val = b.mg.val := by
  cases bi <;> exact ⟨rfl, rfl, rfl, rfl⟩

/-! ### Relrok messages -/

variable {eid fn : Nat} {ok : Bool} {bytes : List Byte}

/-- A Relrok message that R357 and R358 let in. -/
def goodMessage (bi : Binding) (fn : Nat) (ok : Bool) (bytes : List Byte) : Prop :=
  (bi = .i3c ∨ fn = 0) ∧ ok = true ∧ 20 ≤ bytes.length ∧ bytes.length ≤ 4096 ∧ bytes.take 4 = (relrokBytes []).drop 1

omit hb in
theorem not_goodMessage_iff : ¬ goodMessage bi fn ok bytes ↔
    (bi = .inBand ∧ fn ≠ 0) ∨ ok = false ∨ 4096 < bytes.length ∨ bytes.length < 20 ∨ bytes.take 4 ≠ (relrokBytes []).drop 1 := by
  have hbi : ¬ (bi = .i3c ∨ fn = 0) ↔ bi = .inBand ∧ fn ≠ 0 := by cases bi <;> simp
  unfold goodMessage
  rw [not_and_or, hbi, not_and_or, Bool.not_eq_true, not_and_or, not_and_or, Nat.not_le, Nat.not_le, or_left_comm (a := bytes.length < 20)]

theorem effRelrokMessage_of_bad (h : ¬ goodMessage bi fn ok bytes) : effRelrokMessage bi eid fn ok bytes b = countObj Obj.mgmtDropped b :=
  (if_neg (by rw [hb]; decide)).trans (if_pos (not_goodMessage_iff.mp h))

/-- The request that a good message carries. -/
def requestOf (bi : Binding) (eid : Nat) (bytes : List Byte) (b : Blk) : Req :=
  { bi := bi, eid := eid, fwd := none, body := bytes.drop 4, arrived := b.clk.mgmt }

theorem effRelrokMessage_of_room (h : goodMessage bi fn ok bytes) (hs : b.mg.sack.length < 16) :
    effRelrokMessage bi eid fn ok bytes b = enterSack (requestOf bi eid bytes b) b :=
  (if_neg (by rw [hb]; decide)).trans ((if_neg (fun hn => not_goodMessage_iff.mpr hn h)).trans (if_neg (Nat.not_le.mpr hs)))

theorem effRelrokMessage_of_full (h : goodMessage bi fn ok bytes) (hs : 16 ≤ b.mg.sack.length) :
    let r := requestOf bi eid bytes b
    effRelrokMessage bi eid fn ok bytes b =
      reply r (respBody b r .busy r.index r.sub (typeOf b r.index r.sub) 0 []) (countObj Obj.mgmtBusy b) :=
  (if_neg (by rw [hb]; decide)).trans ((if_neg (fun hn => not_goodMessage_iff.mpr hn h)).trans (if_pos hs))

end

/-- A request joins those that wait behind them all, unless it overtakes in-band ones of its own cycle (R366). -/
theorem enterSack_of_behind {r : Req} (h : r.bi = .inBand ∨ (∀ x ∈ b.mg.sack, x.bi = .i3c ∨ x.arrived ≠ r.arrived)) (hf : b.mg.fwd = none) :
    (enterSack r b).mg.sack = b.mg.sack ++ [r] := by
  have hk : (if r.bi == .i3c then max (if b.mg.fwd.isSome then 1 else 0) (b.mg.sack.length
      - (b.mg.sack.reverse.takeWhile (fun (x : Req) => x.bi == .inBand && x.arrived == r.arrived)).length) else b.mg.sack.length) =
      b.mg.sack.length := by
    obtain h | h := h
    · rw [if_neg (by simp [h])]
    · have ht : b.mg.sack.reverse.takeWhile (fun (x : Req) => x.bi == .inBand && x.arrived == r.arrived) = [] := by
        rw [List.takeWhile_eq_nil_iff]
        intro hl
        have hx := h _ (List.mem_reverse.mp (List.getElem_mem hl))
        intro hc
        obtain ⟨hbi, har⟩ := (Bool.and_eq_true ..).mp hc
        exact hx.elim (fun hx => absurd ((beq_iff_eq.mp hbi).symm.trans hx) (by decide)) (· (beq_iff_eq.mp har))
      rw [ht, hf]
      simp
  simp only [enterSack, hk, List.take_length, List.drop_length]

end

/-- Settles O58: an address by what answers, a control request by its binding, and a message by R357 and by the room of the sack. -/
theorem managementBindingsAnswer : Obligations.ManagementBindingsAnswer := by
  refine fun s hl => ⟨fun dyn hd hlead hn hs => ⟨?_, fireReady_eq hl (decide_eq_true hd) (effEntdaa_of_static hlead hn)⟩,
    fun addr ha hlead hx => ⟨fun hr => fireReady_eq hl (decide_eq_true ha) (effI3cPrivateRead_of_empty hlead hx hr),
      fun m rest hr => fireReady_eq hl (decide_eq_true ha) (effI3cPrivateRead_of_waiting hlead hx hr)⟩,
    fun bi hb => ⟨fun eid h0 h1 => ?_, fireReady_eq hl rfl (if_pos hb), fireReady_eq hl rfl (if_pos hb), fireReady_eq hl rfl (if_pos hb),
      fireReady_eq hl rfl (if_pos hb)⟩,
    fun bi eid fn ok bytes he hf hb => ?_, fun b r => enterSack_of_behind⟩
  · exact fireReady_eq hl (by simp [hs, hd]) (effSetdasa_of_static hlead hn)
  · obtain ⟨h2, h3, h4, h5⟩ := endpointSet_spec bi eid s.b
    exact ⟨_, fireReady_eq hl (by simp; omega) (effSetEndpointId_of_unicast hb h0 h1), h2,
      congrArg (· ++ [Out.mctpControl bi [0, 0, BitVec.ofNat 8 eid, 0]]) h3, h4, h5⟩
  · have hOk : (decide (eid < 256) && decide (fn < 64)) = true := by simp [he, hf]
    exact ⟨fun h => fireReady_eq hl hOk (effRelrokMessage_of_bad hb h), fun h hs => fireReady_eq hl hOk (effRelrokMessage_of_room hb h hs),
      fun h hs => fireReady_eq hl hOk (effRelrokMessage_of_full hb h hs)⟩

end Sys2Proof.Machine
end

section
/-! SUPPORT. Dictionary requests and the objects that act (R359 to R370, R372, R375, R379 to R381). -/
namespace Sys2Proof.Machine

section
variable {b : Blk} {r : Req}

/-! ### The head of the sack -/

theorem runHead_here {sel : Req → Bool} {act : Req → Blk → Blk} (hq : headReq b = some r) (hs : sel r = true) (hx : execHere b r = true) :
    runHead sel act b = act r b := by
  simp only [runHead, hq, hs, hx, if_true]

theorem runHead_away {sel : Req → Bool} {act : Req → Blk → Blk} (hq : headReq b = some r) (hs : sel r = true) (hx : execHere b r = false) :
    runHead sel act b = forwardReq r b := by
  simp only [runHead, hq, hs, hx, if_true]
  rfl

/-- The checks pass only where the object exists on this die. -/
theorem objRow_of_checkReq {row : ObjRow} (h : checkReq b r = .ok row) : objRow b r.index r.sub = some row := by
  unfold checkReq at h
  repeat' split at h
  all_goals
    cases h
    try assumption

/-! ### READ -/

theorem effRead_here (hq : headReq b = some r) (ho : r.op = 1) (hk : r.key ≠ Obj.peekData) (hx : execHere b r = true) :
    effRead b = runRead r b := runHead_here hq (by simp [ho, hk]) hx

theorem effRead_away (hq : headReq b = some r) (ho : r.op = 1) (hk : r.key ≠ Obj.peekData) (hx : execHere b r = false) :
    effRead b = forwardReq r b := runHead_away hq (by simp [ho, hk]) hx

section
variable {row : ObjRow} (hc : checkReq b r = .ok row)
include hc

theorem runRead_of_now (hb : isBlob row.ty = false) (hw : b.mg.rwc.find? (fun e => e.1 = r.key) = none) :
    runRead r b = finishReq r
      (respBody b r .ok r.index r.sub row.ty 0 (toLe (typeSize row.ty) (objNow b r.index r.sub row))) b := by
  simp only [runRead, hc, hb, hw]
  rfl

theorem runRead_of_pending {v : Nat} (hb : isBlob row.ty = false) (hw : b.mg.rwc.find? (fun e => e.1 = r.key) = some (r.key, v)) :
    runRead r b = finishReq r (respBody b r .ok r.index r.sub row.ty 1 (toLe (typeSize row.ty) v)) b := by
  simp only [runRead, hc, hb, hw]
  rfl

theorem runRead_of_blob (hb : isBlob row.ty = true) :
    let l := (blobNow b r.index r.sub).drop r.off
    runRead r b = finishReq r (respBody b r .ok r.index r.sub row.ty (if r.len < l.length then 2 else 0) (l.take r.len)) b := by
  simp only [runRead, hc, hb, if_true]

end

theorem runRead_of_error {e : DStatus} (hc : checkReq b r = .error e) : runRead r b = refuse r e b := by
  simp only [runRead, hc]

/-! ### DISCOVER -/

theorem effDiscover_here {k : Nat} {row : ObjRow} (hq : headReq b = some r) (ho : r.op = 3) (hx : execHere b r = true) (hr : reqOk r = true)
    (hn : nextObj b r.key = some (k, row)) (ht : r.ty = 0 ∨ r.ty = row.ty) :
    effDiscover b = finishReq r (respBody b r .ok (k / 256) (k % 256) row.ty 0
      (toLe 1 row.ty ++ toLe 1 (accessCode row.acc) ++ toLe 2 (typeSize row.ty)
        ++ toLe 8 (if isBlob row.ty then 0 else objDefault b (k / 256) (k % 256) row))) b := by
  refine (runHead_here hq (by simp [ho]) hx).trans ((if_neg (by simp [hr])).trans ?_)
  simp only [hn]
  exact if_neg fun ⟨h0, h1⟩ => ht.elim h0 h1

/-! ### WRITE of a plain object -/

section
variable (hq : headReq b = some r) (ho : r.op = 2) (hn : ownRow r = false) (hx : execHere b r = true)
include hq ho hn hx

theorem effRegisterWrite_here : effRegisterWrite .dict b = runWrite (plainWrite r) r b :=
  (show runHead plainHead (fun r b => if r.op = 2 then runWrite (plainWrite r) r b else refuse r .malformed b) b = _ from
    runHead_here hq (by simp [plainHead, ho, hn]) hx).trans (if_pos ho)

theorem effRegisterWrite_of_error {e : DStatus} (hc : checkReq b r = .error e) : effRegisterWrite .dict b = refuse r e b := by
  rw [effRegisterWrite_here hq ho hn hx]
  simp only [runWrite, hc]

variable {row : ObjRow} (hc : checkReq b r = .ok row)
include hc

theorem effRegisterWrite_of_ok {c : Blk} (ha : plainWrite r r.sub r.value b = .ok c) : effRegisterWrite .dict b = c.answered r := by
  rw [effRegisterWrite_here hq ho hn hx]
  simp only [runWrite, hc, ha, Blk.answered]

omit hq ho hn hx in
theorem plainWrite_of_valid (hlow : valueOkLow b r.index r.sub r.value = true) (hhigh : valueOkHigh b r.index r.sub r.value = true) :
    plainWrite r r.sub r.value b =
      if row.acc = .rwc then .ok { b with mg := { b.mg with rwc := b.mg.rwc.set r.key (r.value &&& valueMask r.index r.sub) } }
      else .ok (setNow r.index r.sub r.value b) := by
  refine (if_neg (by simp [hlow, hhigh])).trans ?_
  simp only [objRow_of_checkReq hc]
  rfl

end

/-! ### The host's registers and commit points -/

theorem barWrite_of_ignored {fn off bytes : Nat} {v : W64} (h : bytes ≠ 8 ∨ off % 8 ≠ 0 ∨ hostReaches b = false) :
    barWrite fn off bytes v b = b := if_pos (by obtain h | h | h := h <;> simp [h])

section
variable {i n v : Nat}

theorem effRwcCommit_of_waiting (h0 : i ≠ 0x7020) (h1 : i ≠ 0x7022) (hf : b.mg.rwc.find? (fun e => e.1 = 256 * i + n) = some (256 * i + n, v)) :
    effRwcCommit i n b = if commits b i n v then commitNow i n v b else b := by
  simp only [effRwcCommit, hf, if_neg h0, if_neg h1]

end

/-! ### Objects whose write is an action -/

theorem effBootRelease_of_held (hw : Written b Obj.bootRelease 1 r) (hv : r.value = 1) (hr : b.mg.released = false) :
    effBootRelease b = (startLinks { b with mg := { b.mg with released := true } }).answered r :=
  onWrite_ok hw (congrArg Except.ok ((if_pos hv).trans (if_neg (ne_true_of_eq_false hr))))

theorem effErrRingRestart_of_fits (hw : Written b Obj.errRingBase 2 r) (hs : r.sub = 1 → 6 ≤ r.value ∧ r.value ≤ 16)
    (hf : ringFits b (if r.sub = 0 then r.value else b.obj Obj.errRingBase 0) (if r.sub = 1 then r.value else b.obj Obj.errRingLog2 6) = true) :
    let b0 := (b.setObj (Obj.errRingBase + r.sub) r.value).setObj Obj.errRingHead 0
    effErrRingRestart b = (ringHeader { b0 with err := { b0.err with ringWritten := 0, ringLost := 0 } }).answered r :=
  onWrite_ok hw (if_neg fun h => h.elim (fun ⟨h1, h2⟩ => h2 (hs h1)) (fun h => absurd (hf.symm.trans h) (by decide)))

/-- The caches that CACHE_INVALIDATE's three bits name (R235). -/
def cachesDropped (v : Nat) (b : Blk) : Blk :=
  let b := if v.testBit 0 then discardMdcs b else b
  let b : Blk := if v.testBit 1 then { b with xlat := { b.xlat with desc := { b.xlat.desc with lines := [], fresh := true } } } else b
  if v.testBit 2 then { b with xlat := { b.xlat with fault := { b.xlat.fault with lines := [], fresh := true } } } else b

theorem effCacheInvalidate_of_written (hw : Written b Obj.cacheInvalidate 1 r) : effCacheInvalidate b = (cachesDropped r.value b).answered r :=
  onWrite_ok hw rfl

/-! ### Diagnostics -/

section
variable (hd : diagOn b = true)
include hd

theorem effPeekDataRead_here {row : ObjRow} (hq : headReq b = some r) (ho : r.op = 1) (hk : r.key = Obj.peekData) (hx : execHere b r = true)
    (hc : checkReq b r = .ok row) :
    let g := gsRead none (b.obj Obj.peekAddr 0) 8 b
    effPeekDataRead b = finishReq r (respBody b r .ok r.index r.sub row.ty 0 (plain g.2)) g.1 := by
  refine (runHead_here hq (by simp [ho, hk]) hx).trans ?_
  simp only [hc, hd, if_true]

theorem effPeekDataWrite_of_written (hw : Written b Obj.peekData 1 r) :
    effPeekDataWrite b = (gsWriteB (b.obj Obj.peekAddr 0) (toLe 8 r.value) b).answered r := onWrite_ok hw (if_pos hd)

theorem effEccInject_of_valid (hw : Written b Obj.eccInject 1 r) (h1 : 1 ≤ r.value % 16) (h6 : r.value % 16 ≤ 6)
    (hk : r.value / 16 = 1 ∨ r.value / 16 = 2) :
    effEccInject b = ({ b with err := { b.err with
      inject := b.err.inject.filter (fun e => e.1 ≠ r.value % 16) ++ [(r.value % 16, r.value / 16)] } } : Blk).answered r :=
  onWrite_ok hw ((if_neg (by simp [hd])).trans (if_pos ⟨h1, h6, hk⟩))

end
end

/-- Settles O59: a request by its OP and its checks, a plain object by its access, and each acting object by its value. -/
theorem requestsReadWriteAndAct : Obligations.RequestsReadWriteAndAct := by
  refine fun s hl => ⟨fun r row hq ho hk hx hc => ⟨fun hb hw => ?_, fun v hb hw => ?_, fun hb => ?_⟩,
    fun r e hq hx hc => ⟨fun ho hk => fireReady_eq hl rfl ((effRead_here hq ho hk hx).trans (runRead_of_error hc)),
      fun ho hn => fireReady_eq hl rfl (effRegisterWrite_of_error hq ho hn hx hc)⟩,
    fun r hq hx ho hk => fireReady_eq hl rfl (effRead_away hq ho hk hx),
    fun r k row hq ho hx hr hn ht => fireReady_eq hl rfl (effDiscover_here hq ho hx hr hn ht),
    fun r row hq ho hn hx hc hlow hhigh => ⟨fun ha => ?_, fun ha => ?_⟩,
    fun fn off bytes v hf ho hb => ⟨fireReady_eq hl (decide_eq_true ⟨hf, ho, hb⟩) rfl, barWrite_of_ignored⟩,
    fun i n v hi hn h0 h1 hf => ⟨fun h => ?_, fun h => ?_⟩,
    fun b i n v d => ⟨obj_commitNow i n v d b, congrArg Mgmt.rwc (commitNow_mg i n v b)⟩,
    fun r hw hv hr => fireReady_eq hl rfl (effBootRelease_of_held hw hv hr), fun r hw => fireReady_eq hl rfl (onWrite_ok hw rfl),
    fun r hw h => fireReady_eq hl rfl (onWrite_ok hw (if_pos h)),
    fun r hw hv => fireReady_eq hl rfl (onWrite_ok hw (congrArg Except.ok (if_pos hv))),
    fun r hw hv => fireReady_eq hl rfl (onWrite_ok hw (congrArg Except.ok (if_pos hv))),
    fun r hw _ hs hf => fireReady_eq hl rfl (effErrRingRestart_of_fits hw hs hf),
    fun r hw hv => ?_, fun r hw hv => ?_,
    fun hd => ⟨fun r row hq ho hk hx hc => fireReady_eq hl rfl (effPeekDataRead_here hd hq ho hk hx hc),
      fun r hw => fireReady_eq hl rfl (effPeekDataWrite_of_written hd hw),
      fun r hw h1 h6 hk => fireReady_eq hl rfl (effEccInject_of_valid hd hw h1 h6 hk)⟩⟩
  · exact fireReady_eq hl rfl ((effRead_here hq ho hk hx).trans (runRead_of_now hc hb hw))
  · exact fireReady_eq hl rfl ((effRead_here hq ho hk hx).trans (runRead_of_pending hc hb hw))
  · exact fireReady_eq hl rfl ((effRead_here hq ho hk hx).trans (runRead_of_blob hc hb))
  · exact fireReady_eq hl rfl (effRegisterWrite_of_ok hq ho hn hx hc ((plainWrite_of_valid hc hlow hhigh).trans (if_pos ha)))
  · exact fireReady_eq hl rfl (effRegisterWrite_of_ok hq ho hn hx hc ((plainWrite_of_valid hc hlow hhigh).trans (if_neg ha)))
  · exact fireReady_eq hl (by simp [hi, hn]) ((effRwcCommit_of_waiting h0 h1 hf).trans (if_pos h))
  · exact fireReady_eq hl (by simp [hi, hn]) ((effRwcCommit_of_waiting h0 h1 hf).trans (if_neg (ne_true_of_eq_false h)))
  · exact fireReady_eq hl rfl ((effCacheInvalidate_of_written hw).trans (by rw [hv]; rfl))
  · exact fireReady_eq hl rfl ((effCacheInvalidate_of_written hw).trans (by rw [hv]; rfl))

end Sys2Proof.Machine
end

section
/-! SUPPORT. Sacks that are reset, and the copying of error records (R376, R386, R387, R391 to R393). -/
namespace Sys2Proof.Machine

section
variable {b : Blk}

/-! ### Sacks -/

theorem effSackMismatch_of_unit {uid : Nat} {u : Machine.Unit} (h : b.unit? uid = some u) :
    effSackMismatch (.read uid) b = sackRecord 0 2 u.pitch ((b.desc? u.op).map (fun d => (b.q d.q).ctx)) false
      (reread u (bump Ctr.sackMismatch 0 1 b)) := by
  have h : (bump Ctr.sackMismatch 0 1 b).unit? uid = some u := h
  simp only [effSackMismatch, h]
  rfl

theorem loseInside_of_empty {p : Nat} (h : inside b p = []) : loseInside p b = bump Ctr.sackItemsLost 0 0 (sackRecord 2 2 p none false b) := by
  simp only [loseInside, h]
  rfl

/-! ### The copy of a record -/

section
variable {r : ErrRec} {t : Nat} {rest : List (ErrRec × Nat)} (hs : b.err.staging = (r, t) :: rest)
include hs

theorem effErrorRecordCopy_of_due (h : copyDue b t = true) :
    effErrorRecordCopy b = toRing r (toLog256 r { b with err := { b.err with staging := rest, lastCopy := some b.clk.half } }) := by
  simp only [effErrorRecordCopy, hs, h, if_true]

theorem effErrorRecordCopy_of_early (h : copyDue b t = false) : effErrorRecordCopy b = b := by
  simp only [effErrorRecordCopy, hs, h]
  rfl

end

/-! ### The log -/

theorem toLog256_log (r : ErrRec) :
    (toLog256 r b).err.log = (if decide (256 ≤ b.err.log.length) then b.err.log.drop 1 else b.err.log) ++ [r] := by
  unfold toLog256
  by_cases h : 256 ≤ b.err.log.length <;> simp [h, countObj]

theorem toLog256_written (r : ErrRec) : (toLog256 r b).obj Obj.errLogWritten 0 = (b.obj Obj.errLogWritten 0 + 1) % 2 ^ 64 := by
  have hA : Obj.errLogWritten ≠ Obj.alertStatus := by decide
  have hL : Obj.errLogWritten ≠ Obj.errLogLost := by decide
  unfold toLog256
  by_cases h : 256 ≤ b.err.log.length <;> simp [h, alert, countObj, hA, hL] <;> rfl

/-- A record in the log raises its alert, and one that is lost from a full log another (R376). -/
theorem toLog256_alert (r : ErrRec) : (toLog256 r b).obj Obj.alertStatus 0 =
    (if decide (256 ≤ b.err.log.length) then b.obj Obj.alertStatus 0 ||| 2 else b.obj Obj.alertStatus 0) ||| 1 := by
  have hW : Obj.alertStatus ≠ Obj.errLogWritten := by decide
  have hL : Obj.alertStatus ≠ Obj.errLogLost := by decide
  unfold toLog256
  by_cases h : 256 ≤ b.err.log.length <;> simp [h, alert, countObj, hW, hL] <;> rfl

/-! ### The ring -/

section
variable {r : ErrRec} (hb : b.obj Obj.errRingBase 0 ≠ 0)
include hb

theorem toRing_of_room
    (h : (b.err.ringWritten + 2 ^ 64 - b.obj Obj.errRingHead 0) % 2 ^ 64 < 2 ^ b.obj Obj.errRingLog2 6) :
    toRing r b = ringHeader
      { gsWriteB (b.obj Obj.errRingBase 0 + 64 + 32 * (b.err.ringWritten % 2 ^ b.obj Obj.errRingLog2 6)) (errBytes r) b with
        err := { b.err with ringWritten := b.err.ringWritten + 1 } } := (if_neg hb).trans (if_pos h)

theorem toRing_of_full
    (h : 2 ^ b.obj Obj.errRingLog2 6 ≤ (b.err.ringWritten + 2 ^ 64 - b.obj Obj.errRingHead 0) % 2 ^ 64) :
    toRing r b = ringHeader (bump Ctr.errRingLost 0 1 { b with err := { b.err with ringLost := b.err.ringLost + 1 } }) :=
  (if_neg hb).trans (if_neg (Nat.not_lt.mpr h))

end
end

/-- Settles O60: a mismatch by its sack, a copy by its time, the log by whether it is full, and the ring by its room. -/
theorem sacksResetAndRecordsAreCopied : Obligations.SacksResetAndRecordsAreCopied := by
  refine fun s hl => ⟨fun uid u h => fireReady_eq hl rfl (effSackMismatch_of_unit h), fun q hq => fireReady_eq hl (decide_eq_true hq) rfl,
    fireReady_eq hl rfl rfl, fun p hp => fireReady_eq hl (decide_eq_true hp) rfl, fun b p => loseInside_of_empty, fireReady_eq hl rfl rfl,
    fireReady_eq hl rfl rfl, fireReady_eq hl rfl rfl,
    fun r t rest hs => ⟨fun h => fireReady_eq hl rfl (effErrorRecordCopy_of_due hs h),
      fun h => fireReady_eq hl rfl (effErrorRecordCopy_of_early hs h)⟩,
    fun b r => ⟨toLog256_log r, toLog256_written r, toLog256_alert r⟩,
    fun b r => ⟨fun hb => if_pos hb, fun hb h => toRing_of_room hb h, fun hb h => toRing_of_full hb h⟩⟩

end Sys2Proof.Machine
end
